-- ==== Sys2Proof/Word.lean ====
section
/-!
DEFINITION. The words of the package: 64-byte lines, physical line addresses PA[51:6], and the index types of the
units that the spec numbers (stops, slices, dies, cores, channels).
-/
namespace Sys2Proof

/-- A 64-bit register value. -/
abbrev Word := BitVec 64
/-- The data of one 64-byte line; byte 0 of the line is bits 7..0 (little-endian). -/
abbrev LineData := BitVec 512
/-- PA[51:6]: a physical line address. -/
abbrev LineAddr := BitVec 46
/-- A 52-bit physical address. -/
abbrev PAddr := BitVec 52
/-- A mesh stop 0-63 (R154). -/
abbrev Stop := Fin 64
/-- A home slice and its HMC slice 0-31 (R85, R125). -/
abbrev Slice := Fin 32
/-- A compute die 0-11 (R28). -/
abbrev Tcd := Fin 12
/-- A core 0-287: 24 x die + 4 x cluster + core (R5). -/
abbrev Core := Fin 288
/-- An agent slot 0-12: the twelve dies and the TQE (R90). -/
abbrev Agent := Fin 13
/-- A power domain 0-21 (R35). -/
abbrev Dom := Fin 22
/-- A TQE function: 0 is PF0, 1-4095 are the VFs. -/
abbrev Fn := Fin 4096
/-- A TQE ring 0-1048575. -/
abbrev Ring := Fin 1048576
/-- A memory channel: 0-15 are MCH0-MCH15, 16 + 16 k + c is HBM3 channel c of HBC k (R252). -/
abbrev Chan := Fin 80

end Sys2Proof
end

