-- ==== Sys2Proof/Syntax.lean ====
section
/-!
DEFINITION. The commands of the block: one constructor of `Instr` for each row of the table of operations and
events, with the row's operands. A row's operands are what the step is told from outside: the message that
arrives, the value that is written, the unit that the event is about.
-/
namespace Sys2Proof.Machine

/-- The coherence opcodes of R91. -/
inductive Opc where
  | rdShared | rdUnique | upgrade | rdOnce | wrFull | wrPart | wbDirty | evClean | maintCln | maintInv
  | snpShared | snpUnique | snpInv | snpCur | snpCln
  | rspClean | rspClnWb | rspI | rspS | rspIFwd | rspSFwd | rspOFwd | rspIWb | rspSWb | rspCurFwd
  | dataS | dataE | dataM | grantE | dataOnce | wbAck | wbAckStale | evAck | wrAck | maintAck | compAck
  | rsv (code : BitVec 6)   -- a reserved opcode
deriving DecidableEq, Repr

/-- The attributes every transaction carries (R31), without the POISON bit of the line. -/
structure Attr where
  world : Bool
  enc : BitVec 10
  mtag : BitVec 16
  pcls : BitVec 4
  qos : BitVec 2
deriving DecidableEq, Repr

/-- One message of the hub mesh (R91, R159): the header fields that a unit sees, and its data. `req` is the stop
of the requester that a snoop or its answer concerns; `rid` tells the devices behind an I/O stop apart (R76). -/
structure Msg where
  opc : Opc
  dst : Stop
  dunit : BitVec 2
  src : Stop
  req : Stop
  txn : BitVec 12
  line : LineAddr
  attr : Attr
  sts : BitVec 3
  poison : Bool
  pt : Bool
  size : BitVec 3
  low : BitVec 6
  be : BitVec 64
  data : LineData
  rid : BitVec 16
deriving DecidableEq, Repr

/-- A slot of a Stride link (R189, R190): its control byte and messages, the condition of its check bits (0 good, 1 corrected,
2 uncorrectable in segment 0 or the control byte, 3 uncorrectable elsewhere), and the wire that a correction counts against
(R194). -/
structure LinkSlot where
  ctl : BitVec 8
  msgs : List Msg
  err : BitVec 2
  wire : Option (BitVec 7)
deriving DecidableEq, Repr

/-- Who sent a request to a memory channel, and so who receives its answer or its acceptance. -/
inductive MemSrc where
  | home (h : Slice)      -- the read or write of a transaction that holds its line's lock
  | victim (h : Slice)    -- an HMC victim (R135)
  | sweep (h : Slice)     -- a sweep write of a draining HMC half (R142)
  | mark (h : Slice)      -- a poison mark that no transaction waits for (R594)
  | xcp (g : BitVec 1)    -- the parity engine, for a member of a stripe of the group: `line` is the stripe (R261, R268)
deriving DecidableEq, Repr

/-- A read or write of one line sent to a memory channel. `attr.enc` is the ENC whose key the line takes (R319);
`be` are the byte enables of a write that the channel merges (R128). -/
structure MemReq where
  wr : Bool
  chan : Chan
  line : LineAddr
  attr : Attr
  src : MemSrc
  be : BitVec 64
  data : LineData
  poison : Bool
deriving DecidableEq, Repr

/-- Credits on their way back to their holder (R166): the stops, the unit, the kind and the two counts. -/
structure Crd where
  dst : Nat
  src : Nat
  sunit : Nat
  kind : Nat
  a : Nat
  b : Nat
deriving DecidableEq, Repr

/-- What a flit carries: a message; the byte enables of a two-flit write, ahead of the flit with its data (R160); a request
to a memory channel; or returned credits. -/
inductive Load where
  | msg (m : Msg)
  | part (m : Msg)
  | mem (r : MemReq)
  | crd (c : Crd)
deriving DecidableEq, Repr

/-- The condition of the check bits of a stored entry: good, correctable, uncorrectable. -/
inductive Ecc where
  | ok | corr | bad
deriving DecidableEq, Repr

/-- What a DRAM read finds (R235): the code symbols in error, and what the code makes of an error beyond its guarantee. -/
structure DramErr where
  sym : BitVec 80
  ecc : Ecc
deriving DecidableEq, Repr

/-- A line that patrol scrub reads (R237): one of the address space, or the parity line of a stripe. -/
inductive ScrubAt where
  | line (l : LineAddr)
  | parity (g : BitVec 1) (stripe : BitVec 40)
deriving DecidableEq, Repr

/-- Who makes a register access: the source stop, and the attributes it carries (R31, R322). -/
structure Dev where
  src : Stop
  attr : Attr
deriving DecidableEq, Repr


/-- A relay-ring frame (R521): CLASS and CODE, the header's fields, the payload's bytes, the CMAC tag, and whether its CRC
is bad. -/
structure Frame where
  cls : BitVec 3
  code : BitVec 5
  dst : BitVec 8
  src : BitVec 8
  hops : BitVec 8
  seq : BitVec 16
  tag : BitVec 16
  auth : Bool
  ans : Bool
  sts : BitVec 8
  epoch : BitVec 8
  payload : List (BitVec 8)
  mac : BitVec 64
  badCrc : Bool
deriving DecidableEq, Repr

/-- A counter (R482, R485): a core's CCNT_CYC, CCNT_INS and CCNT n, or counter k of a unit's bank. -/
inductive Ctr where
  | cyc (c : Core) | ins (c : Core) | core (c : Core) (n : Fin 6)
  | home (h : Slice) (k : Fin 4) | hmc (k : Fin 4) | mesh (k : Fin 4) | str (t : Tcd) (k : Fin 4)
  | mch (m : Fin 16) (k : Fin 4) | hbc (b : Fin 4) (k : Fin 4) | xcp (k : Fin 4) | tqe (k : Fin 4)
deriving DecidableEq, Repr

/-- What a core ran under an MTAG in an interval (R492): cycles and instructions retired. -/
structure CoreUse where
  core : Core
  mtag : BitVec 16
  cycles : BitVec 32
  instr : BitVec 32
deriving DecidableEq, Repr

/-- Where a register stands: at a system address (PRS, ECAM, or a BAR), or among a core's system registers. -/
inductive RegPlace where
  | mem (pa : BitVec 52)
  | sys (c : Core) (num : BitVec 16)
deriving DecidableEq, Repr

/-- A command line of the service monitor (R543): its word and arguments, numbers as they were written; `malformed` is a line
that R538 does not allow. -/
inductive MonCmd where
  | mode | ident | status | logout | boot | dietest | photo | malformed
  | auth (answer : Option (Nat × Nat))
  | baud (n : Nat)
  | log (n : Nat)
  | powerdown (keep : Nat)
  | reset (kind : Nat)
  | limit (watts lock : Nat)
  | cap (secs : List Nat) (start : Nat)
  | rd (off : Nat)
  | wr (off v : Nat)
  | perf (core : Nat)
  | halt (core : Nat)
  | go (core : Nat)
  | step (core : Nat)
  | regs (core : Nat)
  | setreg (core reg v : Nat)
  | brk (core slot : Nat) (va : Option Nat)
  | memrd (world enc pa len : Nat)
  | memwr (world enc pa v : Nat)
deriving DecidableEq, Repr

/-- What the boot flash gives a boot (R558, R560): the values of the CFG image's register fields (each field by its place in
the flat number space), the domains left OFF; the root ports that the bifurcation gives (bit 8p + k: root port k of port p);
the parity mode; the ownership table's place and segments; the first host firmware with its load address; the cold plate's R0
in µK/W, its F0 and FLOW_FLOOR in 0.01 L/min where they are not the defaults of R474 and R475 (R593). -/
structure BootCfg where
  fields : List (Nat × Nat)
  domOff : BitVec 22
  ports : BitVec 64
  parity : BitVec 2
  motBase : BitVec 31
  segs : List (BitVec 31 × BitVec 31)
  load : BitVec 52
  image : List LineData
  plate : Option (BitVec 32 × BitVec 16 × BitVec 16)
deriving DecidableEq, Repr

/-- The width of a load: 2^lg bytes; or a vector of so many elements of 8 bytes (R49, R70). -/
structure LoadForm where
  lg : BitVec 2
  vec : Bool
deriving DecidableEq, Repr

/-- The width of a store, as of a load, and the register whose value a branch before the store waits for, 0 for none
(R46). -/
structure StoreForm where
  lg : BitVec 2
  vec : Bool
  br : BitVec 5
deriving DecidableEq, Repr

/-- The operation code of an LDO's word, 0 or a reserved one, and its bits that must be zero (R61, R62). -/
structure LdoBits where
  op : BitVec 5
  mbz : BitVec 2
deriving DecidableEq, Repr

/-- The control code of a flit to DUNIT 3 and the kind of a CRD flit (R166). -/
structure CtlOpc where
  ctl : BitVec 6
  kind : BitVec 4
deriving DecidableEq, Repr

/-- How a retune or retrain ends: whether it succeeds, and the lines of a repaired row that its restore reads clean or
correctable (R241, R247, R248). -/
structure Retuned where
  ok : Bool
  lines : List LineAddr
deriving DecidableEq, Repr

/-- A parity update's read of the parity line: its channel and what the code finds (R261). -/
structure ParityRead where
  ch : Chan
  e : DramErr
deriving DecidableEq, Repr

/-- A member read's answer: the member's channel, or none for the parity line held back as a delta; what the code finds,
and its syndrome (R268). -/
structure MemberFound where
  m : Option (BitVec 4)
  e : DramErr
  syn : BitVec 128
deriving DecidableEq, Repr

/-- The reads of one resync stripe: the group, the member that meets an error, and the error (R273). -/
structure ResyncRead where
  g : BitVec 1
  m : Option (BitVec 4)
  e : DramErr
deriving DecidableEq, Repr

/-- What a check of a ring's pointers finds (R369): a copy of FETCH or DONE that differs, or, with `ctx`, a cached context
that cannot be corrected. -/
structure PtrCopies where
  r : Ring
  ctx : Bool
deriving DecidableEq, Repr

/-- What the DIMMs' SPD tells of a channel: its capacity in GiB, and whether its devices ask for RFM (R220, R234). -/
structure DimmSpd where
  gib : BitVec 14
  rfm : Bool
deriving DecidableEq, Repr


end Sys2Proof.Machine

namespace Sys2Proof
open Sys2Proof.Machine

/-- The commands: one constructor for each row of the table of operations and events. -/
inductive Instr where
  /-- REGISTER_WRITE (R6). -/
  | registerWrite (p : RegPlace) (lg : BitVec 2) (v : BitVec 64) (d : Dev)
  /-- TIMEBASE_BELL (R26). -/
  | timebaseBell
  /-- TIMEBASE_WRAP (R26). -/
  | timebaseWrap
  /-- CORE_LOAD (R46). -/
  | coreLoad (c : Core) (rd rb : BitVec 5) (off : BitVec 64) (w : LoadForm)
  /-- CORE_STORE (R47). -/
  | coreStore (c : Core) (rs rb : BitVec 5) (off : BitVec 64) (w : StoreForm)
  /-- FENCE (R54). -/
  | fence (c : Core) (ga gb : BitVec 5) (imm : BitVec 16)
  /-- FENCE_RETIRE (R57). -/
  | fenceRetire (c : Core)
  /-- LDO (R62). -/
  | ldo (c : Core) (ga gb gc : BitVec 5) (size order : BitVec 2) (x : LdoBits)
  /-- STO (R62). -/
  | sto (c : Core) (ga gb gc : BitVec 5) (size order mbz : BitVec 2)
  /-- SWP (R62). -/
  | swp (c : Core) (ga gb gc : BitVec 5) (size order mbz : BitVec 2)
  /-- CAS (R62). -/
  | cas (c : Core) (ga gb gc : BitVec 5) (size order mbz : BitVec 2)
  /-- FADD (R62). -/
  | fadd (c : Core) (ga gb gc : BitVec 5) (size order mbz : BitVec 2)
  /-- FAND (R62). -/
  | fand (c : Core) (ga gb gc : BitVec 5) (size order mbz : BitVec 2)
  /-- FOR (R62). -/
  | forOp (c : Core) (ga gb gc : BitVec 5) (size order mbz : BitVec 2)
  /-- CAS128 (R62). -/
  | cas128 (c : Core) (ga gb gc : BitVec 5) (size order mbz : BitVec 2)
  /-- GATHERED_WRITE_ISSUE (R73). -/
  | gatheredWriteIssue (c : Core)
  /-- DEVICE_LOAD_TIMEOUT (R74). -/
  | deviceLoadTimeout (m : Msg)
  /-- UNMAPPED_ACCESS (R42). -/
  | unmappedAccess (m : Msg)
  /-- NONMEM_COHERENT_REFUSE (R43). -/
  | nonmemCoherentRefuse (m : Msg)
  /-- RDSHARED (R98). -/
  | rdshared (m : Msg)
  /-- RDUNIQUE (R98). -/
  | rdunique (m : Msg)
  /-- UPGRADE (R98). -/
  | upgrade (m : Msg)
  /-- RDONCE (R98). -/
  | rdonce (m : Msg)
  /-- WRFULL (R98). -/
  | wrfull (m : Msg)
  /-- WRPART (R160). -/
  | wrpart (m : Msg)
  /-- WBDIRTY (R98). -/
  | wbdirty (m : Msg)
  /-- EVCLEAN (R98). -/
  | evclean (m : Msg)
  /-- MAINTCLN (R148). -/
  | maintcln (m : Msg)
  /-- MAINTINV (R148). -/
  | maintinv (m : Msg)
  /-- HOME_ADMIT (R95). -/
  | homeAdmit (h : Slice) (ecc : Ecc)
  /-- SNPSHARED (R99). -/
  | snpshared (m : Msg)
  /-- SNPUNIQUE (R99). -/
  | snpunique (m : Msg)
  /-- SNPINV (R99). -/
  | snpinv (m : Msg)
  /-- SNPCUR (R99). -/
  | snpcur (m : Msg)
  /-- SNPCLN (R99). -/
  | snpcln (m : Msg)
  /-- RSPCLEAN (R98). -/
  | rspclean (m : Msg)
  /-- RSPCLNWB (R98). -/
  | rspclnwb (m : Msg)
  /-- RSPI (R100). -/
  | rspi (m : Msg)
  /-- RSPS (R100). -/
  | rsps (m : Msg)
  /-- RSPIFWD (R98). -/
  | rspifwd (m : Msg)
  /-- RSPSFWD (R98). -/
  | rspsfwd (m : Msg)
  /-- RSPOFWD (R98). -/
  | rspofwd (m : Msg)
  /-- RSPIWB (R98). -/
  | rspiwb (m : Msg)
  /-- RSPSWB (R98). -/
  | rspswb (m : Msg)
  /-- RSPCURFWD (R96). -/
  | rspcurfwd (m : Msg)
  /-- DATAS (R97). -/
  | datas (m : Msg)
  /-- DATAE (R97). -/
  | datae (m : Msg)
  /-- DATAM (R97). -/
  | datam (m : Msg)
  /-- GRANTE (R97). -/
  | grante (m : Msg)
  /-- DATAONCE (R96). -/
  | dataonce (m : Msg)
  /-- WBACK (R102). -/
  | wback (m : Msg)
  /-- WBACKSTALE (R104). -/
  | wbackstale (m : Msg)
  /-- EVACK (R102). -/
  | evack (m : Msg)
  /-- WRACK (R98). -/
  | wrack (m : Msg)
  /-- MAINTACK (R148). -/
  | maintack (m : Msg)
  /-- COMPACK (R96). -/
  | compack (m : Msg)
  /-- SNOOP_TIMEOUT (R106). -/
  | snoopTimeout (line : LineAddr) (a : Agent)
  /-- SUSPECT_WINDOW_EXPIRE (R108). -/
  | suspectWindowExpire (a : Agent)
  /-- DEAD_AGENT_SWEEP (R109). -/
  | deadAgentSweep (h : Slice)
  /-- HW_PREFETCH (R124). -/
  | hwPrefetch (c : Core) (near va : BitVec 64) (own : Bool) (kind : BitVec 2)
  /-- L3_EVICT (R121). -/
  | l3Evict (t : Tcd) (line : LineAddr)
  /-- L2_EVICT (R122). -/
  | l2Evict (c : Core) (line : LineAddr)
  /-- HMC_VICTIM_ACCEPTED (R135). -/
  | hmcVictimAccepted (h : Slice) (line : LineAddr)
  /-- HMC_ENABLE (R140). -/
  | hmcEnable (half : BitVec 2)
  /-- HMC_DISABLE (R140). -/
  | hmcDisable (half : BitVec 2)
  /-- HMC_INVALIDATE (R140). -/
  | hmcInvalidate (half : BitVec 2)
  /-- HMC_DRAIN_DONE (R142). -/
  | hmcDrainDone (half : BitVec 2)
  /-- HMC_INVALIDATE_DONE (R140). -/
  | hmcInvalidateDone (half : BitVec 2)
  /-- HMC_SEED_WRITE (R131). -/
  | hmcSeedWrite (h : Slice) (v : BitVec 32) (a : Attr)
  /-- HMC_WAYMASK_WRITE (R134). -/
  | hmcWaymaskWrite (cls : BitVec 4) (v : BitVec 32)
  /-- CLEAN (R146). -/
  | clean (c : Core) (ga gb : BitVec 5) (imm : BitVec 16)
  /-- CLINV (R146). -/
  | clinv (c : Core) (ga gb : BitVec 5) (imm : BitVec 16)
  /-- ZERO (R149). -/
  | zero (c : Core) (ga gb : BitVec 5) (imm : BitVec 16)
  /-- PRF (R146). -/
  | prf (c : Core) (ga gb : BitVec 5) (imm : BitVec 16)
  /-- CACHE_DATA_ERROR (R151). -/
  | cacheDataError (arr : BitVec 3) (u : BitVec 9) (line : LineAddr) (uncorr : Bool)
  /-- TAG_FATAL (R152). -/
  | tagFatal (arr : BitVec 3) (die : Tcd) (index : BitVec 8) (set : BitVec 16) (way : BitVec 4) (dirty : Bool)
  /-- CRD_FLIT (R166). -/
  | crdFlit (dst src : Stop) (sunit : BitVec 4) (x : CtlOpc) (a b : BitVec 8) (rsv : Bool)
  /-- MESH_LINK_ECC_ERROR (R161). -/
  | meshLinkEccError (r : Stop) (l : Load) (err : BitVec 2)
  /-- REQUEST_TIMEOUT (R168). -/
  | requestTimeout (st : Stop) (id : BitVec 10)
  /-- PACER_RELEASE (R175). -/
  | pacerRelease (p : BitVec 4) (free : BitVec 3)
  /-- MESH_PCR_WRITE (R177). -/
  | meshPcrWrite (p c : BitVec 4) (v : BitVec 64) (d : Dev)
  /-- STOP_DRAINED (R181). -/
  | stopDrained (st : Stop)
  /-- STOP_DRAIN_TIMEOUT (R181). -/
  | stopDrainTimeout (st : Stop)
  /-- ROUTER_FAULT (R182). -/
  | routerFault (r : Stop)
  /-- MARK_DEAD (R182). -/
  | markDead (op : BitVec 4) (r : Stop) (d : Dev)
  /-- RECFG_COMPUTE_DONE (R184). -/
  | recfgComputeDone
  /-- RECFG_INSTALL_DONE (R184). -/
  | recfgInstallDone
  /-- RECFG_DRAIN_EMPTY (R184). -/
  | recfgDrainEmpty
  /-- RECFG_DRAIN_TIMEOUT (R184). -/
  | recfgDrainTimeout (lost : List Load)
  /-- LINK_SIDEBAND_READY (R197). -/
  | linkSidebandReady (t : Tcd)
  /-- CAPABILITY_EXCHANGE (R204). -/
  | capabilityExchange (t : Tcd) (r : BitVec 128)
  /-- TRAINING_ATTEMPT_END (R199). -/
  | trainingAttemptEnd (t : Tcd) (lock : BitVec 16) (bad : List (BitVec 4 × BitVec 7))
  /-- TRAINING_ATTEMPT_TIMEOUT (R199). -/
  | trainingAttemptTimeout (t : Tcd)
  /-- WIDTH_CHECK_MSG (R210). -/
  | widthCheckMsg (t : Tcd) (mask : BitVec 16) (width set : BitVec 2) (seq : BitVec 16)
  /-- CREDIT_RESTORE_DONE (R199). -/
  | creditRestoreDone (t : Tcd) (c0 c1 c2 : BitVec 7)
  /-- LINK_RESET (R208). -/
  | linkReset (t : Tcd)
  /-- GROUP_CLOCK_LOSS (R197). -/
  | groupClockLoss (t : Tcd) (g : BitVec 4)
  /-- WIRE_REPAIR_THRESHOLD (R201). -/
  | wireRepairThreshold (t : Tcd) (g : BitVec 4) (w : BitVec 7)
  /-- STRIDE_SLOT_RECEIVE (R193). -/
  | strideSlotReceive (t : Tcd) (toDie : Bool) (x : LinkSlot) (again : Bool)
  /-- LINK_REPLAY_REQUEST (R194). -/
  | linkReplayRequest (t : Tcd) (w : BitVec 128)
  /-- LINK_CREDIT_RETURN (R192). -/
  | linkCreditReturn (t : Tcd) (w : BitVec 128)
  /-- RETRAIN (R197). -/
  | retrain (t : Tcd) (d : Dev)
  /-- LOOPBACK (R216). -/
  | loopback (t : Tcd) (pattern : BitVec 4) (point : BitVec 2) (d : Dev)
  /-- LB_STOP (R216). -/
  | lbStop (t : Tcd) (d : Dev)
  /-- REGULATOR_TRIP (R213). -/
  | regulatorTrip (r : BitVec 7)
  /-- REGULATOR_SAMPLE (R212). -/
  | regulatorSample (r : BitVec 7) (ma : BitVec 24)
  /-- MCH_READ_ARRIVE (R228). -/
  | mchReadArrive (r : MemReq)
  /-- MCH_WRITE_ARRIVE (R219). -/
  | mchWriteArrive (r : MemReq) (e : DramErr)
  /-- DRAM_READ_RETURN (R235). -/
  | dramReadReturn (ch : Chan) (line : LineAddr) (e : DramErr) (syn : BitVec 128)
  /-- DRAM_READ_UNCORRECTABLE (R243). -/
  | dramReadUncorrectable (ch : Chan) (line : LineAddr) (syn : BitVec 128)
  /-- WRITE_AGE_EXPIRE (R227). -/
  | writeAgeExpire (ch : Chan)
  /-- REFRESH_DUE (R232). -/
  | refreshDue (ch : Chan) (sc : BitVec 1) (rk : BitVec 3)
  /-- MR4_POLL (R231). -/
  | mr4Poll (ch : Chan) (hot : Bool)
  /-- ROW_DISTURB_REFRESH (R234). -/
  | rowDisturbRefresh (ch : Chan) (bank : BitVec 9)
  /-- ACT_TABLE_CLEAR (R233). -/
  | actTableClear (ch : Chan)
  /-- PATROL_SCRUB (R237). -/
  | patrolScrub (ch : Chan) (p : ScrubAt) (e : DramErr) (syn : BitVec 128)
  /-- CA_PARITY_ALERT (R242). -/
  | caParityAlert (ch : Chan) (dcmd : BitVec 4) (line : LineAddr) (again : Bool)
  /-- WRITE_CRC_FAIL (R242). -/
  | writeCrcFail (ch : Chan) (line : LineAddr) (again : Bool)
  /-- PHY_LOCK_LOSS (R243). -/
  | phyLockLoss (ch : Chan)
  /-- DQS_RETUNE (R241). -/
  | dqsRetune (ch : Chan) (x : Retuned)
  /-- RESUME (R247). -/
  | resume (ch : Chan)
  /-- REPAIR (R248). -/
  | repair (ch : Chan) (kind : BitVec 2) (sc : BitVec 1) (rk bg : BitVec 3) (ba : BitVec 2) (row : BitVec 17)
  /-- MCH_FENCE (R247). -/
  | mchFence (ch : Chan)
  /-- RESUME_DONE (R247). -/
  | resumeDone (ch : Chan)
  /-- REPAIR_DONE (R248). -/
  | repairDone (ch : Chan) (spare : Bool) (bad : List LineAddr)
  /-- CHANNEL_KEY_LOAD (R239). -/
  | channelKeyLoad (enc : BitVec 10)
  /-- XCP_DELTA_ARRIVE (R264). -/
  | xcpDeltaArrive (ch : Chan)
  /-- PARITY_UPDATE_ARRIVE (R261). -/
  | parityUpdateArrive (x : ParityRead)
  /-- XCP_READ_HANDOVER (R270). -/
  | xcpReadHandover (r : MemReq)
  /-- XCP_WRITE_HANDOVER (R271). -/
  | xcpWriteHandover (r : MemReq)
  /-- XCP_REBUILD_LOCK (R267). -/
  | xcpRebuildLock (g : BitVec 1) (stripe : BitVec 40)
  /-- XCP_MEMBER_ANSWER (R268). -/
  | xcpMemberAnswer (g : BitVec 1) (stripe : BitVec 40) (x : MemberFound)
  /-- RESYNC_STRIPE (R273). -/
  | resyncStripe (x : ResyncRead)
  /-- XCP_INIT (R259). -/
  | xcpInit (m : BitVec 2)
  /-- XCP_INIT_DONE (R259). -/
  | xcpInitDone
  /-- XCP_REBUILD (R276). -/
  | xcpRebuild (m : BitVec 2)
  /-- XCP_MARK_ALL (R274). -/
  | xcpMarkAll (m : BitVec 2)
  /-- DELTA_LINE_UNCORRECTABLE (R266). -/
  | deltaLineUncorrectable (g : BitVec 1) (stripe : BitVec 40)
  /-- XCP_CTL_WRITE (R263). -/
  | xcpCtlWrite (v : BitVec 32)
  /-- TLBI_VA (R292). -/
  | tlbiVa (c : Core) (ga gb : BitVec 5) (imm : BitVec 16)
  /-- TLBI_VAA (R292). -/
  | tlbiVaa (c : Core) (ga gb : BitVec 5) (imm : BitVec 16)
  /-- TLBI_ASID (R292). -/
  | tlbiAsid (c : Core) (ga gb : BitVec 5) (imm : BitVec 16)
  /-- TLBI_VM (R292). -/
  | tlbiVm (c : Core) (ga gb : BitVec 5) (imm : BitVec 16)
  /-- TLBI_ALL (R292). -/
  | tlbiAll (c : Core) (ga gb : BitVec 5) (imm : BitVec 16)
  /-- TLBLOCK (R291). -/
  | tlblock (c : Core) (ga gb : BitVec 5) (imm : BitVec 16)
  /-- TLBUNLOCK (R291). -/
  | tlbunlock (c : Core) (ga gb : BitVec 5) (imm : BitVec 16)
  /-- JRINV (R298). -/
  | jrinv (c : Core) (ga gb : BitVec 5) (imm : BitVec 16)
  /-- SYNC_TLB (R297). -/
  | syncTlb (c : Core) (ga gb : BitVec 5) (imm : BitVec 16)
  /-- SYNC_TLB_COMPLETE (R297). -/
  | syncTlbComplete (c : Core)
  /-- INVAL_BROADCAST_ARRIVE (R295). -/
  | invalBroadcastArrive (c : Core)
  /-- INVAL_TCD_DELIVER (R295). -/
  | invalTcdDeliver (t : Tcd)
  /-- CORE_INVAL_ACK (R297). -/
  | coreInvalAck (c : Core)
  /-- BROADCAST_ACK (R297). -/
  | broadcastAck (t : Tcd)
  /-- VM_CTL_WRITE (R285). -/
  | vmCtlWrite (c : Core) (v : BitVec 64)
  /-- TT_REG_WRITE (R308). -/
  | ttRegWrite (c : Core) (r : BitVec 2) (v : BitVec 64)
  /-- TABLE_WALK (R302). -/
  | tableWalk (c : Core) (va : BitVec 64) (acc : BitVec 2) (spec : Bool)
  /-- VMID_PRESENCE_REPORT (R296). -/
  | vmidPresenceReport (c : Core)
  /-- WCALL (R311). -/
  | wcall (c : Core) (ga gb : BitVec 5) (imm : BitVec 16)
  /-- ENC_CREATE (R326). -/
  | encCreate (q : BitVec 2)
  /-- ENC_ADD (R327). -/
  | encAdd (q : BitVec 2)
  /-- ENC_SEAL (R326). -/
  | encSeal (q : BitVec 2)
  /-- ENC_REMOVE (R327). -/
  | encRemove (q : BitVec 2)
  /-- ENC_DESTROY (R326). -/
  | encDestroy (q : BitVec 2)
  /-- ENC_ATTEST (R595). -/
  | encAttest (q : BitVec 2)
  /-- ASSIGN (R330). -/
  | assign (q : BitVec 2)
  /-- CLAIM (R334). -/
  | claim (q : BitVec 2)
  /-- RELEASE (R335). -/
  | release (q : BitVec 2)
  /-- DBG_SET (R326). -/
  | dbgSet (q : BitVec 2)
  /-- CLAIM_TIMEOUT_EXPIRE (R335). -/
  | claimTimeoutExpire (d : Dom)
  /-- OWNERSHIP_CALL_RESUME (R327). -/
  | ownershipCallResume
  /-- IDE_TLP_FAIL (R331). -/
  | ideTlpFail (rid : BitVec 16)
  /-- BME_CLEAR (R358). -/
  | bmeClear (f : Fn)
  /-- BME_SET (R359). -/
  | bmeSet (f : Fn)
  /-- FLR (R361). -/
  | flr (f : Fn)
  /-- FLR_COMPLETE (R362). -/
  | flrComplete (f : Fn)
  /-- MSIX_ENABLE_SET (R347). -/
  | msixEnableSet (f : Fn)
  /-- MSIX_VECTOR_UNMASK (R345). -/
  | msixVectorUnmask (f : Fn) (v : Option (BitVec 11))
  /-- PEER_PIECE (R350). -/
  | peerPiece (m : Msg) (rid : BitVec 16)
  /-- TQE_WIN_LOW_WRITE (R352). -/
  | tqeWinLowWrite (n : BitVec 16) (v : BitVec 64) (d : Dev)
  /-- TQE_WIN_HIGH_WRITE (R352). -/
  | tqeWinHighWrite (n : BitVec 16) (v : BitVec 64) (d : Dev)
  /-- TQE_WIN_FENCE_READ (R353). -/
  | tqeWinFenceRead (d : Dev)
  /-- TQE_WIN_FENCE_RETURN (R353). -/
  | tqeWinFenceReturn
  /-- TQE_COMPLETION_TIMEOUT (R358). -/
  | tqeCompletionTimeout (line : LineAddr)
  /-- TQE_ADM_IN_WRITE (R385). -/
  | tqeAdmInWrite (f : Fn) (v : BitVec 32) (d : Dev)
  /-- TQE_ADM_END_WRITE (R385). -/
  | tqeAdmEndWrite (f : Fn) (v : BitVec 32) (d : Dev)
  /-- RING_GRANT (R386). -/
  | ringGrant (f : Fn)
  /-- RING_SETUP (R386). -/
  | ringSetup (f : Fn)
  /-- RING_ENABLE (R386). -/
  | ringEnable (f : Fn)
  /-- RING_DISABLE (R386). -/
  | ringDisable (f : Fn)
  /-- RING_RESET (R386). -/
  | ringReset (f : Fn)
  /-- FN_CLASS (R386). -/
  | fnClass (f : Fn)
  /-- RING_QUERY (R386). -/
  | ringQuery (f : Fn)
  /-- ADM_ANSWER_POP (R389). -/
  | admAnswerPop (f : Fn) (hi : Bool) (lg half : BitVec 2) (d : Dev)
  /-- ADM_QUEUE_RESET (R389). -/
  | admQueueReset (f : Fn)
  /-- DOORBELL_READ_COMPLETE (R380). -/
  | doorbellReadComplete (octet : BitVec 17)
  /-- DOORBELL_RETRY (R379). -/
  | doorbellRetry (octet : BitVec 17)
  /-- DESCRIPTOR_FETCH (R376). -/
  | descriptorFetch (r : Ring)
  /-- MOVER_START (R376). -/
  | moverStart
  /-- COPY (R371). -/
  | copy (mv : BitVec 5)
  /-- FILL (R371). -/
  | fill (mv : BitVec 5)
  /-- COMPARE (R371). -/
  | compare (mv : BitVec 5)
  /-- CRC32C (R372). -/
  | crc32c (mv : BitVec 5)
  /-- GCM_ENC (R371). -/
  | gcmEnc (mv : BitVec 5)
  /-- GCM_DEC (R395). -/
  | gcmDec (mv : BitVec 5)
  /-- XTS_ENC (R371). -/
  | xtsEnc (mv : BitVec 5)
  /-- XTS_DEC (R371). -/
  | xtsDec (mv : BitVec 5)
  /-- PEER (R373). -/
  | peer (mv : BitVec 5)
  /-- NOP (R371). -/
  | nop (mv : BitVec 5)
  /-- DESCRIPTOR_COMMIT (R376). -/
  | descriptorCommit (r : Ring)
  /-- PTR_COPY_MISMATCH (R369). -/
  | ptrCopyMismatch (x : PtrCopies)
  /-- MOVER_FIFO_RESET (R384). -/
  | moverFifoReset (mv : BitVec 5)
  /-- KEY_BIND (R399). -/
  | keyBind (f : Fn)
  /-- KEY_PUT (R399). -/
  | keyPut (f : Fn)
  /-- KEY_GEN (R399). -/
  | keyGen (f : Fn)
  /-- KEY_UNWRAP (R403). -/
  | keyUnwrap (f : Fn)
  /-- KEY_WRAP (R402). -/
  | keyWrap (f : Fn)
  /-- KEY_WRAP_ENGINE_DONE (R404). -/
  | keyWrapEngineDone
  /-- KEY_ERASE (R401). -/
  | keyErase (f : Fn)
  /-- KEY_QUERY (R402). -/
  | keyQuery (f : Fn)
  /-- KEY_ALARM (R407). -/
  | keyAlarm (cause : BitVec 5)
  /-- KEY_ALARM_REARM (R407). -/
  | keyAlarmRearm
  /-- DRBG_RESEED (R392). -/
  | drbgReseed (lane : BitVec 4)
  /-- KEY_SLOT_ERROR (R409). -/
  | keySlotError (slot : BitVec 16)
  /-- MB_SEND (R414). -/
  | mbSend (f : Fn) (pf : Bool) (d : Dev)
  /-- MB_IN_FULL_CLEAR (R414). -/
  | mbInFullClear (f : Fn) (pf : Bool) (d : Dev)
  /-- INST_FREEZE (R418). -/
  | instFreeze (f : Fn)
  /-- INST_SAVE (R423). -/
  | instSave (f : Fn)
  /-- INST_RESTORE (R424). -/
  | instRestore (f : Fn)
  /-- INST_RESUME (R419). -/
  | instResume (f : Fn)
  /-- DIRTY_START (R427). -/
  | dirtyStart (f : Fn)
  /-- DIRTY_SYNC (R428). -/
  | dirtySync (f : Fn)
  /-- DIRTY_STOP (R420). -/
  | dirtyStop (f : Fn)
  /-- INST_QUERY (R420). -/
  | instQuery (f : Fn)
  /-- WIRED_SOURCE_LEVEL (R431). -/
  | wiredSourceLevel (n : BitVec 8) (level : Bool)
  /-- WIRED_SOURCE_EDGE (R431). -/
  | wiredSourceEdge (n : BitVec 8)
  /-- PIR_SRC_DONE (R431). -/
  | pirSrcDone (n : BitVec 8) (v : BitVec 64) (d : Dev)
  /-- PIR_SRC_WRITE (R443). -/
  | pirSrcWrite (n : BitVec 8) (v : BitVec 64) (d : Dev)
  /-- MSI_MESSAGE (R435). -/
  | msiMessage (m : Msg)
  /-- MTT_INVALIDATE (R435). -/
  | mttInvalidate (v : BitVec 32) (d : Dev)
  /-- POSTED_DELIVERY (R441). -/
  | postedDelivery
  /-- INTERRUPT_ARRIVE (R436). -/
  | interruptArrive (c : Core) (vec : BitVec 8) (world : Bool)
  /-- INTERRUPT_TAKE (R438). -/
  | interruptTake (c : Core)
  /-- INT_ACK_READ (R437). -/
  | intAckRead (c : Core) (rd : BitVec 5)
  /-- INT_EOI (R437). -/
  | intEoi (c : Core) (v : BitVec 64)
  /-- INT_IPI (R439). -/
  | intIpi (c : Core) (v : BitVec 64)
  /-- VIP_CTL_WRITE (R442). -/
  | vipCtlWrite (c : Core) (v : BitVec 64)
  /-- MBX_IN_WRITE (R445). -/
  | mbxInWrite (m : BitVec 6) (v : BitVec 32) (d : Dev)
  /-- MBX_END_WRITE (R445). -/
  | mbxEndWrite (m : BitVec 6) (v : BitVec 64) (d : Dev)
  /-- MBX_DB_SET_WRITE (R449). -/
  | mbxDbSetWrite (m : BitVec 6) (v : BitVec 32) (d : Dev)
  /-- MBX_OUT_HI_READ (R446). -/
  | mbxOutHiRead (m : BitVec 6) (lg half : BitVec 2) (d : Dev)
  /-- MBX_DB_CLEAR (R449). -/
  | mbxDbClear (m : BitVec 6) (v : BitVec 32) (d : Dev)
  /-- MBX_PTR_MISMATCH (R448). -/
  | mbxPtrMismatch (m : BitVec 6)
  /-- MBX_AGE_DROP (R453). -/
  | mbxAgeDrop (m : BitVec 6)
  /-- DOM_ON (R460). -/
  | domOn (q : BitVec 1)
  /-- DOM_OFF (R459). -/
  | domOff (q : BitVec 1)
  /-- DOM_GATE (R459). -/
  | domGate (q : BitVec 1)
  /-- DOMAIN_POWERED (R460). -/
  | domainPowered (d : Dom)
  /-- CLUS_PERF (R462). -/
  | clusPerf (q : BitVec 1)
  /-- CORE_OFFLINE (R462). -/
  | coreOffline (q : BitVec 1)
  /-- CORE_ONLINE (R571). -/
  | coreOnline (q : BitVec 1)
  /-- SET_LIMIT (R462). -/
  | setLimit (q : BitVec 1)
  /-- SET_RIDE (R462). -/
  | setRide (q : BitVec 1)
  /-- PMC_QUERY (R462). -/
  | pmcQuery (q : BitVec 1)
  /-- PMC_CONTROL_INTERVAL (R468). -/
  | pmcControlInterval (busy : BitVec 72)
  /-- VOLTAGE_RAMP_DONE (R467). -/
  | voltageRampDone (k : BitVec 7)
  /-- WAIT_FOR_INTERRUPT (R470). -/
  | waitForInterrupt (c : Core)
  /-- IDLE2_ENTRY (R470). -/
  | idle2Entry (c : Core)
  /-- AON_SUPPLY_GOOD (R471). -/
  | aonSupplyGood
  /-- AON_SUPPLY_LOSS (R471). -/
  | aonSupplyLoss
  /-- BOOT_REQUEST (R560). -/
  | bootRequest
  /-- HANDOFF_RUN (R572). -/
  | handoffRun (d : Dev)
  /-- MAINS_LOSS (R477). -/
  | mainsLoss (ring : Bool)
  /-- MAINS_RETURN (R479). -/
  | mainsReturn
  /-- BATTERY_RESERVE (R478). -/
  | batteryReserve
  /-- CDU_REPORT (R474). -/
  | cduReport (flow : BitVec 16) (tin tout : BitVec 10)
  /-- CDU_STALE (R475). -/
  | cduStale
  /-- JUNCTION_HOT (R475). -/
  | junctionHot (k : BitVec 7) (tj : BitVec 8)
  /-- JUNCTION_FATAL (R475). -/
  | junctionFatal (k : BitVec 7)
  /-- HEAT_FORECAST (R476). -/
  | heatForecast
  /-- RAIL_REPORT (R469). -/
  | railReport (mw : BitVec 24)
  /-- COUNTER_WRAP (R483). -/
  | counterWrap (x : Ctr)
  /-- METERING_INTERVAL (R491). -/
  | meteringInterval (u : List CoreUse)
  /-- SPL_CI_WRITE (R490). -/
  | splCiWrite (v : BitVec 32) (d : Dev)
  /-- SPL_OPEN (R494). -/
  | splOpen (g : BitVec 16) (d : Dev)
  /-- SPL_CLOSE (R494). -/
  | splClose (g : BitVec 16) (d : Dev)
  /-- SPL_QUERY (R494). -/
  | splQuery (g : BitVec 16) (d : Dev)
  /-- ERR_RECORD_TAKE (R510). -/
  | errRecordTake
  /-- COAL_ENTRY_EXPIRE (R511). -/
  | coalEntryExpire (id : BitVec 6)
  /-- ERR_FIFO_POP (R513). -/
  | errFifoPop (lg half : BitVec 2)
  /-- ERR_RING_CI_WRITE (R512). -/
  | errRingCiWrite (v : BitVec 32)
  /-- ALARM_TOKEN_REFILL (R514). -/
  | alarmTokenRefill
  /-- ERR_INTERNAL_ERROR (R498). -/
  | errInternalError
  /-- TREE_FATAL (R498). -/
  | treeFatal
  /-- RLY_BYPASS_TIMEOUT (R518). -/
  | rlyBypassTimeout
  /-- RLY_TEST_DONE (R518). -/
  | rlyTestDone (ok : Bool)
  /-- RLY_PORT_FAULT (R518). -/
  | rlyPortFault
  /-- RING_FREEZE (R531). -/
  | ringFreeze (a b : BitVec 8) (viol : Bool)
  /-- RING_MAINS_LOST (R531). -/
  | ringMainsLost (a b : BitVec 8) (viol : Bool)
  /-- ORDERED_SET_REPEAT (R531). -/
  | orderedSetRepeat (freeze : Bool)
  /-- DISCOVER (R524). -/
  | discover (f : Frame)
  /-- ANNOUNCE (R519). -/
  | announce (f : Frame)
  /-- TIME (R533). -/
  | time (f : Frame) (lat : BitVec 16)
  /-- TIME_HOLDOVER (R534). -/
  | timeHoldover
  /-- RLY_IDENT (R530). -/
  | rlyIdent (f : Option Frame)
  /-- RLY_STATUS (R530). -/
  | rlyStatus (f : Option Frame)
  /-- RLY_BOOT (R530). -/
  | rlyBoot (f : Option Frame)
  /-- RLY_POWER_DOWN (R530). -/
  | rlyPowerDown (f : Option Frame)
  /-- RLY_RESET (R530). -/
  | rlyReset (f : Option Frame)
  /-- RLY_SET_LIMIT (R530). -/
  | rlySetLimit (f : Option Frame)
  /-- LINKDLY (R530). -/
  | linkdly (f : Option Frame)
  /-- LEAVE (R530). -/
  | leave (f : Option Frame)
  /-- RLY_MONITOR (R530). -/
  | rlyMonitor (f : Option Frame)
  /-- MON_MODE (R543). -/
  | monMode
  /-- MON_IDENT (R543). -/
  | monIdent
  /-- MON_STATUS (R543). -/
  | monStatus
  /-- AUTH (R542). -/
  | auth (answer : Option (Nat × Nat))
  /-- LOGOUT (R542). -/
  | logout
  /-- BAUD (R540). -/
  | baud (n : Nat)
  /-- LOG (R543). -/
  | log (n : Nat)
  /-- MON_BOOT (R543). -/
  | monBoot
  /-- POWERDOWN (R543). -/
  | powerdown (keep : Nat)
  /-- MON_RESET (R566). -/
  | monReset (kind : Nat)
  /-- FLUSH_DEADLINE (R569). -/
  | flushDeadline
  /-- LIMIT (R543). -/
  | limit (watts lock : Nat)
  /-- DIETEST (R215). -/
  | dietest
  /-- PHOTO (R546). -/
  | photo
  /-- CAP (R549). -/
  | cap (secs : List Nat) (start : Nat)
  /-- RD (R543). -/
  | rd (off : Nat)
  /-- WR (R543). -/
  | wr (off v : Nat)
  /-- PERF (R543). -/
  | perf (core : Nat)
  /-- HALT (R544). -/
  | halt (core : Nat)
  /-- GO (R544). -/
  | go (core : Nat)
  /-- STEP (R544). -/
  | step (core : Nat)
  /-- REGS (R543). -/
  | regs (core : Nat)
  /-- SETREG (R543). -/
  | setreg (core reg v : Nat)
  /-- BRK (R543). -/
  | brk (core slot : Nat) (va : Option Nat)
  /-- MEMRD (R545). -/
  | memrd (world enc pa len : Nat)
  /-- MEMWR (R545). -/
  | memwr (world enc pa v : Nat)
  /-- BREAKPOINT_HIT (R544). -/
  | breakpointHit (c : Core)
  /-- UART_BREAK (R540). -/
  | uartBreak
  /-- MON_SESSION_TIMEOUT (R542). -/
  | monSessionTimeout
  /-- MON_AUTH_LOCKOUT_END (R542). -/
  | monAuthLockoutEnd
  /-- PHOTO_PIN_TRIGGER (R546). -/
  | photoPinTrigger
  /-- PF_TRIG_WRITE (R546). -/
  | pfTrigWrite (d : Dev)
  /-- PF_CONTROLLERS_REPORTED (R547). -/
  | pfControllersReported
  /-- PF_STOP_TIMEOUT (R547). -/
  | pfStopTimeout (missing : BitVec 80)
  /-- PF_ISLANDS_STOPPED (R547). -/
  | pfIslandsStopped
  /-- COLD_RESET_PIN (R556). -/
  | coldResetPin
  /-- PG_MAIN_RISE (R556). -/
  | pgMainRise
  /-- PG_MAIN_TIMEOUT (R556). -/
  | pgMainTimeout
  /-- PG_AUX_RISE (R556). -/
  | pgAuxRise (k : BitVec 2)
  /-- PG_AUX_TIMEOUT (R556). -/
  | pgAuxTimeout (k : BitVec 2)
  /-- POWER_GOOD_FALL (R555). -/
  | powerGoodFall (k : BitVec 3)
  /-- HUB_RST_DIE (R570). -/
  | hubRstDie (t : BitVec 4) (d : Dev)
  /-- HUB_RST_TQE (R570). -/
  | hubRstTqe (d : Dev)
  /-- DIE_RESET_DONE (R570). -/
  | dieResetDone
  /-- CXLWIN_WRITE (R587). -/
  | cxlwinWrite (k : BitVec 4) (v : BitVec 64) (d : Dev)
  /-- TAP_INSTRUCTION (R591). -/
  | tapInstruction (ir : BitVec 2)
  /-- DRAM_COMMAND_ISSUE (R226). -/
  | dramCommandIssue (ch : Chan) (ready : BitVec 512)
  /-- MEMORY_TRAINING_DONE (R561). -/
  | memoryTrainingDone (pass : BitVec 16) (hbm : BitVec 64) (map : BitVec 32) (x : DimmSpd)
  /-- BOOT_CHAIN_VERIFIED (R559). -/
  | bootChainVerified (fail : BitVec 8) (ver : BitVec 64) (cfg : BootCfg)
  /-- RST_N_RISE (R556). -/
  | rstNRise
  /-- PWRFAIL_N_RISE (R479). -/
  | pwrfailNRise
  /-- RING_FRAME_PASS (R523). -/
  | ringFramePass (f : Frame)
  /-- RING_LINE_BREAK (R519). -/
  | ringLineBreak (n : BitVec 8)
  /-- KEY_ALARM_WINDOW_EXPIRE (R407). -/
  | keyAlarmWindowExpire
deriving DecidableEq, Repr

end Sys2Proof
end

