-- ==== Sys2Proof/Decode.lean ====
section
/-!
DEFINITION. The package has no encoding of commands of its own: the table of operations and events gives no row any bits,
so no word spells a command. The one group of core instructions whose words the spec lays out bit by bit, the ordered loads,
stores and atomics (R61), is decoded and encoded here beside it; of the system group (R54, R146, R292) the spec names the major
opcode, the functions and the fields but not where they stand in the word.
-/
namespace Sys2Proof

/-- The command that a word spells by the table's bits: the table gives bits to no row. -/
def decodeTableWord (_nbits _w : Nat) : Option Instr := none

/-- The word of an ordered load, ordered store or atomic: major opcode 0x39 in bits 31 to 26, then ga, gb, gc, op, size, order
and the bits that must be zero (R61). -/
def ordWord (ga gb gc op : BitVec 5) (size order mbz : BitVec 2) : BitVec 32 :=
  0x39#6 ++ ga ++ gb ++ gc ++ op ++ size ++ order ++ mbz

/-- The command of an operation code; a reserved code goes with LDO's row, whose meaning raises the exception (R62). -/
def ordInstr (c : Core) (ga gb gc op : BitVec 5) (size order mbz : BitVec 2) : Instr :=
  match op.toNat with
  | 1 => .sto c ga gb gc size order mbz
  | 2 => .swp c ga gb gc size order mbz
  | 3 => .cas c ga gb gc size order mbz
  | 4 => .fadd c ga gb gc size order mbz
  | 5 => .fand c ga gb gc size order mbz
  | 6 => .forOp c ga gb gc size order mbz
  | 7 => .cas128 c ga gb gc size order mbz
  | _ => .ldo c ga gb gc size order ⟨op, mbz⟩

/-- The command of core c that a 32-bit word of major opcode 0x39 spells (R61); a word of another major opcode spells none. -/
def decodeOrdered (c : Core) (w : BitVec 32) : Option Instr :=
  if w.extractLsb' 26 6 = 0x39 then
    some (ordInstr c (w.extractLsb' 21 5) (w.extractLsb' 16 5) (w.extractLsb' 11 5) (w.extractLsb' 6 5)
      (w.extractLsb' 4 2) (w.extractLsb' 2 2) (w.extractLsb' 0 2))
  else none

end Sys2Proof
end

