-- ==== Sys2Proof/Config.lean ====
section
/-!
DEFINITION. What the spec leaves open or leaves to the implementation: every constant here is opaque, so that no
statement can rest on a value of it, except the few numbers that an assumption log entry names. Cryptographic
functions of published standards are opaque too: the spec names them by their standard, and no rule of the spec
depends on their values.
-/
namespace Sys2Proof.Config

/-- A fresh value each time: applied to the counter `State.freeCtr` (assumption 3). -/
opaque freeValue : Nat → BitVec 512
/-- AES-XTS of a 16-byte block under a key, with the tweak PA[51:4]: for every key and tweak some permutation of blocks (R238,
assumption 5). -/
opaque xtsBlock : Nat → Nat → BitVec 128 ≃ BitVec 128
/-- AES under a key of 16 or 32 bytes: for every key some permutation of blocks (assumption 5). -/
opaque aes : List (BitVec 8) → BitVec 128 ≃ BitVec 128
/-- SHA-384 of a byte string. -/
opaque sha384 : List (BitVec 8) → BitVec 384
/-- ECDSA over P-384 under the package attestation key: the two integers of a signature of a digest. -/
opaque ecdsa : BitVec 384 → BitVec 384 × BitVec 384
/-- The power of a cluster at an operating point, at full activity, in mW (R468). -/
opaque clusterMw : Nat → Nat → Nat
/-- The efficiency of a regulator at an output current in mA, in thousandths (R469, the PDT's table). -/
opaque efficiency : Nat → Nat → Nat
/-- The set point of a regulator from 84 on, as the steps of 5 mV above 0.70 V at which the PMC holds it (R211, R212): the
spec gives the range and no value. -/
opaque setPoint : Nat → Nat
/-- The power of the HBM stacks of a half in mW, modelled from command counts (R469): a fresh value each time. -/
opaque hbmMw : Nat → Nat → Nat
/-- The plate's temperature in µK after n steps of 100 ms without any flow, where the formula of R474 has no value
(assumption 84). -/
opaque plateNoFlow : Nat → Nat → Nat
/-- The ring key and the service key that the SEP loads over the private key bus (R522, R542). -/
opaque ringKey : BitVec 128
opaque serviceKey : BitVec 128
/-- The fused serial number (R530). -/
opaque serial : BitVec 64

/-- The requester ID of the external function whose BAR holds an address: the devices behind the root ports are outside
the package. -/
opaque barOwner : Nat → Nat
/-- The text that a monitor command prints for its values: the spec gives no layout of a line (R539). -/
opaque monText : Nat → List Nat → List (BitVec 8)

/-- The SECDED check bits stored with a word: the spec gives no matrix (R88, R368). -/
opaque secded : Nat → Nat
/-- The bits of the flit of a memory request: whether it writes, its line and its data (R158, assumption 24). -/
opaque memFlit : Bool → BitVec 46 → BitVec 512 → BitVec 640
/-- The 40 check bits of a Stride slot (R189): the spec gives no matrix. -/
opaque slotCheck : BitVec 640 → BitVec 40

end Sys2Proof.Config
end

