-- ==== Sys2Proof/Machine/Tables.lean ====
section
/-!
DEFINITION. The two shapes in which the state holds sparse data: a table from numbers to values in one canonical
form (keys strictly rising), and the named fields of the register file.
-/
namespace Sys2Proof.Machine

/-- A sparse table: pairs of a key and a value, keys strictly rising. -/
abbrev Tbl (α : Type) := List (Nat × α)

/-- The value listed under a key. -/
def Tbl.get? {α : Type} : Tbl α → Nat → Option α
  | [], _ => none
  | (a, v) :: t, k => if k = a then some v else Tbl.get? t k

/-- The value under a key, or the value that an unlisted key reads as. -/
def Tbl.getD {α : Type} (t : Tbl α) (k : Nat) (d : α) : α := (Tbl.get? t k).getD d

/-- List a value under a key, in its place. -/
def Tbl.set {α : Type} : Tbl α → Nat → α → Tbl α
  | [], k, v => [(k, v)]
  | (a, w) :: t, k, v =>
    if k = a then (k, v) :: t else if k < a then (k, v) :: (a, w) :: t else (a, w) :: Tbl.set t k v

/-- Remove a key. -/
def Tbl.erase {α : Type} : Tbl α → Nat → Tbl α
  | [], _ => []
  | (a, w) :: t, k => if k = a then Tbl.erase t k else (a, w) :: Tbl.erase t k

/-- Write a value under a key whose unlisted value is `d`: writing `d` removes the key. -/
def Tbl.put {α : Type} [DecidableEq α] (t : Tbl α) (k : Nat) (d v : α) : Tbl α :=
  if v = d then Tbl.erase t k else Tbl.set t k v

/-- Every key of a table lies above a bound, and the keys rise strictly. -/
def Tbl.wfFrom {α : Type} : Nat → Tbl α → Bool
  | _, [] => true
  | b, (a, _) :: t => decide (b ≤ a) && Tbl.wfFrom (a + 1) t

/-- The canonical form: keys strictly rising. -/
def Tbl.wf {α : Type} (t : Tbl α) : Bool := Tbl.wfFrom 0 t

/-- A register field: its place (64 x register address + low bit, unique), its width, its value at reset. -/
structure Fld where
  key : Nat
  w : Nat
  rst : Nat
deriving DecidableEq, Repr

/-- A W1C status flag with its event count (R13, R14). -/
structure Flag where
  bit : Fld
  cnt : Fld
deriving DecidableEq, Repr

/-- The field types of R6, and `cnt`: a count that a write of zero clears and no other write changes (R14). -/
inductive FTy where
  | rw | ro | w1c | w1s | wo | rwl | cnt
deriving DecidableEq, Repr

/-- One field of a register: low bit, width, type, reset value, and the encodings that are not reserved, as
closed ranges (empty: every encoding is allowed). -/
structure FieldD where
  lo : Nat
  w : Nat
  ty : FTy
  rst : Nat
  ok : List (Nat × Nat)
deriving DecidableEq, Repr

/-- One register or array of registers: base address, two array dimensions (count and stride), width in bits,
whether only a 64-bit write acts (R10), the lock bit of its RWL fields (how many bytes below the register the lock's
register stands, and the bit), and its fields. -/
structure RegD where
  name : String
  base : Nat
  n1 : Nat
  s1 : Nat
  n2 : Nat
  s2 : Nat
  bits : Nat
  act64 : Bool
  lock : Option (Nat × Nat)
  fields : List FieldD
deriving DecidableEq, Repr

end Sys2Proof.Machine
end

