-- ==== Sys2Proof/Machine/Fields.lean ====
section
/-!
DEFINITION. Every register field of the package as a named field: the register it stands in (by its address in
one flat number space), its low bit, its width and its value at reset. The tables are those of the spec's
register rules; each register's line names its rule. An index argument numbers the block instance or the register
of an array, in the order in which the spec's table lists them.
-/
namespace Sys2Proof.Machine

/-! HUB_ID (R38). -/
def HUB_ID.VENDOR : Fld := ⟨(0x100000) * 64 + 48, 16, 23836⟩
def HUB_ID.PART : Fld := ⟨(0x100000) * 64 + 32, 16, 29320⟩
def HUB_ID.HBM_STACKS : Fld := ⟨(0x100000) * 64 + 24, 8, 4⟩
def HUB_ID.STEPPING : Fld := ⟨(0x100000) * 64 + 16, 8, 177⟩
/-! HUB_POP (R38). -/
def HUB_POP.CORES_PER_CLUSTER : Fld := ⟨(0x100008) * 64 + 16, 4, 4⟩
def HUB_POP.HBM_PRESENT : Fld := ⟨(0x100008) * 64 + 12, 4, 15⟩
def HUB_POP.TCD_PRESENT : Fld := ⟨(0x100008) * 64 + 0, 12, 0⟩
/-! HUB_PKG_MODE (R38). -/
def HUB_PKG_MODE.PREV_MODE : Fld := ⟨(0x100010) * 64 + 4, 3, 0⟩
def HUB_PKG_MODE.PKG_MODE : Fld := ⟨(0x100010) * 64 + 0, 3, 1⟩
/-! HUB_AGENT_STATE (R118). -/
def HUB_AGENT_STATE.SLOT (n : Nat) : Fld := ⟨0x100100 * 64 + 2 * n, 2, 3⟩
/-! HUB_VMPV_SEL (R309). -/
def HUB_VMPV_SEL.VMID : Fld := ⟨(0x100200) * 64 + 0, 16, 0⟩
/-! HUB_VMPV (R309). -/
def HUB_VMPV.TCDS : Fld := ⟨(0x100208) * 64 + 0, 12, 0⟩
/-! HUB_BOOT (R572). -/
def HUB_BOOT.LAST_FAIL : Fld := ⟨(0x100020) * 64 + 24, 8, 0⟩
def HUB_BOOT.MEMKEPT : Fld := ⟨(0x100020) * 64 + 1, 1, 0⟩
def HUB_BOOT.RUN : Fld := ⟨(0x100020) * 64 + 0, 1, 0⟩
/-! HUB_RST (R572). -/
def HUB_RST.OP : Fld := ⟨(0x100028) * 64 + 8, 4, 0⟩
def HUB_RST.TARGET : Fld := ⟨(0x100028) * 64 + 0, 4, 0⟩
/-! HUB_RST_STS (R572). -/
def HUB_RST_STS.LAST_STS : Fld := ⟨(0x100030) * 64 + 56, 8, 0⟩
def HUB_RST_STS.BUSY : Fld := ⟨(0x100030) * 64 + 32, 1, 0⟩
def HUB_RST_STS.PSNLINES : Fld := ⟨(0x100030) * 64 + 0, 32, 0⟩
/-! SB_CTL (R584). -/
def SB_CTL.IN (i : Nat) : Fld := ⟨(0x100300 + i * 0x8) * 64 + 8, 1, 0⟩
def SB_CTL.PULL (i : Nat) : Fld := ⟨(0x100300 + i * 0x8) * 64 + 3, 1, 0⟩
def SB_CTL.OD (i : Nat) : Fld := ⟨(0x100300 + i * 0x8) * 64 + 2, 1, 0⟩
def SB_CTL.OUT (i : Nat) : Fld := ⟨(0x100300 + i * 0x8) * 64 + 1, 1, 0⟩
def SB_CTL.OE (i : Nat) : Fld := ⟨(0x100300 + i * 0x8) * 64 + 0, 1, 0⟩
/-! HUB_CXLWIN (R587). -/
def HUB_CXLWIN.LOCK (i : Nat) : Fld := ⟨(0x100400 + i * 0x8) * 64 + 63, 1, 0⟩
def HUB_CXLWIN.EN (i : Nat) : Fld := ⟨(0x100400 + i * 0x8) * 64 + 62, 1, 0⟩
def HUB_CXLWIN.WAYS (i : Nat) : Fld := ⟨(0x100400 + i * 0x8) * 64 + 60, 2, 0⟩
def HUB_CXLWIN.GRAN (i : Nat) : Fld := ⟨(0x100400 + i * 0x8) * 64 + 59, 1, 0⟩
def HUB_CXLWIN.PORTS (i : Nat) : Fld := ⟨(0x100400 + i * 0x8) * 64 + 36, 12, 0⟩
def HUB_CXLWIN.SIZE (i : Nat) : Fld := ⟨(0x100400 + i * 0x8) * 64 + 0, 17, 0⟩
/-! MATTR (R51). -/
def MATTR.SLOT7 (i : Nat) : Fld := ⟨(0x100002000 + i * 0x10000) * 64 + 56, 3, 0⟩
def MATTR.SLOT6 (i : Nat) : Fld := ⟨(0x100002000 + i * 0x10000) * 64 + 48, 3, 0⟩
def MATTR.SLOT5 (i : Nat) : Fld := ⟨(0x100002000 + i * 0x10000) * 64 + 40, 3, 0⟩
def MATTR.SLOT4 (i : Nat) : Fld := ⟨(0x100002000 + i * 0x10000) * 64 + 32, 3, 0⟩
def MATTR.SLOT3 (i : Nat) : Fld := ⟨(0x100002000 + i * 0x10000) * 64 + 24, 3, 0⟩
def MATTR.SLOT2 (i : Nat) : Fld := ⟨(0x100002000 + i * 0x10000) * 64 + 16, 3, 0⟩
def MATTR.SLOT1 (i : Nat) : Fld := ⟨(0x100002000 + i * 0x10000) * 64 + 8, 3, 0⟩
def MATTR.SLOT0 (i : Nat) : Fld := ⟨(0x100002000 + i * 0x10000) * 64 + 0, 3, 0⟩
/-! HOME_CTL (R118). -/
def HOME_CTL.SWEEP_BUSY (i : Nat) : Fld := ⟨(0x200000 + i * 0x10000) * 64 + 16, 1, 0⟩
def HOME_CTL.BI_KEEP_TQE (i : Nat) : Fld := ⟨(0x200000 + i * 0x10000) * 64 + 8, 1, 1⟩
def HOME_CTL.RR_PTR (i : Nat) : Fld := ⟨(0x200000 + i * 0x10000) * 64 + 0, 4, 0⟩
/-! HOME_TMO (R118). -/
def HOME_TMO.LOCK (i : Nat) : Fld := ⟨(0x200008 + i * 0x10000) * 64 + 31, 1, 0⟩
def HOME_TMO.TMO_US (i : Nat) : Fld := ⟨(0x200008 + i * 0x10000) * 64 + 0, 10, 20⟩
/-! HOME_STS (R118). -/
def HOME_STS.DCOR (i : Nat) : Fld := ⟨(0x200010 + i * 0x10000) * 64 + 4, 1, 0⟩
def HOME_STS.DECC (i : Nat) : Fld := ⟨(0x200010 + i * 0x10000) * 64 + 3, 1, 0⟩
def HOME_STS.LATE (i : Nat) : Fld := ⟨(0x200010 + i * 0x10000) * 64 + 2, 1, 0⟩
def HOME_STS.STALE (i : Nat) : Fld := ⟨(0x200010 + i * 0x10000) * 64 + 1, 1, 0⟩
def HOME_STS.TO (i : Nat) : Fld := ⟨(0x200010 + i * 0x10000) * 64 + 0, 1, 0⟩
/-! HOME_TO_CNT (R118). -/
def HOME_TO_CNT.COUNT (i : Nat) : Fld := ⟨(0x200020 + i * 0x10000) * 64 + 0, 16, 0⟩
/-! HOME_STALE_CNT (R118). -/
def HOME_STALE_CNT.COUNT (i : Nat) : Fld := ⟨(0x200028 + i * 0x10000) * 64 + 0, 16, 0⟩
/-! HOME_LATE_CNT (R118). -/
def HOME_LATE_CNT.COUNT (i : Nat) : Fld := ⟨(0x200030 + i * 0x10000) * 64 + 0, 16, 0⟩
/-! HOME_DECC_CNT (R118). -/
def HOME_DECC_CNT.COUNT (i : Nat) : Fld := ⟨(0x200038 + i * 0x10000) * 64 + 0, 16, 0⟩
/-! HOME_DCOR_CNT (R118). -/
def HOME_DCOR_CNT.COUNT (i : Nat) : Fld := ⟨(0x200048 + i * 0x10000) * 64 + 0, 16, 0⟩
/-! HOME_TO_LOG (R118). -/
def HOME_TO_LOG.AGENT (i : Nat) : Fld := ⟨(0x200040 + i * 0x10000) * 64 + 60, 4, 0⟩
def HOME_TO_LOG.OPC (i : Nat) : Fld := ⟨(0x200040 + i * 0x10000) * 64 + 54, 6, 0⟩
def HOME_TO_LOG.LINE (i : Nat) : Fld := ⟨(0x200040 + i * 0x10000) * 64 + 0, 46, 0⟩
/-! HOME_OCC (R118). -/
def HOME_OCC.VALID (i : Nat) : Fld := ⟨(0x200050 + i * 0x10000) * 64 + 0, 19, 0⟩
/-! CACHE_CTL (R124). -/
def CACHE_CTL.PF_DIST (i : Nat) : Fld := ⟨(0x100002010 + i * 0x10000) * 64 + 8, 4, 4⟩
def CACHE_CTL.PF_ADJ (i : Nat) : Fld := ⟨(0x100002010 + i * 0x10000) * 64 + 2, 1, 0⟩
def CACHE_CTL.PF_L2 (i : Nat) : Fld := ⟨(0x100002010 + i * 0x10000) * 64 + 1, 1, 1⟩
def CACHE_CTL.PF_L1 (i : Nat) : Fld := ⟨(0x100002010 + i * 0x10000) * 64 + 0, 1, 1⟩
/-! HMC_CTL (R153). -/
def HMC_CTL.CXL_ALLOC : Fld := ⟨(0x400000) * 64 + 3, 1, 1⟩
def HMC_CTL.IO_ALLOC : Fld := ⟨(0x400000) * 64 + 2, 1, 1⟩
def HMC_CTL.ALLOC_WB : Fld := ⟨(0x400000) * 64 + 1, 1, 1⟩
def HMC_CTL.ALLOC_RD : Fld := ⟨(0x400000) * 64 + 0, 1, 1⟩
/-! HMC_CMD (R153). -/
def HMC_CMD.HALF : Fld := ⟨(0x400008) * 64 + 8, 2, 0⟩
def HMC_CMD.OP : Fld := ⟨(0x400008) * 64 + 0, 4, 0⟩
/-! HMC_STATE (R153). -/
def HMC_STATE.LAST_STS : Fld := ⟨(0x400010) * 64 + 24, 8, 0⟩
def HMC_STATE.BUSY : Fld := ⟨(0x400010) * 64 + 16, 1, 0⟩
def HMC_STATE.STATE_S : Fld := ⟨(0x400010) * 64 + 4, 3, 0⟩
def HMC_STATE.STATE_N : Fld := ⟨(0x400010) * 64 + 0, 3, 0⟩
/-! HMC_STS (R153). -/
def HMC_STS.LOSS : Fld := ⟨(0x400018) * 64 + 2, 1, 0⟩
def HMC_STS.UNCORR : Fld := ⟨(0x400018) * 64 + 1, 1, 0⟩
def HMC_STS.CORR : Fld := ⟨(0x400018) * 64 + 0, 1, 0⟩
/-! HMC_LOSS_CNT (R153). -/
def HMC_LOSS_CNT.COUNT : Fld := ⟨(0x400020) * 64 + 0, 16, 0⟩
/-! HMC_UNCORR_CNT (R153). -/
def HMC_UNCORR_CNT.COUNT : Fld := ⟨(0x400028) * 64 + 0, 16, 0⟩
/-! HMC_CORR_CNT (R153). -/
def HMC_CORR_CNT.COUNT : Fld := ⟨(0x400030) * 64 + 0, 16, 0⟩
/-! HMC_DIRTY (R153). -/
def HMC_DIRTY.DIRTY_S : Fld := ⟨(0x400040) * 64 + 32, 21, 0⟩
def HMC_DIRTY.DIRTY_N : Fld := ⟨(0x400040) * 64 + 0, 21, 0⟩
/-! HMC_WAYMASK (R153). -/
def HMC_WAYMASK.MASK (i : Nat) : Fld := ⟨(0x400100 + i * 0x8) * 64 + 0, 16, 65535⟩
/-! HMC_SEED (R153). -/
def HMC_SEED.SEED (i : Nat) : Fld := ⟨(0x400200 + i * 0x8) * 64 + 0, 32, 0⟩
/-! MESH_CTL (R187). -/
def MESH_CTL.RECFG_AUTO : Fld := ⟨(0x500000) * 64 + 0, 1, 1⟩
/-! MESH_EPOCH (R187). -/
def MESH_EPOCH.LAP : Fld := ⟨(0x500008) * 64 + 16, 16, 0⟩
def MESH_EPOCH.EPOCH : Fld := ⟨(0x500008) * 64 + 0, 16, 0⟩
/-! MESH_DEADRTR (R187). -/
def MESH_DEADRTR.DEAD : Fld := ⟨(0x500010) * 64 + 0, 64, 0⟩
/-! MESH_RECFG (R187). -/
def MESH_RECFG.OP : Fld := ⟨(0x500018) * 64 + 8, 4, 0⟩
def MESH_RECFG.ROUTER : Fld := ⟨(0x500018) * 64 + 0, 6, 0⟩
/-! MESH_RECFG_STS (R187). -/
def MESH_RECFG_STS.LAST_STS : Fld := ⟨(0x500020) * 64 + 24, 8, 0⟩
def MESH_RECFG_STS.BUSY : Fld := ⟨(0x500020) * 64 + 16, 1, 0⟩
def MESH_RECFG_STS.PHASE : Fld := ⟨(0x500020) * 64 + 8, 3, 0⟩
def MESH_RECFG_STS.ROUTER : Fld := ⟨(0x500020) * 64 + 0, 6, 0⟩
/-! MESH_STS (R187). -/
def MESH_STS.CLAMP : Fld := ⟨(0x500028) * 64 + 8, 1, 0⟩
def MESH_STS.GEN_BELL : Fld := ⟨(0x500028) * 64 + 7, 1, 0⟩
def MESH_STS.EPOCH_BELL : Fld := ⟨(0x500028) * 64 + 6, 1, 0⟩
def MESH_STS.UNREACH : Fld := ⟨(0x500028) * 64 + 5, 1, 0⟩
def MESH_STS.LATE : Fld := ⟨(0x500028) * 64 + 4, 1, 0⟩
def MESH_STS.RQTMO : Fld := ⟨(0x500028) * 64 + 3, 1, 0⟩
def MESH_STS.ABSW : Fld := ⟨(0x500028) * 64 + 2, 1, 0⟩
def MESH_STS.HDROP : Fld := ⟨(0x500028) * 64 + 1, 1, 0⟩
def MESH_STS.CECC : Fld := ⟨(0x500028) * 64 + 0, 1, 0⟩
/-! MESH_RQ_TMO (R187). -/
def MESH_RQ_TMO.LOCK : Fld := ⟨(0x500080) * 64 + 31, 1, 0⟩
def MESH_RQ_TMO.TMO_US : Fld := ⟨(0x500080) * 64 + 0, 10, 30⟩
/-! MESH_GEN_LAP (R187). -/
def MESH_GEN_LAP.EPOCH_LAP_SAT : Fld := ⟨(0x500088) * 64 + 17, 1, 0⟩
def MESH_GEN_LAP.LAP_SAT : Fld := ⟨(0x500088) * 64 + 16, 1, 0⟩
def MESH_GEN_LAP.LAP : Fld := ⟨(0x500088) * 64 + 0, 16, 0⟩
/-! MESH_UNREACH (R187). -/
def MESH_UNREACH.STOP : Fld := ⟨(0x500090) * 64 + 0, 64, 0⟩
/-! MESH_STOP (R187). -/
def MESH_STOP.WDROP (i : Nat) : Fld := ⟨(0x500400 + i * 0x8) * 64 + 16, 16, 0⟩
def MESH_STOP.STATE (i : Nat) : Fld := ⟨(0x500400 + i * 0x8) * 64 + 0, 3, 0⟩
/-! MESH_PCR (R187). -/
def MESH_PCR.EN (i j : Nat) : Fld := ⟨(0x501000 + i * 0x100 + j * 0x8) * 64 + 63, 1, 0⟩
def MESH_PCR.QOS (i j : Nat) : Fld := ⟨(0x501000 + i * 0x100 + j * 0x8) * 64 + 48, 2, 1⟩
def MESH_PCR.BURST (i j : Nat) : Fld := ⟨(0x501000 + i * 0x100 + j * 0x8) * 64 + 32, 12, 4095⟩
def MESH_PCR.LEVEL (i j : Nat) : Fld := ⟨(0x501000 + i * 0x100 + j * 0x8) * 64 + 16, 14, 4095⟩
def MESH_PCR.RATE (i j : Nat) : Fld := ⟨(0x501000 + i * 0x100 + j * 0x8) * 64 + 0, 12, 4095⟩
/-! STR_CTL (R217). -/
def STR_CTL.LOCK (i : Nat) : Fld := ⟨(0x600000 + i * 0x10000) * 64 + 31, 1, 0⟩
def STR_CTL.REP_THR (i : Nat) : Fld := ⟨(0x600000 + i * 0x10000) * 64 + 8, 12, 64⟩
def STR_CTL.REPAIR_AUTO (i : Nat) : Fld := ⟨(0x600000 + i * 0x10000) * 64 + 5, 1, 1⟩
def STR_CTL.FOREIGN_OK (i : Nat) : Fld := ⟨(0x600000 + i * 0x10000) * 64 + 4, 1, 0⟩
def STR_CTL.MAX_W (i : Nat) : Fld := ⟨(0x600000 + i * 0x10000) * 64 + 0, 2, 0⟩
/-! STR_CMD (R217). -/
def STR_CMD.PATTERN (i : Nat) : Fld := ⟨(0x600008 + i * 0x10000) * 64 + 8, 4, 0⟩
def STR_CMD.POINT (i : Nat) : Fld := ⟨(0x600008 + i * 0x10000) * 64 + 4, 2, 0⟩
def STR_CMD.OP (i : Nat) : Fld := ⟨(0x600008 + i * 0x10000) * 64 + 0, 4, 0⟩
/-! STR_STATE (R217). -/
def STR_STATE.LAST_STS (i : Nat) : Fld := ⟨(0x600010 + i * 0x10000) * 64 + 24, 8, 0⟩
def STR_STATE.HOLD (i : Nat) : Fld := ⟨(0x600010 + i * 0x10000) * 64 + 23, 1, 0⟩
def STR_STATE.REFUSE (i : Nat) : Fld := ⟨(0x600010 + i * 0x10000) * 64 + 20, 3, 0⟩
def STR_STATE.ATTEMPT (i : Nat) : Fld := ⟨(0x600010 + i * 0x10000) * 64 + 18, 2, 0⟩
def STR_STATE.MTAG0 (i : Nat) : Fld := ⟨(0x600010 + i * 0x10000) * 64 + 17, 1, 0⟩
def STR_STATE.DL (i : Nat) : Fld := ⟨(0x600010 + i * 0x10000) * 64 + 16, 1, 0⟩
def STR_STATE.REV (i : Nat) : Fld := ⟨(0x600010 + i * 0x10000) * 64 + 12, 4, 0⟩
def STR_STATE.SET (i : Nat) : Fld := ⟨(0x600010 + i * 0x10000) * 64 + 8, 2, 0⟩
def STR_STATE.WIDTH (i : Nat) : Fld := ⟨(0x600010 + i * 0x10000) * 64 + 6, 2, 0⟩
def STR_STATE.STATE (i : Nat) : Fld := ⟨(0x600010 + i * 0x10000) * 64 + 0, 3, 0⟩
/-! STR_HEALTH (R217). -/
def STR_HEALTH.REMOTE (i : Nat) : Fld := ⟨(0x600018 + i * 0x10000) * 64 + 16, 16, 0⟩
def STR_HEALTH.LOCAL (i : Nat) : Fld := ⟨(0x600018 + i * 0x10000) * 64 + 0, 16, 0⟩
/-! STR_STS (R217). -/
def STR_STS.SEQ_BELL (i : Nat) : Fld := ⟨(0x600050 + i * 0x10000) * 64 + 8, 1, 0⟩
def STR_STS.FAIL (i : Nat) : Fld := ⟨(0x600050 + i * 0x10000) * 64 + 7, 1, 0⟩
def STR_STS.ATTFAIL (i : Nat) : Fld := ⟨(0x600050 + i * 0x10000) * 64 + 6, 1, 0⟩
def STR_STS.WCHK (i : Nat) : Fld := ⟨(0x600050 + i * 0x10000) * 64 + 5, 1, 0⟩
def STR_STS.REPAIR (i : Nat) : Fld := ⟨(0x600050 + i * 0x10000) * 64 + 4, 1, 0⟩
def STR_STS.HDROP (i : Nat) : Fld := ⟨(0x600050 + i * 0x10000) * 64 + 3, 1, 0⟩
def STR_STS.REPLAY (i : Nat) : Fld := ⟨(0x600050 + i * 0x10000) * 64 + 2, 1, 0⟩
def STR_STS.UNCORR (i : Nat) : Fld := ⟨(0x600050 + i * 0x10000) * 64 + 1, 1, 0⟩
def STR_STS.CECC (i : Nat) : Fld := ⟨(0x600050 + i * 0x10000) * 64 + 0, 1, 0⟩
/-! STR_SEQ (R217). -/
def STR_SEQ.LAP_SAT (i : Nat) : Fld := ⟨(0x600058 + i * 0x10000) * 64 + 32, 1, 0⟩
def STR_SEQ.LAP (i : Nat) : Fld := ⟨(0x600058 + i * 0x10000) * 64 + 16, 16, 0⟩
def STR_SEQ.RX_SEQ (i : Nat) : Fld := ⟨(0x600058 + i * 0x10000) * 64 + 0, 16, 0⟩
/-! STR_TEST_SEL (R217). -/
def STR_TEST_SEL.GROUP (i : Nat) : Fld := ⟨(0x600200 + i * 0x10000) * 64 + 8, 4, 0⟩
def STR_TEST_SEL.WIRE (i : Nat) : Fld := ⟨(0x600200 + i * 0x10000) * 64 + 0, 7, 0⟩
/-! STR_TEST_CNT (R217). -/
def STR_TEST_CNT.T_MARGIN (i : Nat) : Fld := ⟨(0x600208 + i * 0x10000) * 64 + 24, 8, 0⟩
def STR_TEST_CNT.V_MARGIN (i : Nat) : Fld := ⟨(0x600208 + i * 0x10000) * 64 + 16, 8, 0⟩
def STR_TEST_CNT.ERRORS (i : Nat) : Fld := ⟨(0x600208 + i * 0x10000) * 64 + 0, 16, 0⟩
/-! STR_CAP_LOCAL_LO (R217). -/
def STR_CAP_LOCAL_LO.CAP (i : Nat) : Fld := ⟨(0x600020 + i * 0x10000) * 64 + 0, 64, 4398046445568⟩
/-! STR_CAP_LOCAL_HI (R217). -/
def STR_CAP_LOCAL_HI.CAP (i : Nat) : Fld := ⟨(0x600028 + i * 0x10000) * 64 + 0, 64, 6709363473877206016⟩
/-! STR_CAP_REMOTE_LO (R217). -/
def STR_CAP_REMOTE_LO.CAP (i : Nat) : Fld := ⟨(0x600030 + i * 0x10000) * 64 + 0, 64, 0⟩
/-! STR_CAP_REMOTE_HI (R217). -/
def STR_CAP_REMOTE_HI.CAP (i : Nat) : Fld := ⟨(0x600038 + i * 0x10000) * 64 + 0, 64, 0⟩
/-! STR_CAP_RES_LO (R217). -/
def STR_CAP_RES_LO.CAP (i : Nat) : Fld := ⟨(0x600040 + i * 0x10000) * 64 + 0, 64, 0⟩
/-! STR_CAP_RES_HI (R217). -/
def STR_CAP_RES_HI.CAP (i : Nat) : Fld := ⟨(0x600048 + i * 0x10000) * 64 + 0, 64, 0⟩
/-! STR_REPAIR (R217). -/
def STR_REPAIR.HEALTHY (i j : Nat) : Fld := ⟨(0x600100 + i * 0x10000 + j * 0x8) * 64 + 23, 1, 0⟩
def STR_REPAIR.CLK_LOCK (i j : Nat) : Fld := ⟨(0x600100 + i * 0x10000 + j * 0x8) * 64 + 22, 1, 0⟩
def STR_REPAIR.REP1 (i j : Nat) : Fld := ⟨(0x600100 + i * 0x10000 + j * 0x8) * 64 + 8, 7, 127⟩
def STR_REPAIR.REP0 (i j : Nat) : Fld := ⟨(0x600100 + i * 0x10000 + j * 0x8) * 64 + 0, 7, 127⟩
/-! MCH_CTL (R253). -/
def MCH_CTL.SCRUB_H (i : Nat) : Fld := ⟨(0x700000 + i * 0x10000) * 64 + 0, 8, 24⟩
/-! HBC_CTL (R253). -/
def HBC_CTL.SCRUB_H (i : Nat) : Fld := ⟨(0x900000 + i * 0x10000) * 64 + 0, 8, 24⟩
/-! MCH_MAP (R253). -/
def MCH_MAP.LOCK (i : Nat) : Fld := ⟨(0x700008 + i * 0x10000) * 64 + 31, 1, 0⟩
def MCH_MAP.ROWW (i : Nat) : Fld := ⟨(0x700008 + i * 0x10000) * 64 + 20, 2, 0⟩
def MCH_MAP.COLW (i : Nat) : Fld := ⟨(0x700008 + i * 0x10000) * 64 + 19, 1, 0⟩
def MCH_MAP.RKW (i : Nat) : Fld := ⟨(0x700008 + i * 0x10000) * 64 + 17, 2, 0⟩
def MCH_MAP.DEVW (i : Nat) : Fld := ⟨(0x700008 + i * 0x10000) * 64 + 16, 1, 0⟩
def MCH_MAP.DPC (i : Nat) : Fld := ⟨(0x700008 + i * 0x10000) * 64 + 15, 1, 0⟩
def MCH_MAP.RATE (i : Nat) : Fld := ⟨(0x700008 + i * 0x10000) * 64 + 12, 3, 0⟩
def MCH_MAP.CHW (i : Nat) : Fld := ⟨(0x700008 + i * 0x10000) * 64 + 8, 2, 0⟩
def MCH_MAP.CHBASE (i : Nat) : Fld := ⟨(0x700008 + i * 0x10000) * 64 + 4, 4, 0⟩
def MCH_MAP.HASH (i : Nat) : Fld := ⟨(0x700008 + i * 0x10000) * 64 + 3, 1, 0⟩
def MCH_MAP.ORDER (i : Nat) : Fld := ⟨(0x700008 + i * 0x10000) * 64 + 0, 2, 0⟩
/-! HBC_MAP (R252). -/
def HBC_MAP.LOCK (i : Nat) : Fld := ⟨(0x900008 + i * 0x10000) * 64 + 31, 1, 0⟩
def HBC_MAP.HASH (i : Nat) : Fld := ⟨(0x900008 + i * 0x10000) * 64 + 3, 1, 0⟩
/-! MCH_SCHED (R253). -/
def MCH_SCHED.WQ_HI (i : Nat) : Fld := ⟨(0x700010 + i * 0x10000) * 64 + 32, 9, 192⟩
def MCH_SCHED.WQ_LO (i : Nat) : Fld := ⟨(0x700010 + i * 0x10000) * 64 + 16, 9, 64⟩
def MCH_SCHED.WR_AGE (i : Nat) : Fld := ⟨(0x700010 + i * 0x10000) * 64 + 8, 8, 5⟩
def MCH_SCHED.RD_AGE (i : Nat) : Fld := ⟨(0x700010 + i * 0x10000) * 64 + 0, 8, 20⟩
/-! HBC_SCHED (R253). -/
def HBC_SCHED.WQ_HI (i : Nat) : Fld := ⟨(0x900010 + i * 0x10000) * 64 + 32, 9, 192⟩
def HBC_SCHED.WQ_LO (i : Nat) : Fld := ⟨(0x900010 + i * 0x10000) * 64 + 16, 9, 64⟩
def HBC_SCHED.WR_AGE (i : Nat) : Fld := ⟨(0x900010 + i * 0x10000) * 64 + 8, 8, 5⟩
def HBC_SCHED.RD_AGE (i : Nat) : Fld := ⟨(0x900010 + i * 0x10000) * 64 + 0, 8, 20⟩
/-! MCH_RFSH (R253). -/
def MCH_RFSH.RD_EN (i : Nat) : Fld := ⟨(0x700018 + i * 0x10000) * 64 + 31, 1, 1⟩
def MCH_RFSH.RD_THR (i : Nat) : Fld := ⟨(0x700018 + i * 0x10000) * 64 + 16, 12, 2000⟩
def MCH_RFSH.HOT (i : Nat) : Fld := ⟨(0x700018 + i * 0x10000) * 64 + 0, 1, 0⟩
/-! HBC_RFSH (R253). -/
def HBC_RFSH.RD_EN (i : Nat) : Fld := ⟨(0x900018 + i * 0x10000) * 64 + 31, 1, 1⟩
def HBC_RFSH.RD_THR (i : Nat) : Fld := ⟨(0x900018 + i * 0x10000) * 64 + 16, 12, 2000⟩
def HBC_RFSH.HOT (i : Nat) : Fld := ⟨(0x900018 + i * 0x10000) * 64 + 0, 1, 0⟩
/-! MCH_STS (R253). -/
def MCH_STS.WDROP (i : Nat) : Fld := ⟨(0x700020 + i * 0x10000) * 64 + 7, 1, 0⟩
def MCH_STS.FREEZE (i : Nat) : Fld := ⟨(0x700020 + i * 0x10000) * 64 + 6, 1, 0⟩
def MCH_STS.PSNRD (i : Nat) : Fld := ⟨(0x700020 + i * 0x10000) * 64 + 5, 1, 0⟩
def MCH_STS.RDIST (i : Nat) : Fld := ⟨(0x700020 + i * 0x10000) * 64 + 4, 1, 0⟩
def MCH_STS.WCRC (i : Nat) : Fld := ⟨(0x700020 + i * 0x10000) * 64 + 3, 1, 0⟩
def MCH_STS.CAPAR (i : Nat) : Fld := ⟨(0x700020 + i * 0x10000) * 64 + 2, 1, 0⟩
def MCH_STS.UECC (i : Nat) : Fld := ⟨(0x700020 + i * 0x10000) * 64 + 1, 1, 0⟩
def MCH_STS.CECC (i : Nat) : Fld := ⟨(0x700020 + i * 0x10000) * 64 + 0, 1, 0⟩
/-! HBC_STS (R253). -/
def HBC_STS.WDROP (i : Nat) : Fld := ⟨(0x900020 + i * 0x10000) * 64 + 7, 1, 0⟩
def HBC_STS.FREEZE (i : Nat) : Fld := ⟨(0x900020 + i * 0x10000) * 64 + 6, 1, 0⟩
def HBC_STS.PSNRD (i : Nat) : Fld := ⟨(0x900020 + i * 0x10000) * 64 + 5, 1, 0⟩
def HBC_STS.RDIST (i : Nat) : Fld := ⟨(0x900020 + i * 0x10000) * 64 + 4, 1, 0⟩
def HBC_STS.WCRC (i : Nat) : Fld := ⟨(0x900020 + i * 0x10000) * 64 + 3, 1, 0⟩
def HBC_STS.CAPAR (i : Nat) : Fld := ⟨(0x900020 + i * 0x10000) * 64 + 2, 1, 0⟩
def HBC_STS.UECC (i : Nat) : Fld := ⟨(0x900020 + i * 0x10000) * 64 + 1, 1, 0⟩
def HBC_STS.CECC (i : Nat) : Fld := ⟨(0x900020 + i * 0x10000) * 64 + 0, 1, 0⟩
/-! MCH_FRZ (R253). -/
def MCH_FRZ.LAST_STS (i : Nat) : Fld := ⟨(0x700028 + i * 0x10000) * 64 + 24, 8, 0⟩
def MCH_FRZ.DROP_OVF (i : Nat) : Fld := ⟨(0x700028 + i * 0x10000) * 64 + 23, 1, 0⟩
def MCH_FRZ.BUSY (i : Nat) : Fld := ⟨(0x700028 + i * 0x10000) * 64 + 22, 1, 0⟩
def MCH_FRZ.DROPS (i : Nat) : Fld := ⟨(0x700028 + i * 0x10000) * 64 + 8, 13, 0⟩
def MCH_FRZ.CAUSE (i : Nat) : Fld := ⟨(0x700028 + i * 0x10000) * 64 + 4, 2, 0⟩
def MCH_FRZ.STATE (i : Nat) : Fld := ⟨(0x700028 + i * 0x10000) * 64 + 0, 3, 0⟩
/-! HBC_FRZ (R252). -/
def HBC_FRZ.CHANS (i : Nat) : Fld := ⟨(0x900028 + i * 0x10000) * 64 + 48, 16, 0⟩
def HBC_FRZ.LAST_STS (i : Nat) : Fld := ⟨(0x900028 + i * 0x10000) * 64 + 24, 8, 0⟩
def HBC_FRZ.DROP_OVF (i : Nat) : Fld := ⟨(0x900028 + i * 0x10000) * 64 + 23, 1, 0⟩
def HBC_FRZ.BUSY (i : Nat) : Fld := ⟨(0x900028 + i * 0x10000) * 64 + 22, 1, 0⟩
def HBC_FRZ.DROPS (i : Nat) : Fld := ⟨(0x900028 + i * 0x10000) * 64 + 8, 13, 0⟩
def HBC_FRZ.CAUSE (i : Nat) : Fld := ⟨(0x900028 + i * 0x10000) * 64 + 4, 2, 0⟩
def HBC_FRZ.STATE (i : Nat) : Fld := ⟨(0x900028 + i * 0x10000) * 64 + 0, 3, 0⟩
/-! MCH_CMD (R253). -/
def MCH_CMD.KIND (i : Nat) : Fld := ⟨(0x700030 + i * 0x10000) * 64 + 32, 2, 0⟩
def MCH_CMD.ROW (i : Nat) : Fld := ⟨(0x700030 + i * 0x10000) * 64 + 13, 17, 0⟩
def MCH_CMD.BA (i : Nat) : Fld := ⟨(0x700030 + i * 0x10000) * 64 + 11, 2, 0⟩
def MCH_CMD.BG (i : Nat) : Fld := ⟨(0x700030 + i * 0x10000) * 64 + 8, 3, 0⟩
def MCH_CMD.RK (i : Nat) : Fld := ⟨(0x700030 + i * 0x10000) * 64 + 5, 3, 0⟩
def MCH_CMD.SC (i : Nat) : Fld := ⟨(0x700030 + i * 0x10000) * 64 + 4, 1, 0⟩
def MCH_CMD.OP (i : Nat) : Fld := ⟨(0x700030 + i * 0x10000) * 64 + 0, 4, 0⟩
/-! HBC_CMD (R252). -/
def HBC_CMD.CHAN (i : Nat) : Fld := ⟨(0x900030 + i * 0x10000) * 64 + 60, 4, 0⟩
def HBC_CMD.KIND (i : Nat) : Fld := ⟨(0x900030 + i * 0x10000) * 64 + 32, 2, 0⟩
def HBC_CMD.ROW (i : Nat) : Fld := ⟨(0x900030 + i * 0x10000) * 64 + 13, 17, 0⟩
def HBC_CMD.BA (i : Nat) : Fld := ⟨(0x900030 + i * 0x10000) * 64 + 11, 2, 0⟩
def HBC_CMD.BG (i : Nat) : Fld := ⟨(0x900030 + i * 0x10000) * 64 + 8, 3, 0⟩
def HBC_CMD.RK (i : Nat) : Fld := ⟨(0x900030 + i * 0x10000) * 64 + 5, 3, 0⟩
def HBC_CMD.SC (i : Nat) : Fld := ⟨(0x900030 + i * 0x10000) * 64 + 4, 1, 0⟩
def HBC_CMD.OP (i : Nat) : Fld := ⟨(0x900030 + i * 0x10000) * 64 + 0, 4, 0⟩
/-! MCH_CAP (R253). -/
def MCH_CAP.DCMD (i : Nat) : Fld := ⟨(0x700040 + i * 0x10000) * 64 + 60, 4, 0⟩
def MCH_CAP.SC (i : Nat) : Fld := ⟨(0x700040 + i * 0x10000) * 64 + 55, 1, 0⟩
def MCH_CAP.RK (i : Nat) : Fld := ⟨(0x700040 + i * 0x10000) * 64 + 52, 3, 0⟩
def MCH_CAP.BG (i : Nat) : Fld := ⟨(0x700040 + i * 0x10000) * 64 + 49, 3, 0⟩
def MCH_CAP.BA (i : Nat) : Fld := ⟨(0x700040 + i * 0x10000) * 64 + 47, 2, 0⟩
def MCH_CAP.ROW (i : Nat) : Fld := ⟨(0x700040 + i * 0x10000) * 64 + 30, 17, 0⟩
def MCH_CAP.COL (i : Nat) : Fld := ⟨(0x700040 + i * 0x10000) * 64 + 23, 7, 0⟩
/-! HBC_CAP (R252). -/
def HBC_CAP.DCMD (i : Nat) : Fld := ⟨(0x900040 + i * 0x10000) * 64 + 60, 4, 0⟩
def HBC_CAP.CH (i : Nat) : Fld := ⟨(0x900040 + i * 0x10000) * 64 + 56, 4, 0⟩
def HBC_CAP.SC (i : Nat) : Fld := ⟨(0x900040 + i * 0x10000) * 64 + 55, 1, 0⟩
def HBC_CAP.RK (i : Nat) : Fld := ⟨(0x900040 + i * 0x10000) * 64 + 52, 3, 0⟩
def HBC_CAP.BG (i : Nat) : Fld := ⟨(0x900040 + i * 0x10000) * 64 + 49, 3, 0⟩
def HBC_CAP.BA (i : Nat) : Fld := ⟨(0x900040 + i * 0x10000) * 64 + 47, 2, 0⟩
def HBC_CAP.ROW (i : Nat) : Fld := ⟨(0x900040 + i * 0x10000) * 64 + 30, 17, 0⟩
def HBC_CAP.COL (i : Nat) : Fld := ⟨(0x900040 + i * 0x10000) * 64 + 23, 7, 0⟩
/-! MCH_CAP_PA (R253). -/
def MCH_CAP_PA.ENC (i : Nat) : Fld := ⟨(0x700048 + i * 0x10000) * 64 + 48, 10, 0⟩
def MCH_CAP_PA.LINE (i : Nat) : Fld := ⟨(0x700048 + i * 0x10000) * 64 + 0, 46, 0⟩
/-! HBC_CAP_PA (R253). -/
def HBC_CAP_PA.ENC (i : Nat) : Fld := ⟨(0x900048 + i * 0x10000) * 64 + 48, 10, 0⟩
def HBC_CAP_PA.LINE (i : Nat) : Fld := ⟨(0x900048 + i * 0x10000) * 64 + 0, 46, 0⟩
/-! MCH_CAP_SYN_LO (R253). -/
def MCH_CAP_SYN_LO.SYN (i : Nat) : Fld := ⟨(0x700050 + i * 0x10000) * 64 + 0, 64, 0⟩
/-! MCH_CAP_SYN_HI (R253). -/
def MCH_CAP_SYN_HI.SYN (i : Nat) : Fld := ⟨(0x700058 + i * 0x10000) * 64 + 0, 64, 0⟩
/-! MCH_CAP_TIME (R253). -/
def MCH_CAP_TIME.TIME (i : Nat) : Fld := ⟨(0x700060 + i * 0x10000) * 64 + 0, 64, 0⟩
/-! MCH_CAP_QSEL (R253). -/
def MCH_CAP_QSEL.LIST (i : Nat) : Fld := ⟨(0x700068 + i * 0x10000) * 64 + 14, 2, 0⟩
def MCH_CAP_QSEL.ENTRY (i : Nat) : Fld := ⟨(0x700068 + i * 0x10000) * 64 + 0, 13, 0⟩
/-! MCH_CAP_QDATA (R253). -/
def MCH_CAP_QDATA.V (i : Nat) : Fld := ⟨(0x700070 + i * 0x10000) * 64 + 63, 1, 0⟩
def MCH_CAP_QDATA.QOS (i : Nat) : Fld := ⟨(0x700070 + i * 0x10000) * 64 + 58, 2, 0⟩
def MCH_CAP_QDATA.ENC (i : Nat) : Fld := ⟨(0x700070 + i * 0x10000) * 64 + 48, 10, 0⟩
def MCH_CAP_QDATA.LINE (i : Nat) : Fld := ⟨(0x700070 + i * 0x10000) * 64 + 0, 46, 0⟩
/-! HBC_CAP_SYN_LO (R253). -/
def HBC_CAP_SYN_LO.SYN (i : Nat) : Fld := ⟨(0x900050 + i * 0x10000) * 64 + 0, 64, 0⟩
/-! HBC_CAP_SYN_HI (R253). -/
def HBC_CAP_SYN_HI.SYN (i : Nat) : Fld := ⟨(0x900058 + i * 0x10000) * 64 + 0, 64, 0⟩
/-! HBC_CAP_TIME (R253). -/
def HBC_CAP_TIME.TIME (i : Nat) : Fld := ⟨(0x900060 + i * 0x10000) * 64 + 0, 64, 0⟩
/-! HBC_CAP_QSEL (R253). -/
def HBC_CAP_QSEL.LIST (i : Nat) : Fld := ⟨(0x900068 + i * 0x10000) * 64 + 14, 2, 0⟩
def HBC_CAP_QSEL.ENTRY (i : Nat) : Fld := ⟨(0x900068 + i * 0x10000) * 64 + 0, 13, 0⟩
/-! HBC_CAP_QDATA (R253). -/
def HBC_CAP_QDATA.V (i : Nat) : Fld := ⟨(0x900070 + i * 0x10000) * 64 + 63, 1, 0⟩
def HBC_CAP_QDATA.QOS (i : Nat) : Fld := ⟨(0x900070 + i * 0x10000) * 64 + 58, 2, 0⟩
def HBC_CAP_QDATA.ENC (i : Nat) : Fld := ⟨(0x900070 + i * 0x10000) * 64 + 48, 10, 0⟩
def HBC_CAP_QDATA.LINE (i : Nat) : Fld := ⟨(0x900070 + i * 0x10000) * 64 + 0, 46, 0⟩
/-! XCP_CTL (R277). -/
def XCP_CTL.LOCK : Fld := ⟨(0x800000) * 64 + 31, 1, 0⟩
def XCP_CTL.DWAYS : Fld := ⟨(0x800000) * 64 + 8, 16, 32768⟩
def XCP_CTL.RS_SHARE : Fld := ⟨(0x800000) * 64 + 4, 4, 4⟩
def XCP_CTL.MODE : Fld := ⟨(0x800000) * 64 + 0, 2, 0⟩
/-! XCP_CMD (R277). -/
def XCP_CMD.GROUP : Fld := ⟨(0x800008) * 64 + 8, 2, 0⟩
def XCP_CMD.OP : Fld := ⟨(0x800008) * 64 + 0, 4, 0⟩
/-! XCP_STATE (R277). -/
def XCP_STATE.LAST_STS : Fld := ⟨(0x800010) * 64 + 56, 8, 0⟩
def XCP_STATE.BUSY : Fld := ⟨(0x800010) * 64 + 16, 1, 0⟩
def XCP_STATE.LOST_CH1 : Fld := ⟨(0x800010) * 64 + 12, 4, 0⟩
def XCP_STATE.STATE1 : Fld := ⟨(0x800010) * 64 + 8, 3, 0⟩
def XCP_STATE.LOST_CH0 : Fld := ⟨(0x800010) * 64 + 4, 4, 0⟩
def XCP_STATE.STATE0 : Fld := ⟨(0x800010) * 64 + 0, 3, 0⟩
/-! XCP_STS (R277). -/
def XCP_STS.RSDONE : Fld := ⟨(0x800030) * 64 + 5, 1, 0⟩
def XCP_STS.DUNCORR : Fld := ⟨(0x800030) * 64 + 4, 1, 0⟩
def XCP_STS.DOUBLE : Fld := ⟨(0x800030) * 64 + 3, 1, 0⟩
def XCP_STS.DDROP : Fld := ⟨(0x800030) * 64 + 2, 1, 0⟩
def XCP_STS.DWRITE : Fld := ⟨(0x800030) * 64 + 1, 1, 0⟩
def XCP_STS.RECON : Fld := ⟨(0x800030) * 64 + 0, 1, 0⟩
/-! XCP_LAT (R277). -/
def XCP_LAT.MAX_NS : Fld := ⟨(0x800040) * 64 + 0, 32, 0⟩
/-! XCP_RS (R277). -/
def XCP_RS.REMAIN (i : Nat) : Fld := ⟨(0x800020 + i * 0x8) * 64 + 32, 22, 0⟩
def XCP_RS.CURSOR (i : Nat) : Fld := ⟨(0x800020 + i * 0x8) * 64 + 0, 21, 0⟩
/-! TT_CTL (R308). -/
def TT_CTL.ASID (i : Nat) : Fld := ⟨(0x100001000 + i * 0x10000) * 64 + 32, 16, 0⟩
def TT_CTL.EN (i : Nat) : Fld := ⟨(0x100001000 + i * 0x10000) * 64 + 0, 1, 0⟩
/-! VM_CTL (R308). -/
def VM_CTL.PCLS (i : Nat) : Fld := ⟨(0x100001100 + i * 0x10000) * 64 + 48, 4, 0⟩
def VM_CTL.MTAG (i : Nat) : Fld := ⟨(0x100001100 + i * 0x10000) * 64 + 32, 16, 0⟩
def VM_CTL.MTAG_SEL (i : Nat) : Fld := ⟨(0x100001100 + i * 0x10000) * 64 + 17, 1, 0⟩
def VM_CTL.S2EN (i : Nat) : Fld := ⟨(0x100001100 + i * 0x10000) * 64 + 16, 1, 0⟩
def VM_CTL.VMID (i : Nat) : Fld := ⟨(0x100001100 + i * 0x10000) * 64 + 0, 16, 0⟩
/-! VM_DESC (R308). -/
def VM_DESC.ADDR (i : Nat) : Fld := ⟨(0x100001108 + i * 0x10000) * 64 + 10, 42, 0⟩
/-! JR_STS (R308). -/
def JR_STS.LOADERR (i : Nat) : Fld := ⟨(0x100001110 + i * 0x10000) * 64 + 32, 1, 0⟩
def JR_STS.BAD (i : Nat) : Fld := ⟨(0x100001110 + i * 0x10000) * 64 + 16, 16, 0⟩
def JR_STS.LOADED (i : Nat) : Fld := ⟨(0x100001110 + i * 0x10000) * 64 + 0, 16, 0⟩
/-! TR_STS (R308). -/
def TR_STS.LOCKS (i : Nat) : Fld := ⟨(0x100001060 + i * 0x10000) * 64 + 8, 4, 0⟩
def TR_STS.LOCK_LOST (i : Nat) : Fld := ⟨(0x100001060 + i * 0x10000) * 64 + 0, 1, 0⟩
/-! TT_ROOT0 (R308). -/
def TT_ROOT0.BASE (i : Nat) : Fld := ⟨(0x100001008 + i * 0x10000) * 64 + 12, 40, 0⟩
/-! TT_ROOT1 (R308). -/
def TT_ROOT1.BASE (i : Nat) : Fld := ⟨(0x100001010 + i * 0x10000) * 64 + 12, 40, 0⟩
/-! TR_FSYN_S (R308). -/
def TR_FSYN_S.STS (i : Nat) : Fld := ⟨(0x100001040 + i * 0x10000) * 64 + 16, 8, 0⟩
def TR_FSYN_S.JR (i : Nat) : Fld := ⟨(0x100001040 + i * 0x10000) * 64 + 12, 4, 0⟩
def TR_FSYN_S.JRV (i : Nat) : Fld := ⟨(0x100001040 + i * 0x10000) * 64 + 11, 1, 0⟩
def TR_FSYN_S.WALK (i : Nat) : Fld := ⟨(0x100001040 + i * 0x10000) * 64 + 10, 1, 0⟩
def TR_FSYN_S.LEVEL (i : Nat) : Fld := ⟨(0x100001040 + i * 0x10000) * 64 + 8, 2, 0⟩
def TR_FSYN_S.ACC (i : Nat) : Fld := ⟨(0x100001040 + i * 0x10000) * 64 + 6, 2, 0⟩
def TR_FSYN_S.CAUSE (i : Nat) : Fld := ⟨(0x100001040 + i * 0x10000) * 64 + 0, 6, 0⟩
/-! TR_FVA_S (R308). -/
def TR_FVA_S.VA (i : Nat) : Fld := ⟨(0x100001048 + i * 0x10000) * 64 + 0, 64, 0⟩
/-! TR_FADDR_S (R308). -/
def TR_FADDR_S.ADDR (i : Nat) : Fld := ⟨(0x100001050 + i * 0x10000) * 64 + 0, 64, 0⟩
/-! TR_FSYN_H (R308). -/
def TR_FSYN_H.STS (i : Nat) : Fld := ⟨(0x100001140 + i * 0x10000) * 64 + 16, 8, 0⟩
def TR_FSYN_H.JR (i : Nat) : Fld := ⟨(0x100001140 + i * 0x10000) * 64 + 12, 4, 0⟩
def TR_FSYN_H.JRV (i : Nat) : Fld := ⟨(0x100001140 + i * 0x10000) * 64 + 11, 1, 0⟩
def TR_FSYN_H.WALK (i : Nat) : Fld := ⟨(0x100001140 + i * 0x10000) * 64 + 10, 1, 0⟩
def TR_FSYN_H.LEVEL (i : Nat) : Fld := ⟨(0x100001140 + i * 0x10000) * 64 + 8, 2, 0⟩
def TR_FSYN_H.ACC (i : Nat) : Fld := ⟨(0x100001140 + i * 0x10000) * 64 + 6, 2, 0⟩
def TR_FSYN_H.CAUSE (i : Nat) : Fld := ⟨(0x100001140 + i * 0x10000) * 64 + 0, 6, 0⟩
/-! TR_FVA_H (R308). -/
def TR_FVA_H.VA (i : Nat) : Fld := ⟨(0x100001148 + i * 0x10000) * 64 + 0, 64, 0⟩
/-! TR_FADDR_H (R308). -/
def TR_FADDR_H.ADDR (i : Nat) : Fld := ⟨(0x100001150 + i * 0x10000) * 64 + 0, 64, 0⟩
/-! TR_FSYN_W (R308). -/
def TR_FSYN_W.STS (i : Nat) : Fld := ⟨(0x100001240 + i * 0x10000) * 64 + 16, 8, 0⟩
def TR_FSYN_W.JR (i : Nat) : Fld := ⟨(0x100001240 + i * 0x10000) * 64 + 12, 4, 0⟩
def TR_FSYN_W.JRV (i : Nat) : Fld := ⟨(0x100001240 + i * 0x10000) * 64 + 11, 1, 0⟩
def TR_FSYN_W.WALK (i : Nat) : Fld := ⟨(0x100001240 + i * 0x10000) * 64 + 10, 1, 0⟩
def TR_FSYN_W.LEVEL (i : Nat) : Fld := ⟨(0x100001240 + i * 0x10000) * 64 + 8, 2, 0⟩
def TR_FSYN_W.ACC (i : Nat) : Fld := ⟨(0x100001240 + i * 0x10000) * 64 + 6, 2, 0⟩
def TR_FSYN_W.CAUSE (i : Nat) : Fld := ⟨(0x100001240 + i * 0x10000) * 64 + 0, 6, 0⟩
/-! TR_FVA_W (R308). -/
def TR_FVA_W.VA (i : Nat) : Fld := ⟨(0x100001248 + i * 0x10000) * 64 + 0, 64, 0⟩
/-! TR_FADDR_W (R308). -/
def TR_FADDR_W.ADDR (i : Nat) : Fld := ⟨(0x100001250 + i * 0x10000) * 64 + 0, 64, 0⟩
/-! TR_LOCK_LOST_CNT (R308). -/
def TR_LOCK_LOST_CNT.COUNT (i : Nat) : Fld := ⟨(0x100001068 + i * 0x10000) * 64 + 0, 16, 0⟩
/-! WCTL (R311). -/
def WCTL.RET_LVL (i : Nat) : Fld := ⟨(0x100006000 + i * 0x10000) * 64 + 2, 2, 0⟩
def WCTL.RET_WORLD (i : Nat) : Fld := ⟨(0x100006000 + i * 0x10000) * 64 + 1, 1, 0⟩
def WCTL.WORLD (i : Nat) : Fld := ⟨(0x100006000 + i * 0x10000) * 64 + 0, 1, 1⟩
/-! OWN_CTL (R337). -/
def OWN_CTL.LOCK : Fld := ⟨(0xD01000) * 64 + 31, 1, 0⟩
def OWN_CTL.EN : Fld := ⟨(0xD01000) * 64 + 0, 1, 0⟩
/-! OWN_TBASE (R337). -/
def OWN_TBASE.BASE : Fld := ⟨(0xD01008) * 64 + 21, 31, 0⟩
/-! OWN_SEG (R337). -/
def OWN_SEG.V (i : Nat) : Fld := ⟨(0xD01040 + i * 0x8) * 64 + 63, 1, 0⟩
def OWN_SEG.LEN (i : Nat) : Fld := ⟨(0xD01040 + i * 0x8) * 64 + 31, 26, 0⟩
def OWN_SEG.BASE (i : Nat) : Fld := ⟨(0xD01040 + i * 0x8) * 64 + 0, 31, 0⟩
/-! OWN_STS (R337). -/
def OWN_STS.IDE : Fld := ⟨(0xD010C0) * 64 + 4, 1, 0⟩
def OWN_STS.MOT_BAD : Fld := ⟨(0xD010C0) * 64 + 3, 1, 0⟩
def OWN_STS.REFUSE_DEV : Fld := ⟨(0xD010C0) * 64 + 2, 1, 0⟩
def OWN_STS.REFUSE_WR : Fld := ⟨(0xD010C0) * 64 + 1, 1, 0⟩
def OWN_STS.REFUSE_RD : Fld := ⟨(0xD010C0) * 64 + 0, 1, 0⟩
/-! OWN_LOG (R337). -/
def OWN_LOG.SRC : Fld := ⟨(0xD010C8) * 64 + 58, 6, 0⟩
def OWN_LOG.WR : Fld := ⟨(0xD010C8) * 64 + 57, 1, 0⟩
def OWN_LOG.WORLD : Fld := ⟨(0xD010C8) * 64 + 56, 1, 0⟩
def OWN_LOG.ENC : Fld := ⟨(0xD010C8) * 64 + 46, 10, 0⟩
def OWN_LOG.LINE : Fld := ⟨(0xD010C8) * 64 + 0, 46, 0⟩
/-! SEP_CLAIMS (R337). -/
def SEP_CLAIMS.CLAIMED : Fld := ⟨(0xD01200) * 64 + 0, 22, 0⟩
/-! DBG_POLICY (R337). -/
def DBG_POLICY.LOCK : Fld := ⟨(0x1100000) * 64 + 31, 1, 0⟩
def DBG_POLICY.INV_S : Fld := ⟨(0x1100000) * 64 + 3, 1, 0⟩
def DBG_POLICY.NI_S : Fld := ⟨(0x1100000) * 64 + 2, 1, 0⟩
def DBG_POLICY.INV_N : Fld := ⟨(0x1100000) * 64 + 1, 1, 0⟩
def DBG_POLICY.NI_N : Fld := ⟨(0x1100000) * 64 + 0, 1, 0⟩
/-! TQE_ID (R363). -/
def TQE_ID.VENDOR : Fld := ⟨(0x10000000000) * 64 + 48, 16, 23836⟩
def TQE_ID.DEVICE : Fld := ⟨(0x10000000000) * 64 + 32, 16, 32272⟩
def TQE_ID.STEPPING : Fld := ⟨(0x10000000000) * 64 + 24, 8, 177⟩
/-! TQE_CTL (R363). -/
def TQE_CTL.LOCK : Fld := ⟨(0x10000000008) * 64 + 31, 1, 0⟩
def TQE_CTL.EP_FWD : Fld := ⟨(0x10000000008) * 64 + 8, 1, 1⟩
def TQE_CTL.BAR4_LOG2 : Fld := ⟨(0x10000000008) * 64 + 0, 6, 0⟩
/-! TQE_STS (R363). -/
def TQE_STS.FGEN_BELL : Fld := ⟨(0x10000000010) * 64 + 8, 1, 0⟩
def TQE_STS.CPLTMO : Fld := ⟨(0x10000000010) * 64 + 7, 1, 0⟩
def TQE_STS.STALECPL : Fld := ⟨(0x10000000010) * 64 + 6, 1, 0⟩
def TQE_STS.BMEDISC : Fld := ⟨(0x10000000010) * 64 + 5, 1, 0⟩
def TQE_STS.PSNRX : Fld := ⟨(0x10000000010) * 64 + 4, 1, 0⟩
def TQE_STS.PEERUR : Fld := ⟨(0x10000000010) * 64 + 3, 1, 0⟩
def TQE_STS.PEERDROP : Fld := ⟨(0x10000000010) * 64 + 2, 1, 0⟩
def TQE_STS.WINMISS : Fld := ⟨(0x10000000010) * 64 + 1, 1, 0⟩
def TQE_STS.MSIADDR : Fld := ⟨(0x10000000010) * 64 + 0, 1, 0⟩
/-! TQE_WIN_FENCE (R363). -/
def TQE_WIN_FENCE.DONE : Fld := ⟨(0x10000000020) * 64 + 31, 1, 1⟩
def TQE_WIN_FENCE.PENDING : Fld := ⟨(0x10000000020) * 64 + 0, 16, 0⟩
/-! TQE_WIN_LOG (R363). -/
def TQE_WIN_LOG.ID : Fld := ⟨(0x10000000028) * 64 + 48, 16, 0⟩
def TQE_WIN_LOG.PEER : Fld := ⟨(0x10000000028) * 64 + 47, 1, 0⟩
def TQE_WIN_LOG.WR : Fld := ⟨(0x10000000028) * 64 + 46, 1, 0⟩
def TQE_WIN_LOG.REASON : Fld := ⟨(0x10000000028) * 64 + 44, 2, 0⟩
def TQE_WIN_LOG.ADDR : Fld := ⟨(0x10000000028) * 64 + 0, 44, 0⟩
/-! TQE_FGEN_LAP (R363). -/
def TQE_FGEN_LAP.LAP_SAT : Fld := ⟨(0x10000000030) * 64 + 16, 1, 0⟩
def TQE_FGEN_LAP.LAP : Fld := ⟨(0x10000000030) * 64 + 0, 16, 0⟩
/-! TQE_INTX (R363). -/
def TQE_INTX.EVENT : Fld := ⟨(0x10000000038) * 64 + 0, 1, 0⟩
/-! TQE_WIN (R363). -/
def TQE_WIN.OBASE (i : Nat) : Fld := ⟨(0x10000100000 + i * 0x10) * 64 + 88, 40, 0⟩
def TQE_WIN.IBASE (i : Nat) : Fld := ⟨(0x10000100000 + i * 0x10) * 64 + 48, 40, 0⟩
def TQE_WIN.SIZE (i : Nat) : Fld := ⟨(0x10000100000 + i * 0x10) * 64 + 28, 20, 0⟩
def TQE_WIN.ID (i : Nat) : Fld := ⟨(0x10000100000 + i * 0x10) * 64 + 12, 16, 0⟩
def TQE_WIN.GRAN (i : Nat) : Fld := ⟨(0x10000100000 + i * 0x10) * 64 + 5, 1, 0⟩
def TQE_WIN.MT (i : Nat) : Fld := ⟨(0x10000100000 + i * 0x10) * 64 + 4, 1, 0⟩
def TQE_WIN.PW (i : Nat) : Fld := ⟨(0x10000100000 + i * 0x10) * 64 + 3, 1, 0⟩
def TQE_WIN.PR (i : Nat) : Fld := ⟨(0x10000100000 + i * 0x10) * 64 + 2, 1, 0⟩
def TQE_WIN.EN (i : Nat) : Fld := ⟨(0x10000100000 + i * 0x10) * 64 + 0, 1, 0⟩
/-! TQE_FNWIN (R363). -/
def TQE_FNWIN.COUNT (i : Nat) : Fld := ⟨(0x10000200000 + i * 0x8) * 64 + 16, 6, 0⟩
def TQE_FNWIN.FIRST (i : Nat) : Fld := ⟨(0x10000200000 + i * 0x8) * 64 + 0, 16, 0⟩
/-! TQE_ADM_IN (R390). -/
def TQE_ADM_IN.WORD : Fld := ⟨(0x10000010000) * 64 + 0, 32, 0⟩
/-! TQE_ADM_END (R390). -/
def TQE_ADM_END.WORD : Fld := ⟨(0x10000010008) * 64 + 0, 32, 0⟩
/-! TQE_ADM_OUT_LO (R390). -/
def TQE_ADM_OUT_LO.R0_LO : Fld := ⟨(0x10000010010) * 64 + 32, 32, 0⟩
def TQE_ADM_OUT_LO.TAG : Fld := ⟨(0x10000010010) * 64 + 16, 16, 0⟩
def TQE_ADM_OUT_LO.STS : Fld := ⟨(0x10000010010) * 64 + 0, 8, 0⟩
/-! TQE_ADM_OUT_HI (R390). -/
def TQE_ADM_OUT_HI.R1 : Fld := ⟨(0x10000010018) * 64 + 32, 32, 0⟩
def TQE_ADM_OUT_HI.R0_HI : Fld := ⟨(0x10000010018) * 64 + 0, 32, 0⟩
/-! TQE_ADM_STS (R390). -/
def TQE_ADM_STS.OUT_COUNT : Fld := ⟨(0x10000010020) * 64 + 24, 8, 0⟩
def TQE_ADM_STS.IN_FILL : Fld := ⟨(0x10000010020) * 64 + 16, 8, 0⟩
def TQE_ADM_STS.QRESET : Fld := ⟨(0x10000010020) * 64 + 2, 1, 0⟩
def TQE_ADM_STS.UNDERRUN : Fld := ⟨(0x10000010020) * 64 + 1, 1, 0⟩
def TQE_ADM_STS.OVF : Fld := ⟨(0x10000010020) * 64 + 0, 1, 0⟩
/-! TQE_CTX_BASE (R390). -/
def TQE_CTX_BASE.LOCK : Fld := ⟨(0x10000010030) * 64 + 63, 1, 0⟩
def TQE_CTX_BASE.BASE : Fld := ⟨(0x10000010030) * 64 + 21, 31, 0⟩
/-! TQE_RSTS (R390). -/
def TQE_RSTS.DBNOP : Fld := ⟨(0x10000010038) * 64 + 4, 1, 0⟩
def TQE_RSTS.MVRESET : Fld := ⟨(0x10000010038) * 64 + 3, 1, 0⟩
def TQE_RSTS.PIBACK : Fld := ⟨(0x10000010038) * 64 + 2, 1, 0⟩
def TQE_RSTS.IDXBELL : Fld := ⟨(0x10000010038) * 64 + 1, 1, 0⟩
def TQE_RSTS.RINGERR : Fld := ⟨(0x10000010038) * 64 + 0, 1, 0⟩
/-! TQE_RING_ERRLOG (R390). -/
def TQE_RING_ERRLOG.ERR : Fld := ⟨(0x10000010040) * 64 + 56, 8, 0⟩
def TQE_RING_ERRLOG.RING : Fld := ⟨(0x10000010040) * 64 + 0, 20, 0⟩
/-! VF_ADM_IN (R390). -/
def VF_ADM_IN.WORD (i : Nat) : Fld := ⟨(0x20000000000 + i * 0x10000) * 64 + 0, 32, 0⟩
/-! VF_ADM_END (R390). -/
def VF_ADM_END.WORD (i : Nat) : Fld := ⟨(0x20000000008 + i * 0x10000) * 64 + 0, 32, 0⟩
/-! VF_ADM_OUT_LO (R390). -/
def VF_ADM_OUT_LO.R0_LO (i : Nat) : Fld := ⟨(0x20000000010 + i * 0x10000) * 64 + 32, 32, 0⟩
def VF_ADM_OUT_LO.TAG (i : Nat) : Fld := ⟨(0x20000000010 + i * 0x10000) * 64 + 16, 16, 0⟩
def VF_ADM_OUT_LO.STS (i : Nat) : Fld := ⟨(0x20000000010 + i * 0x10000) * 64 + 0, 8, 0⟩
/-! VF_ADM_OUT_HI (R390). -/
def VF_ADM_OUT_HI.R1 (i : Nat) : Fld := ⟨(0x20000000018 + i * 0x10000) * 64 + 32, 32, 0⟩
def VF_ADM_OUT_HI.R0_HI (i : Nat) : Fld := ⟨(0x20000000018 + i * 0x10000) * 64 + 0, 32, 0⟩
/-! VF_ADM_STS (R390). -/
def VF_ADM_STS.OUT_COUNT (i : Nat) : Fld := ⟨(0x20000000020 + i * 0x10000) * 64 + 24, 8, 0⟩
def VF_ADM_STS.IN_FILL (i : Nat) : Fld := ⟨(0x20000000020 + i * 0x10000) * 64 + 16, 8, 0⟩
def VF_ADM_STS.QRESET (i : Nat) : Fld := ⟨(0x20000000020 + i * 0x10000) * 64 + 2, 1, 0⟩
def VF_ADM_STS.UNDERRUN (i : Nat) : Fld := ⟨(0x20000000020 + i * 0x10000) * 64 + 1, 1, 0⟩
def VF_ADM_STS.OVF (i : Nat) : Fld := ⟨(0x20000000020 + i * 0x10000) * 64 + 0, 1, 0⟩
/-! TQE_KCTL (R411). -/
def TQE_KCTL.LOCK : Fld := ⟨(0x10000020000) * 64 + 31, 1, 0⟩
def TQE_KCTL.VECTOR : Fld := ⟨(0x10000020000) * 64 + 16, 11, 0⟩
def TQE_KCTL.KW_DUMMY : Fld := ⟨(0x10000020000) * 64 + 8, 4, 8⟩
def TQE_KCTL.DUMMY : Fld := ⟨(0x10000020000) * 64 + 4, 3, 3⟩
def TQE_KCTL.PLAIN_OK : Fld := ⟨(0x10000020000) * 64 + 0, 1, 1⟩
/-! TQE_KSTS (R411). -/
def TQE_KSTS.LOCKOUT : Fld := ⟨(0x10000020008) * 64 + 6, 1, 0⟩
def TQE_KSTS.PWRERASE : Fld := ⟨(0x10000020008) * 64 + 5, 1, 0⟩
def TQE_KSTS.ALARM : Fld := ⟨(0x10000020008) * 64 + 4, 1, 0⟩
def TQE_KSTS.SLOTERR : Fld := ⟨(0x10000020008) * 64 + 3, 1, 0⟩
def TQE_KSTS.KWFAIL : Fld := ⟨(0x10000020008) * 64 + 2, 1, 0⟩
def TQE_KSTS.SCRUBSTOP : Fld := ⟨(0x10000020008) * 64 + 1, 1, 0⟩
def TQE_KSTS.AUTHFAIL : Fld := ⟨(0x10000020008) * 64 + 0, 1, 0⟩
/-! TQE_KALARM (R411). -/
def TQE_KALARM.ERASED : Fld := ⟨(0x10000020010) * 64 + 32, 17, 0⟩
def TQE_KALARM.CAUSE : Fld := ⟨(0x10000020010) * 64 + 16, 5, 0⟩
def TQE_KALARM.COUNT : Fld := ⟨(0x10000020010) * 64 + 8, 5, 0⟩
def TQE_KALARM.STATE : Fld := ⟨(0x10000020010) * 64 + 0, 3, 0⟩
/-! TQE_KALARM_TIME (R411). -/
def TQE_KALARM_TIME.TIME : Fld := ⟨(0x10000020018) * 64 + 0, 64, 0⟩
/-! TQE_KOCC (R411). -/
def TQE_KOCC.USED : Fld := ⟨(0x10000020020) * 64 + 0, 17, 0⟩
/-! TQE_MBCTL (R416). -/
def TQE_MBCTL.VECTOR : Fld := ⟨(0x10000000048) * 64 + 0, 11, 0⟩
/-! TQE_MBPEND (R416). -/
def TQE_MBPEND.VF (i : Nat) : Fld := ⟨(0x10000001000 + i * 0x8) * 64 + 0, 64, 0⟩
/-! INT_STATE (R454). -/
def INT_STATE.PRI (i : Nat) : Fld := ⟨(0x100004000 + i * 0x10000) * 64 + 16, 4, 0⟩
def INT_STATE.ISR (i : Nat) : Fld := ⟨(0x100004000 + i * 0x10000) * 64 + 0, 16, 0⟩
/-! INT_ACK (R454). -/
def INT_ACK.VALID (i : Nat) : Fld := ⟨(0x100004008 + i * 0x10000) * 64 + 8, 1, 0⟩
def INT_ACK.VECTOR (i : Nat) : Fld := ⟨(0x100004008 + i * 0x10000) * 64 + 0, 8, 0⟩
/-! INT_EOI (R454). -/
def INT_EOI.EOI (i : Nat) : Fld := ⟨(0x100004010 + i * 0x10000) * 64 + 0, 64, 0⟩
/-! INT_IPI (R454). -/
def INT_IPI.ALL (i : Nat) : Fld := ⟨(0x100004020 + i * 0x10000) * 64 + 24, 1, 0⟩
def INT_IPI.VECTOR (i : Nat) : Fld := ⟨(0x100004020 + i * 0x10000) * 64 + 16, 8, 0⟩
def INT_IPI.CORE (i : Nat) : Fld := ⟨(0x100004020 + i * 0x10000) * 64 + 0, 9, 0⟩
/-! VIP_CTL (R454). -/
def VIP_CTL.VIPD (i : Nat) : Fld := ⟨(0x100004040 + i * 0x10000) * 64 + 9, 43, 0⟩
def VIP_CTL.NV (i : Nat) : Fld := ⟨(0x100004040 + i * 0x10000) * 64 + 1, 8, 0⟩
def VIP_CTL.EN (i : Nat) : Fld := ⟨(0x100004040 + i * 0x10000) * 64 + 0, 1, 0⟩
/-! PIR_STS (R455). -/
def PIR_STS.VIPERR : Fld := ⟨(0xA00010) * 64 + 3, 1, 0⟩
def PIR_STS.UNDELIV : Fld := ⟨(0xA00010) * 64 + 2, 1, 0⟩
def PIR_STS.BADTGT : Fld := ⟨(0xA00010) * 64 + 1, 1, 0⟩
def PIR_STS.BADMSG : Fld := ⟨(0xA00010) * 64 + 0, 1, 0⟩
/-! PIR_LOG (R455). -/
def PIR_LOG.RID : Fld := ⟨(0xA00018) * 64 + 48, 16, 0⟩
def PIR_LOG.REASON : Fld := ⟨(0xA00018) * 64 + 45, 3, 0⟩
def PIR_LOG.WORLD : Fld := ⟨(0xA00018) * 64 + 44, 1, 0⟩
def PIR_LOG.ENC : Fld := ⟨(0xA00018) * 64 + 34, 10, 0⟩
def PIR_LOG.HANDLE : Fld := ⟨(0xA00018) * 64 + 0, 20, 0⟩
/-! PIR_MTTINV (R455). -/
def PIR_MTTINV.DONE : Fld := ⟨(0xA00030) * 64 + 31, 1, 1⟩
def PIR_MTTINV.ALL : Fld := ⟨(0xA00030) * 64 + 20, 1, 0⟩
def PIR_MTTINV.HANDLE : Fld := ⟨(0xA00030) * 64 + 0, 20, 0⟩
/-! PIR_MTT (R455). -/
def PIR_MTT.BASE (i : Nat) : Fld := ⟨(0xA00020 + i * 0x8) * 64 + 12, 40, 0⟩
def PIR_MTT.LOG2N (i : Nat) : Fld := ⟨(0xA00020 + i * 0x8) * 64 + 0, 5, 0⟩
/-! PIR_SRC (R455). -/
def PIR_SRC.LEVEL (i : Nat) : Fld := ⟨(0xA01000 + i * 0x8) * 64 + 63, 1, 0⟩
def PIR_SRC.INSVC (i : Nat) : Fld := ⟨(0xA01000 + i * 0x8) * 64 + 62, 1, 0⟩
def PIR_SRC.PEND (i : Nat) : Fld := ⟨(0xA01000 + i * 0x8) * 64 + 61, 1, 0⟩
def PIR_SRC.HANDLE (i : Nat) : Fld := ⟨(0xA01000 + i * 0x8) * 64 + 33, 20, 0⟩
def PIR_SRC.VIA (i : Nat) : Fld := ⟨(0xA01000 + i * 0x8) * 64 + 32, 1, 0⟩
def PIR_SRC.CORE (i : Nat) : Fld := ⟨(0xA01000 + i * 0x8) * 64 + 20, 9, 0⟩
def PIR_SRC.VECTOR (i : Nat) : Fld := ⟨(0xA01000 + i * 0x8) * 64 + 12, 8, 16⟩
def PIR_SRC.DONE (i : Nat) : Fld := ⟨(0xA01000 + i * 0x8) * 64 + 3, 1, 0⟩
def PIR_SRC.TRIG (i : Nat) : Fld := ⟨(0xA01000 + i * 0x8) * 64 + 2, 1, 0⟩
def PIR_SRC.MASK (i : Nat) : Fld := ⟨(0xA01000 + i * 0x8) * 64 + 0, 1, 1⟩
/-! MBX_IN (R456). -/
def MBX_IN.WORD (i : Nat) : Fld := ⟨(0xB00000 + i * 0x1000) * 64 + 0, 32, 0⟩
/-! MBX_END (R456). -/
def MBX_END.NB (i : Nat) : Fld := ⟨(0xB00008 + i * 0x1000) * 64 + 32, 2, 0⟩
def MBX_END.WORD (i : Nat) : Fld := ⟨(0xB00008 + i * 0x1000) * 64 + 0, 32, 0⟩
/-! MBX_DB_SET (R456). -/
def MBX_DB_SET.SET (i : Nat) : Fld := ⟨(0xB00010 + i * 0x1000) * 64 + 1, 30, 0⟩
/-! MBX_OUT_LO (R456). -/
def MBX_OUT_LO.LO (i : Nat) : Fld := ⟨(0xB00020 + i * 0x1000) * 64 + 0, 64, 0⟩
/-! MBX_OUT_HI (R456). -/
def MBX_OUT_HI.HI (i : Nat) : Fld := ⟨(0xB00028 + i * 0x1000) * 64 + 0, 64, 0⟩
/-! MBX_STS (R456). -/
def MBX_STS.COUNT (i : Nat) : Fld := ⟨(0xB00030 + i * 0x1000) * 64 + 26, 6, 0⟩
def MBX_STS.HEAD_VALID (i : Nat) : Fld := ⟨(0xB00030 + i * 0x1000) * 64 + 21, 5, 0⟩
def MBX_STS.HEAD_LAST (i : Nat) : Fld := ⟨(0xB00030 + i * 0x1000) * 64 + 20, 1, 0⟩
def MBX_STS.HEAD_DMG (i : Nat) : Fld := ⟨(0xB00030 + i * 0x1000) * 64 + 19, 1, 0⟩
def MBX_STS.EMPTY (i : Nat) : Fld := ⟨(0xB00030 + i * 0x1000) * 64 + 18, 1, 1⟩
def MBX_STS.OPEN (i : Nat) : Fld := ⟨(0xB00030 + i * 0x1000) * 64 + 17, 1, 0⟩
def MBX_STS.AGEDROP (i : Nat) : Fld := ⟨(0xB00030 + i * 0x1000) * 64 + 8, 1, 0⟩
def MBX_STS.SNDREF (i : Nat) : Fld := ⟨(0xB00030 + i * 0x1000) * 64 + 7, 1, 0⟩
def MBX_STS.ROFF (i : Nat) : Fld := ⟨(0xB00030 + i * 0x1000) * 64 + 6, 1, 0⟩
def MBX_STS.QRESET (i : Nat) : Fld := ⟨(0xB00030 + i * 0x1000) * 64 + 5, 1, 0⟩
def MBX_STS.UNDERRUN (i : Nat) : Fld := ⟨(0xB00030 + i * 0x1000) * 64 + 4, 1, 0⟩
def MBX_STS.OVF (i : Nat) : Fld := ⟨(0xB00030 + i * 0x1000) * 64 + 3, 1, 0⟩
def MBX_STS.TXE (i : Nat) : Fld := ⟨(0xB00030 + i * 0x1000) * 64 + 2, 1, 0⟩
/-! MBX_DB (R456). -/
def MBX_DB.DB (i j : Nat) : Fld := ⟨(0xB00038 + i * 0x1000) * 64 + 0 + j, 1, 0⟩
/-! MBX_DBEN (R456). -/
def MBX_DBEN.EN (i : Nat) : Fld := ⟨(0xB00040 + i * 0x1000) * 64 + 0, 32, 2147483649⟩
/-! MBX_CFG (R456). -/
def MBX_CFG.LOCK (i : Nat) : Fld := ⟨(0xB00048 + i * 0x1000) * 64 + 63, 1, 0⟩
def MBX_CFG.RXDOM (i : Nat) : Fld := ⟨(0xB00048 + i * 0x1000) * 64 + 41, 5, 21⟩
def MBX_CFG.RXOFF (i : Nat) : Fld := ⟨(0xB00048 + i * 0x1000) * 64 + 39, 2, 0⟩
def MBX_CFG.TXIE (i : Nat) : Fld := ⟨(0xB00048 + i * 0x1000) * 64 + 38, 1, 0⟩
def MBX_CFG.OWNTAG (i : Nat) : Fld := ⟨(0xB00048 + i * 0x1000) * 64 + 37, 1, 0⟩
def MBX_CFG.ANY (i : Nat) : Fld := ⟨(0xB00048 + i * 0x1000) * 64 + 36, 1, 0⟩
def MBX_CFG.RWORLD (i : Nat) : Fld := ⟨(0xB00048 + i * 0x1000) * 64 + 32, 1, 0⟩
def MBX_CFG.RENC (i : Nat) : Fld := ⟨(0xB00048 + i * 0x1000) * 64 + 22, 10, 0⟩
def MBX_CFG.SWORLD (i : Nat) : Fld := ⟨(0xB00048 + i * 0x1000) * 64 + 21, 1, 0⟩
def MBX_CFG.SENC (i : Nat) : Fld := ⟨(0xB00048 + i * 0x1000) * 64 + 11, 10, 0⟩
/-! PMC_LIMIT (R481). -/
def PMC_LIMIT.LOCK : Fld := ⟨(0xC00000) * 64 + 63, 1, 0⟩
def PMC_LIMIT.WINDOW_MS : Fld := ⟨(0xC00000) * 64 + 32, 16, 0⟩
def PMC_LIMIT.RIDE_CAP_W : Fld := ⟨(0xC00000) * 64 + 16, 11, 300⟩
def PMC_LIMIT.LIMIT_W : Fld := ⟨(0xC00000) * 64 + 0, 11, 0⟩
/-! PMC_POWER (R481). -/
def PMC_POWER.BUDGET_W : Fld := ⟨(0xC00008) * 64 + 48, 11, 0⟩
def PMC_POWER.ALLOW_W : Fld := ⟨(0xC00008) * 64 + 32, 11, 0⟩
def PMC_POWER.AVG_W : Fld := ⟨(0xC00008) * 64 + 16, 11, 0⟩
def PMC_POWER.NOW_W : Fld := ⟨(0xC00008) * 64 + 0, 11, 0⟩
/-! PMC_THERM (R481). -/
def PMC_THERM.FLOW : Fld := ⟨(0xC00010) * 64 + 48, 16, 0⟩
def PMC_THERM.PLATE_LIM : Fld := ⟨(0xC00010) * 64 + 38, 10, 0⟩
def PMC_THERM.PLATE : Fld := ⟨(0xC00010) * 64 + 28, 10, 0⟩
def PMC_THERM.T_IN : Fld := ⟨(0xC00010) * 64 + 18, 10, 0⟩
def PMC_THERM.T_OUT : Fld := ⟨(0xC00010) * 64 + 8, 10, 0⟩
def PMC_THERM.AGE : Fld := ⟨(0xC00010) * 64 + 0, 8, 255⟩
/-! PMC_FCAST (R481). -/
def PMC_FCAST.P_10S : Fld := ⟨(0xC00018) * 64 + 32, 11, 0⟩
def PMC_FCAST.P_1S : Fld := ⟨(0xC00018) * 64 + 0, 11, 0⟩
/-! PMC_RIDE (R481). -/
def PMC_RIDE.RETURN_MS : Fld := ⟨(0xC00020) * 64 + 16, 16, 1000⟩
def PMC_RIDE.HBM_KEEP : Fld := ⟨(0xC00020) * 64 + 1, 1, 0⟩
def PMC_RIDE.AUTOBOOT : Fld := ⟨(0xC00020) * 64 + 0, 1, 0⟩
/-! PMC_STS (R481). -/
def PMC_STS.MEM_KEPT : Fld := ⟨(0xC00030) * 64 + 6, 1, 0⟩
def PMC_STS.CAPMISS : Fld := ⟨(0xC00030) * 64 + 5, 1, 0⟩
def PMC_STS.TJHOT : Fld := ⟨(0xC00030) * 64 + 4, 1, 0⟩
def PMC_STS.CDU_STALE : Fld := ⟨(0xC00030) * 64 + 3, 1, 0⟩
def PMC_STS.FLOWTHR : Fld := ⟨(0xC00030) * 64 + 2, 1, 0⟩
def PMC_STS.ONBATT : Fld := ⟨(0xC00030) * 64 + 1, 1, 0⟩
/-! PMC_DOM (R481). -/
def PMC_DOM.EST_W (i : Nat) : Fld := ⟨(0xC00100 + i * 0x8) * 64 + 16, 16, 0⟩
def PMC_DOM.LAST_STS (i : Nat) : Fld := ⟨(0xC00100 + i * 0x8) * 64 + 8, 8, 0⟩
def PMC_DOM.HELD (i : Nat) : Fld := ⟨(0xC00100 + i * 0x8) * 64 + 4, 1, 0⟩
def PMC_DOM.STATE (i : Nat) : Fld := ⟨(0xC00100 + i * 0x8) * 64 + 0, 3, 0⟩
/-! PMC_CLUS (R481). -/
def PMC_CLUS.TJ (i : Nat) : Fld := ⟨(0xC00400 + i * 0x8) * 64 + 24, 8, 0⟩
def PMC_CLUS.ONLINE (i : Nat) : Fld := ⟨(0xC00400 + i * 0x8) * 64 + 20, 4, 0⟩
def PMC_CLUS.DEEP (i : Nat) : Fld := ⟨(0xC00400 + i * 0x8) * 64 + 18, 2, 0⟩
def PMC_CLUS.MAX_PS (i : Nat) : Fld := ⟨(0xC00400 + i * 0x8) * 64 + 14, 3, 6⟩
def PMC_CLUS.MIN_PS (i : Nat) : Fld := ⟨(0xC00400 + i * 0x8) * 64 + 11, 3, 0⟩
def PMC_CLUS.PS (i : Nat) : Fld := ⟨(0xC00400 + i * 0x8) * 64 + 8, 3, 0⟩
def PMC_CLUS.STOP8 (i : Nat) : Fld := ⟨(0xC00400 + i * 0x8) * 64 + 3, 5, 0⟩
/-! CCNT_CYC (R484). -/
def CCNT_CYC.COUNT (i : Nat) : Fld := ⟨(0x100003000 + i * 0x10000) * 64 + 0, 64, 0⟩
/-! CCNT_INS (R484). -/
def CCNT_INS.COUNT (i : Nat) : Fld := ⟨(0x100003008 + i * 0x10000) * 64 + 0, 64, 0⟩
/-! CCNT_SEL (R484). -/
def CCNT_SEL.EN (i j : Nat) : Fld := ⟨(0x100003100 + i * 0x10000 + j * 0x8) * 64 + 63, 1, 0⟩
def CCNT_SEL.CU (i j : Nat) : Fld := ⟨(0x100003100 + i * 0x10000 + j * 0x8) * 64 + 62, 1, 0⟩
def CCNT_SEL.CS (i j : Nat) : Fld := ⟨(0x100003100 + i * 0x10000 + j * 0x8) * 64 + 61, 1, 0⟩
def CCNT_SEL.CH (i j : Nat) : Fld := ⟨(0x100003100 + i * 0x10000 + j * 0x8) * 64 + 60, 1, 0⟩
def CCNT_SEL.CW (i j : Nat) : Fld := ⟨(0x100003100 + i * 0x10000 + j * 0x8) * 64 + 59, 1, 0⟩
def CCNT_SEL.EVENT (i j : Nat) : Fld := ⟨(0x100003100 + i * 0x10000 + j * 0x8) * 64 + 0, 8, 0⟩
/-! CCNT (R484). -/
def CCNT.COUNT (i j : Nat) : Fld := ⟨(0x100003180 + i * 0x10000 + j * 0x8) * 64 + 0, 48, 0⟩
/-! CCNT_STS (R484). -/
def CCNT_STS.INS_OVF (i : Nat) : Fld := ⟨(0x100003200 + i * 0x10000) * 64 + 7, 1, 0⟩
def CCNT_STS.CYC_OVF (i : Nat) : Fld := ⟨(0x100003200 + i * 0x10000) * 64 + 6, 1, 0⟩
def CCNT_STS.OVF (i j : Nat) : Fld := ⟨(0x100003200 + i * 0x10000) * 64 + 0 + j, 1, 0⟩
/-! CCNT_CTL (R484). -/
def CCNT_CTL.VECTOR (i : Nat) : Fld := ⟨(0x100003208 + i * 0x10000) * 64 + 16, 8, 16⟩
def CCNT_CTL.OVIE (i : Nat) : Fld := ⟨(0x100003208 + i * 0x10000) * 64 + 8, 1, 0⟩
def CCNT_CTL.UEN (i : Nat) : Fld := ⟨(0x100003208 + i * 0x10000) * 64 + 1, 1, 0⟩
def CCNT_CTL.FRZ (i : Nat) : Fld := ⟨(0x100003208 + i * 0x10000) * 64 + 0, 1, 0⟩
/-! SPL_CTL (R496). -/
def SPL_CTL.LOCK : Fld := ⟨(0xE00000) * 64 + 31, 1, 0⟩
def SPL_CTL.UPER : Fld := ⟨(0xE00000) * 64 + 16, 8, 0⟩
def SPL_CTL.WATER : Fld := ⟨(0xE00000) * 64 + 8, 4, 12⟩
def SPL_CTL.WORLD : Fld := ⟨(0xE00000) * 64 + 4, 1, 0⟩
def SPL_CTL.MEN : Fld := ⟨(0xE00000) * 64 + 1, 1, 0⟩
def SPL_CTL.EN : Fld := ⟨(0xE00000) * 64 + 0, 1, 0⟩
/-! SPL_RING (R496). -/
def SPL_RING.BASE : Fld := ⟨(0xE00008) * 64 + 12, 40, 0⟩
def SPL_RING.LOG2SZ : Fld := ⟨(0xE00008) * 64 + 0, 5, 8⟩
/-! SPL_SEQ (R496). -/
def SPL_SEQ.LAP_SAT : Fld := ⟨(0xE00020) * 64 + 48, 1, 0⟩
def SPL_SEQ.LAP : Fld := ⟨(0xE00020) * 64 + 32, 16, 0⟩
def SPL_SEQ.SEQ : Fld := ⟨(0xE00020) * 64 + 0, 32, 0⟩
/-! SPL_STS (R496). -/
def SPL_STS.SEQ_BELL : Fld := ⟨(0xE00028) * 64 + 4, 1, 0⟩
def SPL_STS.STRAY : Fld := ⟨(0xE00028) * 64 + 3, 1, 0⟩
def SPL_STS.RINGERR : Fld := ⟨(0xE00028) * 64 + 2, 1, 0⟩
def SPL_STS.LOST : Fld := ⟨(0xE00028) * 64 + 1, 1, 0⟩
def SPL_STS.T1 : Fld := ⟨(0xE00028) * 64 + 0, 1, 0⟩
/-! SPL_LOST (R496). -/
def SPL_LOST.LOST : Fld := ⟨(0xE00030) * 64 + 0, 64, 0⟩
/-! SPL_MCMD (R496). -/
def SPL_MCMD.MTAG : Fld := ⟨(0xE00038) * 64 + 16, 16, 0⟩
def SPL_MCMD.OP : Fld := ⟨(0xE00038) * 64 + 0, 4, 0⟩
/-! SPL_MSTS (R496). -/
def SPL_MSTS.LAST_STS : Fld := ⟨(0xE00040) * 64 + 24, 8, 0⟩
def SPL_MSTS.QSTATE : Fld := ⟨(0xE00040) * 64 + 16, 2, 0⟩
def SPL_MSTS.OPEN : Fld := ⟨(0xE00040) * 64 + 0, 13, 1⟩
/-! SPL_PI (R496). -/
def SPL_PI.PI : Fld := ⟨(0xE00010) * 64 + 0, 32, 0⟩
/-! SPL_CI (R496). -/
def SPL_CI.CI : Fld := ⟨(0xE00018) * 64 + 0, 32, 0⟩
/-! SPL_SNAP (R496). -/
def SPL_SNAP.EN (i : Nat) : Fld := ⟨(0xE00100 + i * 0x8) * 64 + 31, 1, 0⟩
def SPL_SNAP.TQE (i : Nat) : Fld := ⟨(0xE00100 + i * 0x8) * 64 + 30, 1, 0⟩
def SPL_SNAP.BLK (i : Nat) : Fld := ⟨(0xE00100 + i * 0x8) * 64 + 16, 12, 0⟩
def SPL_SNAP.K (i : Nat) : Fld := ⟨(0xE00100 + i * 0x8) * 64 + 0, 2, 0⟩
/-! ERR_CTL (R516). -/
def ERR_CTL.LOCK : Fld := ⟨(0xF00000) * 64 + 31, 1, 0⟩
def ERR_CTL.COAL : Fld := ⟨(0xF00000) * 64 + 16, 8, 10⟩
def ERR_CTL.ALM_ERR : Fld := ⟨(0xF00000) * 64 + 5, 1, 0⟩
def ERR_CTL.WORLD : Fld := ⟨(0xF00000) * 64 + 4, 1, 1⟩
def ERR_CTL.MIN_SEV : Fld := ⟨(0xF00000) * 64 + 2, 2, 0⟩
def ERR_CTL.RING_EN : Fld := ⟨(0xF00000) * 64 + 1, 1, 0⟩
/-! ERR_RING (R516). -/
def ERR_RING.BASE : Fld := ⟨(0xF00008) * 64 + 12, 40, 0⟩
def ERR_RING.LOG2SZ : Fld := ⟨(0xF00008) * 64 + 0, 5, 8⟩
/-! ERR_STS (R516). -/
def ERR_STS.ALM_SUPP : Fld := ⟨(0xF00020) * 64 + 6, 1, 0⟩
def ERR_STS.COAL_EVICT : Fld := ⟨(0xF00020) * 64 + 5, 1, 0⟩
def ERR_STS.SEQ_BELL : Fld := ⟨(0xF00020) * 64 + 4, 1, 0⟩
def ERR_STS.RINGERR : Fld := ⟨(0xF00020) * 64 + 3, 1, 0⟩
def ERR_STS.RING_LOST : Fld := ⟨(0xF00020) * 64 + 2, 1, 0⟩
def ERR_STS.FIFO_LOST : Fld := ⟨(0xF00020) * 64 + 1, 1, 0⟩
def ERR_STS.UNDERRUN : Fld := ⟨(0xF00020) * 64 + 0, 1, 0⟩
/-! ERR_SEQ (R516). -/
def ERR_SEQ.LAP_SAT : Fld := ⟨(0xF00028) * 64 + 48, 1, 0⟩
def ERR_SEQ.LAP : Fld := ⟨(0xF00028) * 64 + 32, 16, 0⟩
def ERR_SEQ.SEQ : Fld := ⟨(0xF00028) * 64 + 0, 32, 0⟩
/-! ERR_FIFO_STS (R516). -/
def ERR_FIFO_STS.COUNT : Fld := ⟨(0xF00030) * 64 + 16, 9, 0⟩
def ERR_FIFO_STS.PEND_FATAL : Fld := ⟨(0xF00030) * 64 + 3, 1, 0⟩
def ERR_FIFO_STS.PEND_ERR : Fld := ⟨(0xF00030) * 64 + 2, 1, 0⟩
def ERR_FIFO_STS.PEND_CORR : Fld := ⟨(0xF00030) * 64 + 1, 1, 0⟩
def ERR_FIFO_STS.EMPTY : Fld := ⟨(0xF00030) * 64 + 0, 1, 1⟩
/-! ERR_LOST (R516). -/
def ERR_LOST.RING : Fld := ⟨(0xF00038) * 64 + 32, 32, 0⟩
def ERR_LOST.FIFO : Fld := ⟨(0xF00038) * 64 + 0, 32, 0⟩
/-! ERR_ALARM (R516). -/
def ERR_ALARM.SUPP : Fld := ⟨(0xF00040) * 64 + 16, 16, 0⟩
def ERR_ALARM.TOKENS : Fld := ⟨(0xF00040) * 64 + 8, 8, 64⟩
def ERR_ALARM.QUEUED : Fld := ⟨(0xF00040) * 64 + 0, 4, 0⟩
/-! ERR_RING_PI (R516). -/
def ERR_RING_PI.PI : Fld := ⟨(0xF00010) * 64 + 0, 32, 0⟩
/-! ERR_RING_CI (R516). -/
def ERR_RING_CI.CI : Fld := ⟨(0xF00018) * 64 + 0, 32, 0⟩
/-! ERR_FIFO_OUT (R516). -/
def ERR_FIFO_OUT.WORD (i : Nat) : Fld := ⟨(0xF00100 + i * 0x8) * 64 + 0, 64, 0⟩
/-! RLY_CTL (R536). -/
def RLY_CTL.LOCK : Fld := ⟨(0x1000000) * 64 + 31, 1, 0⟩
def RLY_CTL.ML_OUT : Fld := ⟨(0x1000000) * 64 + 5, 1, 0⟩
def RLY_CTL.FRZ_OUT : Fld := ⟨(0x1000000) * 64 + 4, 1, 1⟩
def RLY_CTL.FRZ_IN : Fld := ⟨(0x1000000) * 64 + 3, 1, 1⟩
def RLY_CTL.TSYNC : Fld := ⟨(0x1000000) * 64 + 2, 1, 1⟩
def RLY_CTL.AUTH : Fld := ⟨(0x1000000) * 64 + 1, 1, 0⟩
def RLY_CTL.CTL_OK : Fld := ⟨(0x1000000) * 64 + 0, 1, 0⟩
/-! RLY_POS (R536). -/
def RLY_POS.EPOCH : Fld := ⟨(0x1000008) * 64 + 24, 8, 0⟩
def RLY_POS.STATE : Fld := ⟨(0x1000008) * 64 + 16, 2, 0⟩
def RLY_POS.COUNT : Fld := ⟨(0x1000008) * 64 + 8, 8, 0⟩
def RLY_POS.POS : Fld := ⟨(0x1000008) * 64 + 0, 8, 0⟩
/-! RLY_STS (R536). -/
def RLY_STS.FRZDUP : Fld := ⟨(0x1000010) * 64 + 10, 1, 0⟩
def RLY_STS.HOLDOVER : Fld := ⟨(0x1000010) * 64 + 9, 1, 0⟩
def RLY_STS.TSTEP : Fld := ⟨(0x1000010) * 64 + 8, 1, 0⟩
def RLY_STS.SEQ_BELL : Fld := ⟨(0x1000010) * 64 + 7, 1, 0⟩
def RLY_STS.NOPOS : Fld := ⟨(0x1000010) * 64 + 6, 1, 0⟩
def RLY_STS.HOPDROP : Fld := ⟨(0x1000010) * 64 + 5, 1, 0⟩
def RLY_STS.EPOCHDROP : Fld := ⟨(0x1000010) * 64 + 4, 1, 0⟩
def RLY_STS.AUTHFAIL : Fld := ⟨(0x1000010) * 64 + 3, 1, 0⟩
def RLY_STS.STALE : Fld := ⟨(0x1000010) * 64 + 2, 1, 0⟩
def RLY_STS.SYMERR : Fld := ⟨(0x1000010) * 64 + 1, 1, 0⟩
def RLY_STS.CRC : Fld := ⟨(0x1000010) * 64 + 0, 1, 0⟩
/-! RLY_SEQ (R536). -/
def RLY_SEQ.LAP_SAT : Fld := ⟨(0x1000020) * 64 + 48, 1, 0⟩
def RLY_SEQ.LAP : Fld := ⟨(0x1000020) * 64 + 32, 16, 0⟩
def RLY_SEQ.SEQ : Fld := ⟨(0x1000020) * 64 + 0, 16, 0⟩
/-! RLY_TSYNC (R536). -/
def RLY_TSYNC.OFFSET : Fld := ⟨(0x1000028) * 64 + 32, 32, 0⟩
def RLY_TSYNC.LOOP_ERR : Fld := ⟨(0x1000028) * 64 + 16, 16, 0⟩
def RLY_TSYNC.STATE : Fld := ⟨(0x1000028) * 64 + 0, 2, 0⟩
/-! RLY_LINKDLY (R536). -/
def RLY_LINKDLY.SET : Fld := ⟨(0x1000030) * 64 + 31, 1, 0⟩
def RLY_LINKDLY.DLY : Fld := ⟨(0x1000030) * 64 + 0, 16, 640⟩
/-! RLY_AEPOCH (R536). -/
def RLY_AEPOCH.AEPOCH : Fld := ⟨(0x1000038) * 64 + 0, 32, 0⟩
/-! RLY_IEN (R536). -/
def RLY_IEN.EN : Fld := ⟨(0x1000018) * 64 + 0, 32, 0⟩
/-! DBG_MON (R554). -/
def DBG_MON.LOCK : Fld := ⟨(0x1100008) * 64 + 31, 1, 0⟩
def DBG_MON.LEVEL : Fld := ⟨(0x1100008) * 64 + 4, 2, 0⟩
def DBG_MON.UART_MAX : Fld := ⟨(0x1100008) * 64 + 2, 2, 0⟩
def DBG_MON.UART_BASE : Fld := ⟨(0x1100008) * 64 + 0, 2, 0⟩
/-! DBG_PF_CTL (R554). -/
def DBG_PF_CTL.LOCK : Fld := ⟨(0x1100010) * 64 + 31, 1, 0⟩
def DBG_PF_CTL.ON_FATAL : Fld := ⟨(0x1100010) * 64 + 3, 1, 0⟩
def DBG_PF_CTL.DRIVE : Fld := ⟨(0x1100010) * 64 + 2, 1, 1⟩
def DBG_PF_CTL.PIN_EN : Fld := ⟨(0x1100010) * 64 + 1, 1, 1⟩
def DBG_PF_CTL.TRIG : Fld := ⟨(0x1100010) * 64 + 0, 1, 0⟩
/-! DBG_PF_STS (R554). -/
def DBG_PF_STS.SRC : Fld := ⟨(0x1100018) * 64 + 16, 5, 0⟩
def DBG_PF_STS.READOUT : Fld := ⟨(0x1100018) * 64 + 3, 1, 0⟩
def DBG_PF_STS.IGN : Fld := ⟨(0x1100018) * 64 + 2, 1, 0⟩
def DBG_PF_STS.DUP : Fld := ⟨(0x1100018) * 64 + 1, 1, 0⟩
def DBG_PF_STS.DONE : Fld := ⟨(0x1100018) * 64 + 0, 1, 0⟩
/-! DBG_PF_TIME (R554). -/
def DBG_PF_TIME.TIME : Fld := ⟨(0x1100020) * 64 + 0, 64, 0⟩
/-! UCNT_HOME_SEL (R486). -/
def UCNT_HOME_SEL.EN (i j : Nat) : Fld := ⟨(0x20F000 + i * 0x10000 + j * 0x8) * 64 + 63, 1, 0⟩
def UCNT_HOME_SEL.HURDLE (i j : Nat) : Fld := ⟨(0x20F000 + i * 0x10000 + j * 0x8) * 64 + 62, 1, 0⟩
def UCNT_HOME_SEL.EDGE (i j : Nat) : Fld := ⟨(0x20F000 + i * 0x10000 + j * 0x8) * 64 + 61, 1, 0⟩
def UCNT_HOME_SEL.MTAG_EN (i j : Nat) : Fld := ⟨(0x20F000 + i * 0x10000 + j * 0x8) * 64 + 57, 1, 0⟩
def UCNT_HOME_SEL.PCLS_EN (i j : Nat) : Fld := ⟨(0x20F000 + i * 0x10000 + j * 0x8) * 64 + 56, 1, 0⟩
def UCNT_HOME_SEL.MTAG (i j : Nat) : Fld := ⟨(0x20F000 + i * 0x10000 + j * 0x8) * 64 + 40, 16, 0⟩
def UCNT_HOME_SEL.PCLS (i j : Nat) : Fld := ⟨(0x20F000 + i * 0x10000 + j * 0x8) * 64 + 36, 4, 0⟩
def UCNT_HOME_SEL.HEIGHT (i j : Nat) : Fld := ⟨(0x20F000 + i * 0x10000 + j * 0x8) * 64 + 20, 12, 0⟩
def UCNT_HOME_SEL.SUB (i j : Nat) : Fld := ⟨(0x20F000 + i * 0x10000 + j * 0x8) * 64 + 8, 8, 0⟩
def UCNT_HOME_SEL.EVENT (i j : Nat) : Fld := ⟨(0x20F000 + i * 0x10000 + j * 0x8) * 64 + 0, 8, 0⟩
/-! UCNT_HOME (R486). -/
def UCNT_HOME.COUNT (i j : Nat) : Fld := ⟨(0x20F020 + i * 0x10000 + j * 0x8) * 64 + 0, 48, 0⟩
/-! UCNT_HOME_STS (R486). -/
def UCNT_HOME_STS.OVF (i j : Nat) : Fld := ⟨(0x20F040 + i * 0x10000) * 64 + 0 + j, 1, 0⟩
/-! UCNT_HOME_OVF_CNT (R486). -/
def UCNT_HOME_OVF_CNT.COUNT (i j : Nat) : Fld := ⟨(0x20F080 + i * 0x10000 + j * 0x8) * 64 + 0, 16, 0⟩
/-! UCNT_HMC_SEL (R486). -/
def UCNT_HMC_SEL.EN (i : Nat) : Fld := ⟨(0x40F000 + i * 0x8) * 64 + 63, 1, 0⟩
def UCNT_HMC_SEL.HURDLE (i : Nat) : Fld := ⟨(0x40F000 + i * 0x8) * 64 + 62, 1, 0⟩
def UCNT_HMC_SEL.EDGE (i : Nat) : Fld := ⟨(0x40F000 + i * 0x8) * 64 + 61, 1, 0⟩
def UCNT_HMC_SEL.MTAG_EN (i : Nat) : Fld := ⟨(0x40F000 + i * 0x8) * 64 + 57, 1, 0⟩
def UCNT_HMC_SEL.PCLS_EN (i : Nat) : Fld := ⟨(0x40F000 + i * 0x8) * 64 + 56, 1, 0⟩
def UCNT_HMC_SEL.MTAG (i : Nat) : Fld := ⟨(0x40F000 + i * 0x8) * 64 + 40, 16, 0⟩
def UCNT_HMC_SEL.PCLS (i : Nat) : Fld := ⟨(0x40F000 + i * 0x8) * 64 + 36, 4, 0⟩
def UCNT_HMC_SEL.HEIGHT (i : Nat) : Fld := ⟨(0x40F000 + i * 0x8) * 64 + 20, 12, 0⟩
def UCNT_HMC_SEL.SUB (i : Nat) : Fld := ⟨(0x40F000 + i * 0x8) * 64 + 8, 8, 0⟩
def UCNT_HMC_SEL.EVENT (i : Nat) : Fld := ⟨(0x40F000 + i * 0x8) * 64 + 0, 8, 0⟩
/-! UCNT_HMC (R486). -/
def UCNT_HMC.COUNT (i : Nat) : Fld := ⟨(0x40F020 + i * 0x8) * 64 + 0, 48, 0⟩
/-! UCNT_HMC_STS (R486). -/
def UCNT_HMC_STS.OVF (i : Nat) : Fld := ⟨(0x40F040) * 64 + 0 + i, 1, 0⟩
/-! UCNT_HMC_OVF_CNT (R486). -/
def UCNT_HMC_OVF_CNT.COUNT (i : Nat) : Fld := ⟨(0x40F080 + i * 0x8) * 64 + 0, 16, 0⟩
/-! UCNT_MESH_SEL (R486). -/
def UCNT_MESH_SEL.EN (i : Nat) : Fld := ⟨(0x50F000 + i * 0x8) * 64 + 63, 1, 0⟩
def UCNT_MESH_SEL.HURDLE (i : Nat) : Fld := ⟨(0x50F000 + i * 0x8) * 64 + 62, 1, 0⟩
def UCNT_MESH_SEL.EDGE (i : Nat) : Fld := ⟨(0x50F000 + i * 0x8) * 64 + 61, 1, 0⟩
def UCNT_MESH_SEL.MTAG_EN (i : Nat) : Fld := ⟨(0x50F000 + i * 0x8) * 64 + 57, 1, 0⟩
def UCNT_MESH_SEL.PCLS_EN (i : Nat) : Fld := ⟨(0x50F000 + i * 0x8) * 64 + 56, 1, 0⟩
def UCNT_MESH_SEL.MTAG (i : Nat) : Fld := ⟨(0x50F000 + i * 0x8) * 64 + 40, 16, 0⟩
def UCNT_MESH_SEL.PCLS (i : Nat) : Fld := ⟨(0x50F000 + i * 0x8) * 64 + 36, 4, 0⟩
def UCNT_MESH_SEL.HEIGHT (i : Nat) : Fld := ⟨(0x50F000 + i * 0x8) * 64 + 20, 12, 0⟩
def UCNT_MESH_SEL.SUB (i : Nat) : Fld := ⟨(0x50F000 + i * 0x8) * 64 + 8, 8, 0⟩
def UCNT_MESH_SEL.EVENT (i : Nat) : Fld := ⟨(0x50F000 + i * 0x8) * 64 + 0, 8, 0⟩
/-! UCNT_MESH (R486). -/
def UCNT_MESH.COUNT (i : Nat) : Fld := ⟨(0x50F020 + i * 0x8) * 64 + 0, 48, 0⟩
/-! UCNT_MESH_STS (R486). -/
def UCNT_MESH_STS.OVF (i : Nat) : Fld := ⟨(0x50F040) * 64 + 0 + i, 1, 0⟩
/-! UCNT_MESH_OVF_CNT (R486). -/
def UCNT_MESH_OVF_CNT.COUNT (i : Nat) : Fld := ⟨(0x50F080 + i * 0x8) * 64 + 0, 16, 0⟩
/-! UCNT_STR_SEL (R486). -/
def UCNT_STR_SEL.EN (i j : Nat) : Fld := ⟨(0x60F000 + i * 0x10000 + j * 0x8) * 64 + 63, 1, 0⟩
def UCNT_STR_SEL.HURDLE (i j : Nat) : Fld := ⟨(0x60F000 + i * 0x10000 + j * 0x8) * 64 + 62, 1, 0⟩
def UCNT_STR_SEL.EDGE (i j : Nat) : Fld := ⟨(0x60F000 + i * 0x10000 + j * 0x8) * 64 + 61, 1, 0⟩
def UCNT_STR_SEL.MTAG_EN (i j : Nat) : Fld := ⟨(0x60F000 + i * 0x10000 + j * 0x8) * 64 + 57, 1, 0⟩
def UCNT_STR_SEL.PCLS_EN (i j : Nat) : Fld := ⟨(0x60F000 + i * 0x10000 + j * 0x8) * 64 + 56, 1, 0⟩
def UCNT_STR_SEL.MTAG (i j : Nat) : Fld := ⟨(0x60F000 + i * 0x10000 + j * 0x8) * 64 + 40, 16, 0⟩
def UCNT_STR_SEL.PCLS (i j : Nat) : Fld := ⟨(0x60F000 + i * 0x10000 + j * 0x8) * 64 + 36, 4, 0⟩
def UCNT_STR_SEL.HEIGHT (i j : Nat) : Fld := ⟨(0x60F000 + i * 0x10000 + j * 0x8) * 64 + 20, 12, 0⟩
def UCNT_STR_SEL.SUB (i j : Nat) : Fld := ⟨(0x60F000 + i * 0x10000 + j * 0x8) * 64 + 8, 8, 0⟩
def UCNT_STR_SEL.EVENT (i j : Nat) : Fld := ⟨(0x60F000 + i * 0x10000 + j * 0x8) * 64 + 0, 8, 0⟩
/-! UCNT_STR (R486). -/
def UCNT_STR.COUNT (i j : Nat) : Fld := ⟨(0x60F020 + i * 0x10000 + j * 0x8) * 64 + 0, 48, 0⟩
/-! UCNT_STR_STS (R486). -/
def UCNT_STR_STS.OVF (i j : Nat) : Fld := ⟨(0x60F040 + i * 0x10000) * 64 + 0 + j, 1, 0⟩
/-! UCNT_STR_OVF_CNT (R486). -/
def UCNT_STR_OVF_CNT.COUNT (i j : Nat) : Fld := ⟨(0x60F080 + i * 0x10000 + j * 0x8) * 64 + 0, 16, 0⟩
/-! UCNT_MCH_SEL (R486). -/
def UCNT_MCH_SEL.EN (i j : Nat) : Fld := ⟨(0x70F000 + i * 0x10000 + j * 0x8) * 64 + 63, 1, 0⟩
def UCNT_MCH_SEL.HURDLE (i j : Nat) : Fld := ⟨(0x70F000 + i * 0x10000 + j * 0x8) * 64 + 62, 1, 0⟩
def UCNT_MCH_SEL.EDGE (i j : Nat) : Fld := ⟨(0x70F000 + i * 0x10000 + j * 0x8) * 64 + 61, 1, 0⟩
def UCNT_MCH_SEL.MTAG_EN (i j : Nat) : Fld := ⟨(0x70F000 + i * 0x10000 + j * 0x8) * 64 + 57, 1, 0⟩
def UCNT_MCH_SEL.PCLS_EN (i j : Nat) : Fld := ⟨(0x70F000 + i * 0x10000 + j * 0x8) * 64 + 56, 1, 0⟩
def UCNT_MCH_SEL.MTAG (i j : Nat) : Fld := ⟨(0x70F000 + i * 0x10000 + j * 0x8) * 64 + 40, 16, 0⟩
def UCNT_MCH_SEL.PCLS (i j : Nat) : Fld := ⟨(0x70F000 + i * 0x10000 + j * 0x8) * 64 + 36, 4, 0⟩
def UCNT_MCH_SEL.HEIGHT (i j : Nat) : Fld := ⟨(0x70F000 + i * 0x10000 + j * 0x8) * 64 + 20, 12, 0⟩
def UCNT_MCH_SEL.SUB (i j : Nat) : Fld := ⟨(0x70F000 + i * 0x10000 + j * 0x8) * 64 + 8, 8, 0⟩
def UCNT_MCH_SEL.EVENT (i j : Nat) : Fld := ⟨(0x70F000 + i * 0x10000 + j * 0x8) * 64 + 0, 8, 0⟩
/-! UCNT_MCH (R486). -/
def UCNT_MCH.COUNT (i j : Nat) : Fld := ⟨(0x70F020 + i * 0x10000 + j * 0x8) * 64 + 0, 48, 0⟩
/-! UCNT_MCH_STS (R486). -/
def UCNT_MCH_STS.OVF (i j : Nat) : Fld := ⟨(0x70F040 + i * 0x10000) * 64 + 0 + j, 1, 0⟩
/-! UCNT_MCH_OVF_CNT (R486). -/
def UCNT_MCH_OVF_CNT.COUNT (i j : Nat) : Fld := ⟨(0x70F080 + i * 0x10000 + j * 0x8) * 64 + 0, 16, 0⟩
/-! UCNT_HBC_SEL (R486). -/
def UCNT_HBC_SEL.EN (i j : Nat) : Fld := ⟨(0x90F000 + i * 0x10000 + j * 0x8) * 64 + 63, 1, 0⟩
def UCNT_HBC_SEL.HURDLE (i j : Nat) : Fld := ⟨(0x90F000 + i * 0x10000 + j * 0x8) * 64 + 62, 1, 0⟩
def UCNT_HBC_SEL.EDGE (i j : Nat) : Fld := ⟨(0x90F000 + i * 0x10000 + j * 0x8) * 64 + 61, 1, 0⟩
def UCNT_HBC_SEL.MTAG_EN (i j : Nat) : Fld := ⟨(0x90F000 + i * 0x10000 + j * 0x8) * 64 + 57, 1, 0⟩
def UCNT_HBC_SEL.PCLS_EN (i j : Nat) : Fld := ⟨(0x90F000 + i * 0x10000 + j * 0x8) * 64 + 56, 1, 0⟩
def UCNT_HBC_SEL.MTAG (i j : Nat) : Fld := ⟨(0x90F000 + i * 0x10000 + j * 0x8) * 64 + 40, 16, 0⟩
def UCNT_HBC_SEL.PCLS (i j : Nat) : Fld := ⟨(0x90F000 + i * 0x10000 + j * 0x8) * 64 + 36, 4, 0⟩
def UCNT_HBC_SEL.HEIGHT (i j : Nat) : Fld := ⟨(0x90F000 + i * 0x10000 + j * 0x8) * 64 + 20, 12, 0⟩
def UCNT_HBC_SEL.SUB (i j : Nat) : Fld := ⟨(0x90F000 + i * 0x10000 + j * 0x8) * 64 + 8, 8, 0⟩
def UCNT_HBC_SEL.EVENT (i j : Nat) : Fld := ⟨(0x90F000 + i * 0x10000 + j * 0x8) * 64 + 0, 8, 0⟩
/-! UCNT_HBC (R486). -/
def UCNT_HBC.COUNT (i j : Nat) : Fld := ⟨(0x90F020 + i * 0x10000 + j * 0x8) * 64 + 0, 48, 0⟩
/-! UCNT_HBC_STS (R486). -/
def UCNT_HBC_STS.OVF (i j : Nat) : Fld := ⟨(0x90F040 + i * 0x10000) * 64 + 0 + j, 1, 0⟩
/-! UCNT_HBC_OVF_CNT (R486). -/
def UCNT_HBC_OVF_CNT.COUNT (i j : Nat) : Fld := ⟨(0x90F080 + i * 0x10000 + j * 0x8) * 64 + 0, 16, 0⟩
/-! UCNT_XCP_SEL (R486). -/
def UCNT_XCP_SEL.EN (i : Nat) : Fld := ⟨(0x80F000 + i * 0x8) * 64 + 63, 1, 0⟩
def UCNT_XCP_SEL.HURDLE (i : Nat) : Fld := ⟨(0x80F000 + i * 0x8) * 64 + 62, 1, 0⟩
def UCNT_XCP_SEL.EDGE (i : Nat) : Fld := ⟨(0x80F000 + i * 0x8) * 64 + 61, 1, 0⟩
def UCNT_XCP_SEL.MTAG_EN (i : Nat) : Fld := ⟨(0x80F000 + i * 0x8) * 64 + 57, 1, 0⟩
def UCNT_XCP_SEL.PCLS_EN (i : Nat) : Fld := ⟨(0x80F000 + i * 0x8) * 64 + 56, 1, 0⟩
def UCNT_XCP_SEL.MTAG (i : Nat) : Fld := ⟨(0x80F000 + i * 0x8) * 64 + 40, 16, 0⟩
def UCNT_XCP_SEL.PCLS (i : Nat) : Fld := ⟨(0x80F000 + i * 0x8) * 64 + 36, 4, 0⟩
def UCNT_XCP_SEL.HEIGHT (i : Nat) : Fld := ⟨(0x80F000 + i * 0x8) * 64 + 20, 12, 0⟩
def UCNT_XCP_SEL.SUB (i : Nat) : Fld := ⟨(0x80F000 + i * 0x8) * 64 + 8, 8, 0⟩
def UCNT_XCP_SEL.EVENT (i : Nat) : Fld := ⟨(0x80F000 + i * 0x8) * 64 + 0, 8, 0⟩
/-! UCNT_XCP (R486). -/
def UCNT_XCP.COUNT (i : Nat) : Fld := ⟨(0x80F020 + i * 0x8) * 64 + 0, 48, 0⟩
/-! UCNT_XCP_STS (R486). -/
def UCNT_XCP_STS.OVF (i : Nat) : Fld := ⟨(0x80F040) * 64 + 0 + i, 1, 0⟩
/-! UCNT_XCP_OVF_CNT (R486). -/
def UCNT_XCP_OVF_CNT.COUNT (i : Nat) : Fld := ⟨(0x80F080 + i * 0x8) * 64 + 0, 16, 0⟩
/-! UCNT_TQE_SEL (R486). -/
def UCNT_TQE_SEL.EN (i : Nat) : Fld := ⟨(0x1000000F000 + i * 0x8) * 64 + 63, 1, 0⟩
def UCNT_TQE_SEL.HURDLE (i : Nat) : Fld := ⟨(0x1000000F000 + i * 0x8) * 64 + 62, 1, 0⟩
def UCNT_TQE_SEL.EDGE (i : Nat) : Fld := ⟨(0x1000000F000 + i * 0x8) * 64 + 61, 1, 0⟩
def UCNT_TQE_SEL.MTAG_EN (i : Nat) : Fld := ⟨(0x1000000F000 + i * 0x8) * 64 + 57, 1, 0⟩
def UCNT_TQE_SEL.PCLS_EN (i : Nat) : Fld := ⟨(0x1000000F000 + i * 0x8) * 64 + 56, 1, 0⟩
def UCNT_TQE_SEL.MTAG (i : Nat) : Fld := ⟨(0x1000000F000 + i * 0x8) * 64 + 40, 16, 0⟩
def UCNT_TQE_SEL.PCLS (i : Nat) : Fld := ⟨(0x1000000F000 + i * 0x8) * 64 + 36, 4, 0⟩
def UCNT_TQE_SEL.HEIGHT (i : Nat) : Fld := ⟨(0x1000000F000 + i * 0x8) * 64 + 20, 12, 0⟩
def UCNT_TQE_SEL.SUB (i : Nat) : Fld := ⟨(0x1000000F000 + i * 0x8) * 64 + 8, 8, 0⟩
def UCNT_TQE_SEL.EVENT (i : Nat) : Fld := ⟨(0x1000000F000 + i * 0x8) * 64 + 0, 8, 0⟩
/-! UCNT_TQE (R486). -/
def UCNT_TQE.COUNT (i : Nat) : Fld := ⟨(0x1000000F020 + i * 0x8) * 64 + 0, 48, 0⟩
/-! UCNT_TQE_STS (R486). -/
def UCNT_TQE_STS.OVF (i : Nat) : Fld := ⟨(0x1000000F040) * 64 + 0 + i, 1, 0⟩
/-! UCNT_TQE_OVF_CNT (R486). -/
def UCNT_TQE_OVF_CNT.COUNT (i : Nat) : Fld := ⟨(0x1000000F080 + i * 0x8) * 64 + 0, 16, 0⟩
/-! UCNT_SPL_SEL (R486). -/
def UCNT_SPL_SEL.EN (i : Nat) : Fld := ⟨(0xE0F000 + i * 0x8) * 64 + 63, 1, 0⟩
def UCNT_SPL_SEL.HURDLE (i : Nat) : Fld := ⟨(0xE0F000 + i * 0x8) * 64 + 62, 1, 0⟩
def UCNT_SPL_SEL.EDGE (i : Nat) : Fld := ⟨(0xE0F000 + i * 0x8) * 64 + 61, 1, 0⟩
def UCNT_SPL_SEL.MTAG_EN (i : Nat) : Fld := ⟨(0xE0F000 + i * 0x8) * 64 + 57, 1, 0⟩
def UCNT_SPL_SEL.PCLS_EN (i : Nat) : Fld := ⟨(0xE0F000 + i * 0x8) * 64 + 56, 1, 0⟩
def UCNT_SPL_SEL.MTAG (i : Nat) : Fld := ⟨(0xE0F000 + i * 0x8) * 64 + 40, 16, 0⟩
def UCNT_SPL_SEL.PCLS (i : Nat) : Fld := ⟨(0xE0F000 + i * 0x8) * 64 + 36, 4, 0⟩
def UCNT_SPL_SEL.HEIGHT (i : Nat) : Fld := ⟨(0xE0F000 + i * 0x8) * 64 + 20, 12, 0⟩
def UCNT_SPL_SEL.SUB (i : Nat) : Fld := ⟨(0xE0F000 + i * 0x8) * 64 + 8, 8, 0⟩
def UCNT_SPL_SEL.EVENT (i : Nat) : Fld := ⟨(0xE0F000 + i * 0x8) * 64 + 0, 8, 0⟩
/-! UCNT_SPL (R486). -/
def UCNT_SPL.COUNT (i : Nat) : Fld := ⟨(0xE0F020 + i * 0x8) * 64 + 0, 48, 0⟩
/-! UCNT_SPL_STS (R486). -/
def UCNT_SPL_STS.OVF (i : Nat) : Fld := ⟨(0xE0F040) * 64 + 0 + i, 1, 0⟩
/-! UCNT_SPL_OVF_CNT (R486). -/
def UCNT_SPL_OVF_CNT.COUNT (i : Nat) : Fld := ⟨(0xE0F080 + i * 0x8) * 64 + 0, 16, 0⟩
/-! MBV_OUT_LO (R416). -/
def MBV_OUT_LO.MSG (i : Nat) : Fld := ⟨(0x20000001000 + i * 0x10000) * 64 + 0, 64, 0⟩
/-! MBV_OUT_HI (R416). -/
def MBV_OUT_HI.MSG (i : Nat) : Fld := ⟨(0x20000001008 + i * 0x10000) * 64 + 0, 64, 0⟩
/-! MBV_IN_LO (R416). -/
def MBV_IN_LO.MSG (i : Nat) : Fld := ⟨(0x20000001010 + i * 0x10000) * 64 + 0, 64, 0⟩
/-! MBV_IN_HI (R416). -/
def MBV_IN_HI.MSG (i : Nat) : Fld := ⟨(0x20000001018 + i * 0x10000) * 64 + 0, 64, 0⟩
/-! MBV_STS (R416). -/
def MBV_STS.FLR (i : Nat) : Fld := ⟨(0x20000001020 + i * 0x10000) * 64 + 5, 1, 0⟩
def MBV_STS.OVF (i : Nat) : Fld := ⟨(0x20000001020 + i * 0x10000) * 64 + 4, 1, 0⟩
def MBV_STS.ACK (i : Nat) : Fld := ⟨(0x20000001020 + i * 0x10000) * 64 + 3, 1, 0⟩
def MBV_STS.OUT_BUSY (i : Nat) : Fld := ⟨(0x20000001020 + i * 0x10000) * 64 + 2, 1, 0⟩
def MBV_STS.IN_FULL (i : Nat) : Fld := ⟨(0x20000001020 + i * 0x10000) * 64 + 1, 1, 0⟩
/-! MBV_CTL (R416). -/
def MBV_CTL.VECTOR (i : Nat) : Fld := ⟨(0x20000001024 + i * 0x10000) * 64 + 16, 5, 0⟩
def MBV_CTL.IE (i : Nat) : Fld := ⟨(0x20000001024 + i * 0x10000) * 64 + 1, 1, 0⟩
def MBV_CTL.SEND (i : Nat) : Fld := ⟨(0x20000001024 + i * 0x10000) * 64 + 0, 1, 0⟩
/-! MBV_STS_FLR_CNT (R416). -/
def MBV_STS_FLR_CNT.COUNT (i : Nat) : Fld := ⟨(0x2000000103C + i * 0x10000) * 64 + 0, 16, 0⟩
/-! MBV_STS_OVF_CNT (R416). -/
def MBV_STS_OVF_CNT.COUNT (i : Nat) : Fld := ⟨(0x20000001038 + i * 0x10000) * 64 + 0, 16, 0⟩
/-! MBV_STS_ACK_CNT (R416). -/
def MBV_STS_ACK_CNT.COUNT (i : Nat) : Fld := ⟨(0x20000001034 + i * 0x10000) * 64 + 0, 16, 0⟩
/-! MBV_STS_IN_FULL_CNT (R416). -/
def MBV_STS_IN_FULL_CNT.COUNT (i : Nat) : Fld := ⟨(0x2000000102C + i * 0x10000) * 64 + 0, 16, 0⟩
/-! MBP_OUT_LO (R416). -/
def MBP_OUT_LO.MSG (i : Nat) : Fld := ⟨(0x10000040000 + i * 0x40) * 64 + 0, 64, 0⟩
/-! MBP_OUT_HI (R416). -/
def MBP_OUT_HI.MSG (i : Nat) : Fld := ⟨(0x10000040008 + i * 0x40) * 64 + 0, 64, 0⟩
/-! MBP_IN_LO (R416). -/
def MBP_IN_LO.MSG (i : Nat) : Fld := ⟨(0x10000040010 + i * 0x40) * 64 + 0, 64, 0⟩
/-! MBP_IN_HI (R416). -/
def MBP_IN_HI.MSG (i : Nat) : Fld := ⟨(0x10000040018 + i * 0x40) * 64 + 0, 64, 0⟩
/-! MBP_STS (R416). -/
def MBP_STS.FLR (i : Nat) : Fld := ⟨(0x10000040020 + i * 0x40) * 64 + 5, 1, 0⟩
def MBP_STS.OVF (i : Nat) : Fld := ⟨(0x10000040020 + i * 0x40) * 64 + 4, 1, 0⟩
def MBP_STS.ACK (i : Nat) : Fld := ⟨(0x10000040020 + i * 0x40) * 64 + 3, 1, 0⟩
def MBP_STS.OUT_BUSY (i : Nat) : Fld := ⟨(0x10000040020 + i * 0x40) * 64 + 2, 1, 0⟩
def MBP_STS.IN_FULL (i : Nat) : Fld := ⟨(0x10000040020 + i * 0x40) * 64 + 1, 1, 0⟩
/-! MBP_CTL (R416). -/
def MBP_CTL.VECTOR (i : Nat) : Fld := ⟨(0x10000040024 + i * 0x40) * 64 + 16, 5, 0⟩
def MBP_CTL.IE (i : Nat) : Fld := ⟨(0x10000040024 + i * 0x40) * 64 + 1, 1, 0⟩
def MBP_CTL.SEND (i : Nat) : Fld := ⟨(0x10000040024 + i * 0x40) * 64 + 0, 1, 0⟩
/-! MBP_STS_FLR_CNT (R416). -/
def MBP_STS_FLR_CNT.COUNT (i : Nat) : Fld := ⟨(0x1000004003C + i * 0x40) * 64 + 0, 16, 0⟩
/-! MBP_STS_OVF_CNT (R416). -/
def MBP_STS_OVF_CNT.COUNT (i : Nat) : Fld := ⟨(0x10000040038 + i * 0x40) * 64 + 0, 16, 0⟩
/-! MBP_STS_ACK_CNT (R416). -/
def MBP_STS_ACK_CNT.COUNT (i : Nat) : Fld := ⟨(0x10000040034 + i * 0x40) * 64 + 0, 16, 0⟩
/-! MBP_STS_IN_FULL_CNT (R416). -/
def MBP_STS_IN_FULL_CNT.COUNT (i : Nat) : Fld := ⟨(0x1000004002C + i * 0x40) * 64 + 0, 16, 0⟩
/-! MESH_STS_CLAMP_CNT (R187). -/
def MESH_STS_CLAMP_CNT.COUNT : Fld := ⟨(0x500070) * 64 + 0, 16, 0⟩
/-! MESH_STS_GEN_BELL_CNT (R187). -/
def MESH_STS_GEN_BELL_CNT.COUNT : Fld := ⟨(0x500068) * 64 + 0, 16, 0⟩
/-! MESH_STS_EPOCH_BELL_CNT (R187). -/
def MESH_STS_EPOCH_BELL_CNT.COUNT : Fld := ⟨(0x500060) * 64 + 0, 16, 0⟩
/-! MESH_STS_UNREACH_CNT (R187). -/
def MESH_STS_UNREACH_CNT.COUNT : Fld := ⟨(0x500058) * 64 + 0, 16, 0⟩
/-! MESH_STS_LATE_CNT (R187). -/
def MESH_STS_LATE_CNT.COUNT : Fld := ⟨(0x500050) * 64 + 0, 16, 0⟩
/-! MESH_STS_RQTMO_CNT (R187). -/
def MESH_STS_RQTMO_CNT.COUNT : Fld := ⟨(0x500048) * 64 + 0, 16, 0⟩
/-! MESH_STS_ABSW_CNT (R187). -/
def MESH_STS_ABSW_CNT.COUNT : Fld := ⟨(0x500040) * 64 + 0, 16, 0⟩
/-! MESH_STS_HDROP_CNT (R187). -/
def MESH_STS_HDROP_CNT.COUNT : Fld := ⟨(0x500038) * 64 + 0, 16, 0⟩
/-! MESH_STS_CECC_CNT (R187). -/
def MESH_STS_CECC_CNT.COUNT : Fld := ⟨(0x500030) * 64 + 0, 16, 0⟩
/-! STR_STS_SEQ_BELL_CNT (R217). -/
def STR_STS_SEQ_BELL_CNT.COUNT (i : Nat) : Fld := ⟨(0x6000C0 + i * 0x10000) * 64 + 0, 16, 0⟩
/-! STR_STS_FAIL_CNT (R217). -/
def STR_STS_FAIL_CNT.COUNT (i : Nat) : Fld := ⟨(0x6000B8 + i * 0x10000) * 64 + 0, 16, 0⟩
/-! STR_STS_ATTFAIL_CNT (R217). -/
def STR_STS_ATTFAIL_CNT.COUNT (i : Nat) : Fld := ⟨(0x6000B0 + i * 0x10000) * 64 + 0, 16, 0⟩
/-! STR_STS_WCHK_CNT (R217). -/
def STR_STS_WCHK_CNT.COUNT (i : Nat) : Fld := ⟨(0x6000A8 + i * 0x10000) * 64 + 0, 16, 0⟩
/-! STR_STS_REPAIR_CNT (R217). -/
def STR_STS_REPAIR_CNT.COUNT (i : Nat) : Fld := ⟨(0x6000A0 + i * 0x10000) * 64 + 0, 16, 0⟩
/-! STR_STS_HDROP_CNT (R217). -/
def STR_STS_HDROP_CNT.COUNT (i : Nat) : Fld := ⟨(0x600098 + i * 0x10000) * 64 + 0, 16, 0⟩
/-! STR_STS_REPLAY_CNT (R217). -/
def STR_STS_REPLAY_CNT.COUNT (i : Nat) : Fld := ⟨(0x600090 + i * 0x10000) * 64 + 0, 16, 0⟩
/-! STR_STS_UNCORR_CNT (R217). -/
def STR_STS_UNCORR_CNT.COUNT (i : Nat) : Fld := ⟨(0x600088 + i * 0x10000) * 64 + 0, 16, 0⟩
/-! STR_STS_CECC_CNT (R217). -/
def STR_STS_CECC_CNT.COUNT (i : Nat) : Fld := ⟨(0x600080 + i * 0x10000) * 64 + 0, 16, 0⟩
/-! MCH_STS_WDROP_CNT (R253). -/
def MCH_STS_WDROP_CNT.COUNT (i : Nat) : Fld := ⟨(0x7000B8 + i * 0x10000) * 64 + 0, 16, 0⟩
/-! MCH_STS_FREEZE_CNT (R253). -/
def MCH_STS_FREEZE_CNT.COUNT (i : Nat) : Fld := ⟨(0x7000B0 + i * 0x10000) * 64 + 0, 16, 0⟩
/-! MCH_STS_PSNRD_CNT (R253). -/
def MCH_STS_PSNRD_CNT.COUNT (i : Nat) : Fld := ⟨(0x7000A8 + i * 0x10000) * 64 + 0, 16, 0⟩
/-! MCH_STS_RDIST_CNT (R253). -/
def MCH_STS_RDIST_CNT.COUNT (i : Nat) : Fld := ⟨(0x7000A0 + i * 0x10000) * 64 + 0, 16, 0⟩
/-! MCH_STS_WCRC_CNT (R253). -/
def MCH_STS_WCRC_CNT.COUNT (i : Nat) : Fld := ⟨(0x700098 + i * 0x10000) * 64 + 0, 16, 0⟩
/-! MCH_STS_CAPAR_CNT (R253). -/
def MCH_STS_CAPAR_CNT.COUNT (i : Nat) : Fld := ⟨(0x700090 + i * 0x10000) * 64 + 0, 16, 0⟩
/-! MCH_STS_UECC_CNT (R253). -/
def MCH_STS_UECC_CNT.COUNT (i : Nat) : Fld := ⟨(0x700088 + i * 0x10000) * 64 + 0, 16, 0⟩
/-! MCH_STS_CECC_CNT (R253). -/
def MCH_STS_CECC_CNT.COUNT (i : Nat) : Fld := ⟨(0x700080 + i * 0x10000) * 64 + 0, 16, 0⟩
/-! HBC_STS_WDROP_CNT (R253). -/
def HBC_STS_WDROP_CNT.COUNT (i : Nat) : Fld := ⟨(0x9000B8 + i * 0x10000) * 64 + 0, 16, 0⟩
/-! HBC_STS_FREEZE_CNT (R253). -/
def HBC_STS_FREEZE_CNT.COUNT (i : Nat) : Fld := ⟨(0x9000B0 + i * 0x10000) * 64 + 0, 16, 0⟩
/-! HBC_STS_PSNRD_CNT (R253). -/
def HBC_STS_PSNRD_CNT.COUNT (i : Nat) : Fld := ⟨(0x9000A8 + i * 0x10000) * 64 + 0, 16, 0⟩
/-! HBC_STS_RDIST_CNT (R253). -/
def HBC_STS_RDIST_CNT.COUNT (i : Nat) : Fld := ⟨(0x9000A0 + i * 0x10000) * 64 + 0, 16, 0⟩
/-! HBC_STS_WCRC_CNT (R253). -/
def HBC_STS_WCRC_CNT.COUNT (i : Nat) : Fld := ⟨(0x900098 + i * 0x10000) * 64 + 0, 16, 0⟩
/-! HBC_STS_CAPAR_CNT (R253). -/
def HBC_STS_CAPAR_CNT.COUNT (i : Nat) : Fld := ⟨(0x900090 + i * 0x10000) * 64 + 0, 16, 0⟩
/-! HBC_STS_UECC_CNT (R253). -/
def HBC_STS_UECC_CNT.COUNT (i : Nat) : Fld := ⟨(0x900088 + i * 0x10000) * 64 + 0, 16, 0⟩
/-! HBC_STS_CECC_CNT (R253). -/
def HBC_STS_CECC_CNT.COUNT (i : Nat) : Fld := ⟨(0x900080 + i * 0x10000) * 64 + 0, 16, 0⟩
/-! XCP_STS_RSDONE_CNT (R277). -/
def XCP_STS_RSDONE_CNT.COUNT : Fld := ⟨(0x8000A8) * 64 + 0, 16, 0⟩
/-! XCP_STS_DUNCORR_CNT (R277). -/
def XCP_STS_DUNCORR_CNT.COUNT : Fld := ⟨(0x8000A0) * 64 + 0, 16, 0⟩
/-! XCP_STS_DOUBLE_CNT (R277). -/
def XCP_STS_DOUBLE_CNT.COUNT : Fld := ⟨(0x800098) * 64 + 0, 16, 0⟩
/-! XCP_STS_DDROP_CNT (R277). -/
def XCP_STS_DDROP_CNT.COUNT : Fld := ⟨(0x800090) * 64 + 0, 16, 0⟩
/-! XCP_STS_DWRITE_CNT (R277). -/
def XCP_STS_DWRITE_CNT.COUNT : Fld := ⟨(0x800088) * 64 + 0, 16, 0⟩
/-! XCP_STS_RECON_CNT (R277). -/
def XCP_STS_RECON_CNT.COUNT : Fld := ⟨(0x800080) * 64 + 0, 16, 0⟩
/-! OWN_STS_IDE_CNT (R337). -/
def OWN_STS_IDE_CNT.COUNT : Fld := ⟨(0xD01120) * 64 + 0, 16, 0⟩
/-! OWN_STS_MOT_BAD_CNT (R337). -/
def OWN_STS_MOT_BAD_CNT.COUNT : Fld := ⟨(0xD01118) * 64 + 0, 16, 0⟩
/-! OWN_STS_REFUSE_DEV_CNT (R337). -/
def OWN_STS_REFUSE_DEV_CNT.COUNT : Fld := ⟨(0xD01110) * 64 + 0, 16, 0⟩
/-! OWN_STS_REFUSE_WR_CNT (R337). -/
def OWN_STS_REFUSE_WR_CNT.COUNT : Fld := ⟨(0xD01108) * 64 + 0, 16, 0⟩
/-! OWN_STS_REFUSE_RD_CNT (R337). -/
def OWN_STS_REFUSE_RD_CNT.COUNT : Fld := ⟨(0xD01100) * 64 + 0, 16, 0⟩
/-! TQE_STS_FGEN_BELL_CNT (R363). -/
def TQE_STS_FGEN_BELL_CNT.COUNT : Fld := ⟨(0x100000000C0) * 64 + 0, 16, 0⟩
/-! TQE_STS_CPLTMO_CNT (R363). -/
def TQE_STS_CPLTMO_CNT.COUNT : Fld := ⟨(0x100000000B8) * 64 + 0, 16, 0⟩
/-! TQE_STS_STALECPL_CNT (R363). -/
def TQE_STS_STALECPL_CNT.COUNT : Fld := ⟨(0x100000000B0) * 64 + 0, 16, 0⟩
/-! TQE_STS_BMEDISC_CNT (R363). -/
def TQE_STS_BMEDISC_CNT.COUNT : Fld := ⟨(0x100000000A8) * 64 + 0, 16, 0⟩
/-! TQE_STS_PSNRX_CNT (R363). -/
def TQE_STS_PSNRX_CNT.COUNT : Fld := ⟨(0x100000000A0) * 64 + 0, 16, 0⟩
/-! TQE_STS_PEERUR_CNT (R363). -/
def TQE_STS_PEERUR_CNT.COUNT : Fld := ⟨(0x10000000098) * 64 + 0, 16, 0⟩
/-! TQE_STS_PEERDROP_CNT (R363). -/
def TQE_STS_PEERDROP_CNT.COUNT : Fld := ⟨(0x10000000090) * 64 + 0, 16, 0⟩
/-! TQE_STS_WINMISS_CNT (R363). -/
def TQE_STS_WINMISS_CNT.COUNT : Fld := ⟨(0x10000000088) * 64 + 0, 16, 0⟩
/-! TQE_STS_MSIADDR_CNT (R363). -/
def TQE_STS_MSIADDR_CNT.COUNT : Fld := ⟨(0x10000000080) * 64 + 0, 16, 0⟩
/-! TQE_INTX_EVENT_CNT (R363). -/
def TQE_INTX_EVENT_CNT.COUNT : Fld := ⟨(0x10000000040) * 64 + 0, 16, 0⟩
/-! TQE_ADM_STS_QRESET_CNT (R390). -/
def TQE_ADM_STS_QRESET_CNT.COUNT : Fld := ⟨(0x10000010090) * 64 + 0, 16, 0⟩
/-! TQE_ADM_STS_UNDERRUN_CNT (R390). -/
def TQE_ADM_STS_UNDERRUN_CNT.COUNT : Fld := ⟨(0x10000010088) * 64 + 0, 16, 0⟩
/-! TQE_ADM_STS_OVF_CNT (R390). -/
def TQE_ADM_STS_OVF_CNT.COUNT : Fld := ⟨(0x10000010080) * 64 + 0, 16, 0⟩
/-! VF_ADM_STS_QRESET_CNT (R390). -/
def VF_ADM_STS_QRESET_CNT.COUNT (i : Nat) : Fld := ⟨(0x20000000090 + i * 0x10000) * 64 + 0, 16, 0⟩
/-! VF_ADM_STS_UNDERRUN_CNT (R390). -/
def VF_ADM_STS_UNDERRUN_CNT.COUNT (i : Nat) : Fld := ⟨(0x20000000088 + i * 0x10000) * 64 + 0, 16, 0⟩
/-! VF_ADM_STS_OVF_CNT (R390). -/
def VF_ADM_STS_OVF_CNT.COUNT (i : Nat) : Fld := ⟨(0x20000000080 + i * 0x10000) * 64 + 0, 16, 0⟩
/-! TQE_RSTS_DBNOP_CNT (R390). -/
def TQE_RSTS_DBNOP_CNT.COUNT : Fld := ⟨(0x100000100E0) * 64 + 0, 16, 0⟩
/-! TQE_RSTS_MVRESET_CNT (R390). -/
def TQE_RSTS_MVRESET_CNT.COUNT : Fld := ⟨(0x100000100D8) * 64 + 0, 16, 0⟩
/-! TQE_RSTS_PIBACK_CNT (R390). -/
def TQE_RSTS_PIBACK_CNT.COUNT : Fld := ⟨(0x100000100D0) * 64 + 0, 16, 0⟩
/-! TQE_RSTS_IDXBELL_CNT (R390). -/
def TQE_RSTS_IDXBELL_CNT.COUNT : Fld := ⟨(0x100000100C8) * 64 + 0, 16, 0⟩
/-! TQE_RSTS_RINGERR_CNT (R390). -/
def TQE_RSTS_RINGERR_CNT.COUNT : Fld := ⟨(0x100000100C0) * 64 + 0, 16, 0⟩
/-! TQE_KSTS_LOCKOUT_CNT (R411). -/
def TQE_KSTS_LOCKOUT_CNT.COUNT : Fld := ⟨(0x100000200B0) * 64 + 0, 16, 0⟩
/-! TQE_KSTS_PWRERASE_CNT (R411). -/
def TQE_KSTS_PWRERASE_CNT.COUNT : Fld := ⟨(0x100000200A8) * 64 + 0, 16, 0⟩
/-! TQE_KSTS_ALARM_CNT (R411). -/
def TQE_KSTS_ALARM_CNT.COUNT : Fld := ⟨(0x100000200A0) * 64 + 0, 16, 0⟩
/-! TQE_KSTS_SLOTERR_CNT (R411). -/
def TQE_KSTS_SLOTERR_CNT.COUNT : Fld := ⟨(0x10000020098) * 64 + 0, 16, 0⟩
/-! TQE_KSTS_KWFAIL_CNT (R411). -/
def TQE_KSTS_KWFAIL_CNT.COUNT : Fld := ⟨(0x10000020090) * 64 + 0, 16, 0⟩
/-! TQE_KSTS_SCRUBSTOP_CNT (R411). -/
def TQE_KSTS_SCRUBSTOP_CNT.COUNT : Fld := ⟨(0x10000020088) * 64 + 0, 16, 0⟩
/-! TQE_KSTS_AUTHFAIL_CNT (R411). -/
def TQE_KSTS_AUTHFAIL_CNT.COUNT : Fld := ⟨(0x10000020080) * 64 + 0, 16, 0⟩
/-! PIR_STS_VIPERR_CNT (R455). -/
def PIR_STS_VIPERR_CNT.COUNT : Fld := ⟨(0xA00098) * 64 + 0, 16, 0⟩
/-! PIR_STS_UNDELIV_CNT (R455). -/
def PIR_STS_UNDELIV_CNT.COUNT : Fld := ⟨(0xA00090) * 64 + 0, 16, 0⟩
/-! PIR_STS_BADTGT_CNT (R455). -/
def PIR_STS_BADTGT_CNT.COUNT : Fld := ⟨(0xA00088) * 64 + 0, 16, 0⟩
/-! PIR_STS_BADMSG_CNT (R455). -/
def PIR_STS_BADMSG_CNT.COUNT : Fld := ⟨(0xA00080) * 64 + 0, 16, 0⟩
/-! MBX_STS_AGEDROP_CNT (R456). -/
def MBX_STS_AGEDROP_CNT.COUNT (i : Nat) : Fld := ⟨(0xB000C0 + i * 0x1000) * 64 + 0, 16, 0⟩
/-! MBX_STS_SNDREF_CNT (R456). -/
def MBX_STS_SNDREF_CNT.COUNT (i : Nat) : Fld := ⟨(0xB000B8 + i * 0x1000) * 64 + 0, 16, 0⟩
/-! MBX_STS_ROFF_CNT (R456). -/
def MBX_STS_ROFF_CNT.COUNT (i : Nat) : Fld := ⟨(0xB000B0 + i * 0x1000) * 64 + 0, 16, 0⟩
/-! MBX_STS_QRESET_CNT (R456). -/
def MBX_STS_QRESET_CNT.COUNT (i : Nat) : Fld := ⟨(0xB000A8 + i * 0x1000) * 64 + 0, 16, 0⟩
/-! MBX_STS_UNDERRUN_CNT (R456). -/
def MBX_STS_UNDERRUN_CNT.COUNT (i : Nat) : Fld := ⟨(0xB000A0 + i * 0x1000) * 64 + 0, 16, 0⟩
/-! MBX_STS_OVF_CNT (R456). -/
def MBX_STS_OVF_CNT.COUNT (i : Nat) : Fld := ⟨(0xB00098 + i * 0x1000) * 64 + 0, 16, 0⟩
/-! MBX_STS_TXE_CNT (R456). -/
def MBX_STS_TXE_CNT.COUNT (i : Nat) : Fld := ⟨(0xB00090 + i * 0x1000) * 64 + 0, 16, 0⟩
/-! MBX_DB_DB_CNT (R456). -/
def MBX_DB_DB_CNT.COUNT (i j : Nat) : Fld := ⟨(0xB00100 + i * 0x1000 + j * 0x8) * 64 + 0, 16, 0⟩
/-! PMC_STS_MEM_KEPT_CNT (R481). -/
def PMC_STS_MEM_KEPT_CNT.COUNT : Fld := ⟨(0xC000B0) * 64 + 0, 16, 0⟩
/-! PMC_STS_CAPMISS_CNT (R481). -/
def PMC_STS_CAPMISS_CNT.COUNT : Fld := ⟨(0xC000A8) * 64 + 0, 16, 0⟩
/-! PMC_STS_TJHOT_CNT (R481). -/
def PMC_STS_TJHOT_CNT.COUNT : Fld := ⟨(0xC000A0) * 64 + 0, 16, 0⟩
/-! PMC_STS_CDU_STALE_CNT (R481). -/
def PMC_STS_CDU_STALE_CNT.COUNT : Fld := ⟨(0xC00098) * 64 + 0, 16, 0⟩
/-! PMC_STS_FLOWTHR_CNT (R481). -/
def PMC_STS_FLOWTHR_CNT.COUNT : Fld := ⟨(0xC00090) * 64 + 0, 16, 0⟩
/-! PMC_STS_ONBATT_CNT (R481). -/
def PMC_STS_ONBATT_CNT.COUNT : Fld := ⟨(0xC00088) * 64 + 0, 16, 0⟩
/-! CCNT_STS_INS_OVF_CNT (R484). -/
def CCNT_STS_INS_OVF_CNT.COUNT (i : Nat) : Fld := ⟨(0x100003278 + i * 0x10000) * 64 + 0, 16, 0⟩
/-! CCNT_STS_CYC_OVF_CNT (R484). -/
def CCNT_STS_CYC_OVF_CNT.COUNT (i : Nat) : Fld := ⟨(0x100003270 + i * 0x10000) * 64 + 0, 16, 0⟩
/-! CCNT_STS_OVF_CNT (R484). -/
def CCNT_STS_OVF_CNT.COUNT (i j : Nat) : Fld := ⟨(0x100003240 + i * 0x10000 + j * 0x8) * 64 + 0, 16, 0⟩
/-! SPL_STS_SEQ_BELL_CNT (R496). -/
def SPL_STS_SEQ_BELL_CNT.COUNT : Fld := ⟨(0xE000A0) * 64 + 0, 16, 0⟩
/-! SPL_STS_STRAY_CNT (R496). -/
def SPL_STS_STRAY_CNT.COUNT : Fld := ⟨(0xE00098) * 64 + 0, 16, 0⟩
/-! SPL_STS_RINGERR_CNT (R496). -/
def SPL_STS_RINGERR_CNT.COUNT : Fld := ⟨(0xE00090) * 64 + 0, 16, 0⟩
/-! SPL_STS_LOST_CNT (R496). -/
def SPL_STS_LOST_CNT.COUNT : Fld := ⟨(0xE00088) * 64 + 0, 16, 0⟩
/-! SPL_STS_T1_CNT (R496). -/
def SPL_STS_T1_CNT.COUNT : Fld := ⟨(0xE00080) * 64 + 0, 16, 0⟩
/-! ERR_STS_ALM_SUPP_CNT (R516). -/
def ERR_STS_ALM_SUPP_CNT.COUNT : Fld := ⟨(0xF000B0) * 64 + 0, 16, 0⟩
/-! ERR_STS_COAL_EVICT_CNT (R516). -/
def ERR_STS_COAL_EVICT_CNT.COUNT : Fld := ⟨(0xF000A8) * 64 + 0, 16, 0⟩
/-! ERR_STS_SEQ_BELL_CNT (R516). -/
def ERR_STS_SEQ_BELL_CNT.COUNT : Fld := ⟨(0xF000A0) * 64 + 0, 16, 0⟩
/-! ERR_STS_RINGERR_CNT (R516). -/
def ERR_STS_RINGERR_CNT.COUNT : Fld := ⟨(0xF00098) * 64 + 0, 16, 0⟩
/-! ERR_STS_RING_LOST_CNT (R516). -/
def ERR_STS_RING_LOST_CNT.COUNT : Fld := ⟨(0xF00090) * 64 + 0, 16, 0⟩
/-! ERR_STS_FIFO_LOST_CNT (R516). -/
def ERR_STS_FIFO_LOST_CNT.COUNT : Fld := ⟨(0xF00088) * 64 + 0, 16, 0⟩
/-! ERR_STS_UNDERRUN_CNT (R516). -/
def ERR_STS_UNDERRUN_CNT.COUNT : Fld := ⟨(0xF00080) * 64 + 0, 16, 0⟩
/-! RLY_STS_FRZDUP_CNT (R536). -/
def RLY_STS_FRZDUP_CNT.COUNT : Fld := ⟨(0x10000D0) * 64 + 0, 16, 0⟩
/-! RLY_STS_HOLDOVER_CNT (R536). -/
def RLY_STS_HOLDOVER_CNT.COUNT : Fld := ⟨(0x10000C8) * 64 + 0, 16, 0⟩
/-! RLY_STS_TSTEP_CNT (R536). -/
def RLY_STS_TSTEP_CNT.COUNT : Fld := ⟨(0x10000C0) * 64 + 0, 16, 0⟩
/-! RLY_STS_SEQ_BELL_CNT (R536). -/
def RLY_STS_SEQ_BELL_CNT.COUNT : Fld := ⟨(0x10000B8) * 64 + 0, 16, 0⟩
/-! RLY_STS_NOPOS_CNT (R536). -/
def RLY_STS_NOPOS_CNT.COUNT : Fld := ⟨(0x10000B0) * 64 + 0, 16, 0⟩
/-! RLY_STS_HOPDROP_CNT (R536). -/
def RLY_STS_HOPDROP_CNT.COUNT : Fld := ⟨(0x10000A8) * 64 + 0, 16, 0⟩
/-! RLY_STS_EPOCHDROP_CNT (R536). -/
def RLY_STS_EPOCHDROP_CNT.COUNT : Fld := ⟨(0x10000A0) * 64 + 0, 16, 0⟩
/-! RLY_STS_AUTHFAIL_CNT (R536). -/
def RLY_STS_AUTHFAIL_CNT.COUNT : Fld := ⟨(0x1000098) * 64 + 0, 16, 0⟩
/-! RLY_STS_STALE_CNT (R536). -/
def RLY_STS_STALE_CNT.COUNT : Fld := ⟨(0x1000090) * 64 + 0, 16, 0⟩
/-! RLY_STS_SYMERR_CNT (R536). -/
def RLY_STS_SYMERR_CNT.COUNT : Fld := ⟨(0x1000088) * 64 + 0, 16, 0⟩
/-! RLY_STS_CRC_CNT (R536). -/
def RLY_STS_CRC_CNT.COUNT : Fld := ⟨(0x1000080) * 64 + 0, 16, 0⟩
/-! DBG_PF_STS_IGN_CNT (R554). -/
def DBG_PF_STS_IGN_CNT.COUNT : Fld := ⟨(0x1100090) * 64 + 0, 16, 0⟩
/-! DBG_PF_STS_DUP_CNT (R554). -/
def DBG_PF_STS_DUP_CNT.COUNT : Fld := ⟨(0x1100088) * 64 + 0, 16, 0⟩
/-! DBG_PF_STS_DONE_CNT (R554). -/
def DBG_PF_STS_DONE_CNT.COUNT : Fld := ⟨(0x1100080) * 64 + 0, 16, 0⟩
/-- Flag DCOR of HOME_STS with its event count (R13, R14). -/
def HOME_STS.fDCOR (i : Nat) : Flag := ⟨HOME_STS.DCOR i, HOME_DCOR_CNT.COUNT i⟩
/-- Flag DECC of HOME_STS with its event count (R13, R14). -/
def HOME_STS.fDECC (i : Nat) : Flag := ⟨HOME_STS.DECC i, HOME_DECC_CNT.COUNT i⟩
/-- Flag LATE of HOME_STS with its event count (R13, R14). -/
def HOME_STS.fLATE (i : Nat) : Flag := ⟨HOME_STS.LATE i, HOME_LATE_CNT.COUNT i⟩
/-- Flag STALE of HOME_STS with its event count (R13, R14). -/
def HOME_STS.fSTALE (i : Nat) : Flag := ⟨HOME_STS.STALE i, HOME_STALE_CNT.COUNT i⟩
/-- Flag TO of HOME_STS with its event count (R13, R14). -/
def HOME_STS.fTO (i : Nat) : Flag := ⟨HOME_STS.TO i, HOME_TO_CNT.COUNT i⟩
/-- Flag LOSS of HMC_STS with its event count (R13, R14). -/
def HMC_STS.fLOSS : Flag := ⟨HMC_STS.LOSS, HMC_LOSS_CNT.COUNT⟩
/-- Flag UNCORR of HMC_STS with its event count (R13, R14). -/
def HMC_STS.fUNCORR : Flag := ⟨HMC_STS.UNCORR, HMC_UNCORR_CNT.COUNT⟩
/-- Flag CORR of HMC_STS with its event count (R13, R14). -/
def HMC_STS.fCORR : Flag := ⟨HMC_STS.CORR, HMC_CORR_CNT.COUNT⟩
/-- Flag CLAMP of MESH_STS with its event count (R13, R14). -/
def MESH_STS.fCLAMP : Flag := ⟨MESH_STS.CLAMP, MESH_STS_CLAMP_CNT.COUNT⟩
/-- Flag GEN_BELL of MESH_STS with its event count (R13, R14). -/
def MESH_STS.fGEN_BELL : Flag := ⟨MESH_STS.GEN_BELL, MESH_STS_GEN_BELL_CNT.COUNT⟩
/-- Flag EPOCH_BELL of MESH_STS with its event count (R13, R14). -/
def MESH_STS.fEPOCH_BELL : Flag := ⟨MESH_STS.EPOCH_BELL, MESH_STS_EPOCH_BELL_CNT.COUNT⟩
/-- Flag UNREACH of MESH_STS with its event count (R13, R14). -/
def MESH_STS.fUNREACH : Flag := ⟨MESH_STS.UNREACH, MESH_STS_UNREACH_CNT.COUNT⟩
/-- Flag LATE of MESH_STS with its event count (R13, R14). -/
def MESH_STS.fLATE : Flag := ⟨MESH_STS.LATE, MESH_STS_LATE_CNT.COUNT⟩
/-- Flag RQTMO of MESH_STS with its event count (R13, R14). -/
def MESH_STS.fRQTMO : Flag := ⟨MESH_STS.RQTMO, MESH_STS_RQTMO_CNT.COUNT⟩
/-- Flag ABSW of MESH_STS with its event count (R13, R14). -/
def MESH_STS.fABSW : Flag := ⟨MESH_STS.ABSW, MESH_STS_ABSW_CNT.COUNT⟩
/-- Flag HDROP of MESH_STS with its event count (R13, R14). -/
def MESH_STS.fHDROP : Flag := ⟨MESH_STS.HDROP, MESH_STS_HDROP_CNT.COUNT⟩
/-- Flag CECC of MESH_STS with its event count (R13, R14). -/
def MESH_STS.fCECC : Flag := ⟨MESH_STS.CECC, MESH_STS_CECC_CNT.COUNT⟩
/-- Flag SEQ_BELL of STR_STS with its event count (R13, R14). -/
def STR_STS.fSEQ_BELL (i : Nat) : Flag := ⟨STR_STS.SEQ_BELL i, STR_STS_SEQ_BELL_CNT.COUNT i⟩
/-- Flag FAIL of STR_STS with its event count (R13, R14). -/
def STR_STS.fFAIL (i : Nat) : Flag := ⟨STR_STS.FAIL i, STR_STS_FAIL_CNT.COUNT i⟩
/-- Flag ATTFAIL of STR_STS with its event count (R13, R14). -/
def STR_STS.fATTFAIL (i : Nat) : Flag := ⟨STR_STS.ATTFAIL i, STR_STS_ATTFAIL_CNT.COUNT i⟩
/-- Flag WCHK of STR_STS with its event count (R13, R14). -/
def STR_STS.fWCHK (i : Nat) : Flag := ⟨STR_STS.WCHK i, STR_STS_WCHK_CNT.COUNT i⟩
/-- Flag REPAIR of STR_STS with its event count (R13, R14). -/
def STR_STS.fREPAIR (i : Nat) : Flag := ⟨STR_STS.REPAIR i, STR_STS_REPAIR_CNT.COUNT i⟩
/-- Flag HDROP of STR_STS with its event count (R13, R14). -/
def STR_STS.fHDROP (i : Nat) : Flag := ⟨STR_STS.HDROP i, STR_STS_HDROP_CNT.COUNT i⟩
/-- Flag REPLAY of STR_STS with its event count (R13, R14). -/
def STR_STS.fREPLAY (i : Nat) : Flag := ⟨STR_STS.REPLAY i, STR_STS_REPLAY_CNT.COUNT i⟩
/-- Flag UNCORR of STR_STS with its event count (R13, R14). -/
def STR_STS.fUNCORR (i : Nat) : Flag := ⟨STR_STS.UNCORR i, STR_STS_UNCORR_CNT.COUNT i⟩
/-- Flag CECC of STR_STS with its event count (R13, R14). -/
def STR_STS.fCECC (i : Nat) : Flag := ⟨STR_STS.CECC i, STR_STS_CECC_CNT.COUNT i⟩
/-- Flag WDROP of MCH_STS with its event count (R13, R14). -/
def MCH_STS.fWDROP (i : Nat) : Flag := ⟨MCH_STS.WDROP i, MCH_STS_WDROP_CNT.COUNT i⟩
/-- Flag FREEZE of MCH_STS with its event count (R13, R14). -/
def MCH_STS.fFREEZE (i : Nat) : Flag := ⟨MCH_STS.FREEZE i, MCH_STS_FREEZE_CNT.COUNT i⟩
/-- Flag PSNRD of MCH_STS with its event count (R13, R14). -/
def MCH_STS.fPSNRD (i : Nat) : Flag := ⟨MCH_STS.PSNRD i, MCH_STS_PSNRD_CNT.COUNT i⟩
/-- Flag RDIST of MCH_STS with its event count (R13, R14). -/
def MCH_STS.fRDIST (i : Nat) : Flag := ⟨MCH_STS.RDIST i, MCH_STS_RDIST_CNT.COUNT i⟩
/-- Flag WCRC of MCH_STS with its event count (R13, R14). -/
def MCH_STS.fWCRC (i : Nat) : Flag := ⟨MCH_STS.WCRC i, MCH_STS_WCRC_CNT.COUNT i⟩
/-- Flag CAPAR of MCH_STS with its event count (R13, R14). -/
def MCH_STS.fCAPAR (i : Nat) : Flag := ⟨MCH_STS.CAPAR i, MCH_STS_CAPAR_CNT.COUNT i⟩
/-- Flag UECC of MCH_STS with its event count (R13, R14). -/
def MCH_STS.fUECC (i : Nat) : Flag := ⟨MCH_STS.UECC i, MCH_STS_UECC_CNT.COUNT i⟩
/-- Flag CECC of MCH_STS with its event count (R13, R14). -/
def MCH_STS.fCECC (i : Nat) : Flag := ⟨MCH_STS.CECC i, MCH_STS_CECC_CNT.COUNT i⟩
/-- Flag WDROP of HBC_STS with its event count (R13, R14). -/
def HBC_STS.fWDROP (i : Nat) : Flag := ⟨HBC_STS.WDROP i, HBC_STS_WDROP_CNT.COUNT i⟩
/-- Flag FREEZE of HBC_STS with its event count (R13, R14). -/
def HBC_STS.fFREEZE (i : Nat) : Flag := ⟨HBC_STS.FREEZE i, HBC_STS_FREEZE_CNT.COUNT i⟩
/-- Flag PSNRD of HBC_STS with its event count (R13, R14). -/
def HBC_STS.fPSNRD (i : Nat) : Flag := ⟨HBC_STS.PSNRD i, HBC_STS_PSNRD_CNT.COUNT i⟩
/-- Flag RDIST of HBC_STS with its event count (R13, R14). -/
def HBC_STS.fRDIST (i : Nat) : Flag := ⟨HBC_STS.RDIST i, HBC_STS_RDIST_CNT.COUNT i⟩
/-- Flag WCRC of HBC_STS with its event count (R13, R14). -/
def HBC_STS.fWCRC (i : Nat) : Flag := ⟨HBC_STS.WCRC i, HBC_STS_WCRC_CNT.COUNT i⟩
/-- Flag CAPAR of HBC_STS with its event count (R13, R14). -/
def HBC_STS.fCAPAR (i : Nat) : Flag := ⟨HBC_STS.CAPAR i, HBC_STS_CAPAR_CNT.COUNT i⟩
/-- Flag UECC of HBC_STS with its event count (R13, R14). -/
def HBC_STS.fUECC (i : Nat) : Flag := ⟨HBC_STS.UECC i, HBC_STS_UECC_CNT.COUNT i⟩
/-- Flag CECC of HBC_STS with its event count (R13, R14). -/
def HBC_STS.fCECC (i : Nat) : Flag := ⟨HBC_STS.CECC i, HBC_STS_CECC_CNT.COUNT i⟩
/-- Flag RSDONE of XCP_STS with its event count (R13, R14). -/
def XCP_STS.fRSDONE : Flag := ⟨XCP_STS.RSDONE, XCP_STS_RSDONE_CNT.COUNT⟩
/-- Flag DUNCORR of XCP_STS with its event count (R13, R14). -/
def XCP_STS.fDUNCORR : Flag := ⟨XCP_STS.DUNCORR, XCP_STS_DUNCORR_CNT.COUNT⟩
/-- Flag DOUBLE of XCP_STS with its event count (R13, R14). -/
def XCP_STS.fDOUBLE : Flag := ⟨XCP_STS.DOUBLE, XCP_STS_DOUBLE_CNT.COUNT⟩
/-- Flag DDROP of XCP_STS with its event count (R13, R14). -/
def XCP_STS.fDDROP : Flag := ⟨XCP_STS.DDROP, XCP_STS_DDROP_CNT.COUNT⟩
/-- Flag DWRITE of XCP_STS with its event count (R13, R14). -/
def XCP_STS.fDWRITE : Flag := ⟨XCP_STS.DWRITE, XCP_STS_DWRITE_CNT.COUNT⟩
/-- Flag RECON of XCP_STS with its event count (R13, R14). -/
def XCP_STS.fRECON : Flag := ⟨XCP_STS.RECON, XCP_STS_RECON_CNT.COUNT⟩
/-- Flag LOCK_LOST of TR_STS with its event count (R13, R14). -/
def TR_STS.fLOCK_LOST (i : Nat) : Flag := ⟨TR_STS.LOCK_LOST i, TR_LOCK_LOST_CNT.COUNT i⟩
/-- Flag IDE of OWN_STS with its event count (R13, R14). -/
def OWN_STS.fIDE : Flag := ⟨OWN_STS.IDE, OWN_STS_IDE_CNT.COUNT⟩
/-- Flag MOT_BAD of OWN_STS with its event count (R13, R14). -/
def OWN_STS.fMOT_BAD : Flag := ⟨OWN_STS.MOT_BAD, OWN_STS_MOT_BAD_CNT.COUNT⟩
/-- Flag REFUSE_DEV of OWN_STS with its event count (R13, R14). -/
def OWN_STS.fREFUSE_DEV : Flag := ⟨OWN_STS.REFUSE_DEV, OWN_STS_REFUSE_DEV_CNT.COUNT⟩
/-- Flag REFUSE_WR of OWN_STS with its event count (R13, R14). -/
def OWN_STS.fREFUSE_WR : Flag := ⟨OWN_STS.REFUSE_WR, OWN_STS_REFUSE_WR_CNT.COUNT⟩
/-- Flag REFUSE_RD of OWN_STS with its event count (R13, R14). -/
def OWN_STS.fREFUSE_RD : Flag := ⟨OWN_STS.REFUSE_RD, OWN_STS_REFUSE_RD_CNT.COUNT⟩
/-- Flag FGEN_BELL of TQE_STS with its event count (R13, R14). -/
def TQE_STS.fFGEN_BELL : Flag := ⟨TQE_STS.FGEN_BELL, TQE_STS_FGEN_BELL_CNT.COUNT⟩
/-- Flag CPLTMO of TQE_STS with its event count (R13, R14). -/
def TQE_STS.fCPLTMO : Flag := ⟨TQE_STS.CPLTMO, TQE_STS_CPLTMO_CNT.COUNT⟩
/-- Flag STALECPL of TQE_STS with its event count (R13, R14). -/
def TQE_STS.fSTALECPL : Flag := ⟨TQE_STS.STALECPL, TQE_STS_STALECPL_CNT.COUNT⟩
/-- Flag BMEDISC of TQE_STS with its event count (R13, R14). -/
def TQE_STS.fBMEDISC : Flag := ⟨TQE_STS.BMEDISC, TQE_STS_BMEDISC_CNT.COUNT⟩
/-- Flag PSNRX of TQE_STS with its event count (R13, R14). -/
def TQE_STS.fPSNRX : Flag := ⟨TQE_STS.PSNRX, TQE_STS_PSNRX_CNT.COUNT⟩
/-- Flag PEERUR of TQE_STS with its event count (R13, R14). -/
def TQE_STS.fPEERUR : Flag := ⟨TQE_STS.PEERUR, TQE_STS_PEERUR_CNT.COUNT⟩
/-- Flag PEERDROP of TQE_STS with its event count (R13, R14). -/
def TQE_STS.fPEERDROP : Flag := ⟨TQE_STS.PEERDROP, TQE_STS_PEERDROP_CNT.COUNT⟩
/-- Flag WINMISS of TQE_STS with its event count (R13, R14). -/
def TQE_STS.fWINMISS : Flag := ⟨TQE_STS.WINMISS, TQE_STS_WINMISS_CNT.COUNT⟩
/-- Flag MSIADDR of TQE_STS with its event count (R13, R14). -/
def TQE_STS.fMSIADDR : Flag := ⟨TQE_STS.MSIADDR, TQE_STS_MSIADDR_CNT.COUNT⟩
/-- Flag EVENT of TQE_INTX with its event count (R13, R14). -/
def TQE_INTX.fEVENT : Flag := ⟨TQE_INTX.EVENT, TQE_INTX_EVENT_CNT.COUNT⟩
/-- Flag QRESET of TQE_ADM_STS with its event count (R13, R14). -/
def TQE_ADM_STS.fQRESET : Flag := ⟨TQE_ADM_STS.QRESET, TQE_ADM_STS_QRESET_CNT.COUNT⟩
/-- Flag UNDERRUN of TQE_ADM_STS with its event count (R13, R14). -/
def TQE_ADM_STS.fUNDERRUN : Flag := ⟨TQE_ADM_STS.UNDERRUN, TQE_ADM_STS_UNDERRUN_CNT.COUNT⟩
/-- Flag OVF of TQE_ADM_STS with its event count (R13, R14). -/
def TQE_ADM_STS.fOVF : Flag := ⟨TQE_ADM_STS.OVF, TQE_ADM_STS_OVF_CNT.COUNT⟩
/-- Flag DBNOP of TQE_RSTS with its event count (R13, R14). -/
def TQE_RSTS.fDBNOP : Flag := ⟨TQE_RSTS.DBNOP, TQE_RSTS_DBNOP_CNT.COUNT⟩
/-- Flag MVRESET of TQE_RSTS with its event count (R13, R14). -/
def TQE_RSTS.fMVRESET : Flag := ⟨TQE_RSTS.MVRESET, TQE_RSTS_MVRESET_CNT.COUNT⟩
/-- Flag PIBACK of TQE_RSTS with its event count (R13, R14). -/
def TQE_RSTS.fPIBACK : Flag := ⟨TQE_RSTS.PIBACK, TQE_RSTS_PIBACK_CNT.COUNT⟩
/-- Flag IDXBELL of TQE_RSTS with its event count (R13, R14). -/
def TQE_RSTS.fIDXBELL : Flag := ⟨TQE_RSTS.IDXBELL, TQE_RSTS_IDXBELL_CNT.COUNT⟩
/-- Flag RINGERR of TQE_RSTS with its event count (R13, R14). -/
def TQE_RSTS.fRINGERR : Flag := ⟨TQE_RSTS.RINGERR, TQE_RSTS_RINGERR_CNT.COUNT⟩
/-- Flag QRESET of VF_ADM_STS with its event count (R13, R14). -/
def VF_ADM_STS.fQRESET (i : Nat) : Flag := ⟨VF_ADM_STS.QRESET i, VF_ADM_STS_QRESET_CNT.COUNT i⟩
/-- Flag UNDERRUN of VF_ADM_STS with its event count (R13, R14). -/
def VF_ADM_STS.fUNDERRUN (i : Nat) : Flag := ⟨VF_ADM_STS.UNDERRUN i, VF_ADM_STS_UNDERRUN_CNT.COUNT i⟩
/-- Flag OVF of VF_ADM_STS with its event count (R13, R14). -/
def VF_ADM_STS.fOVF (i : Nat) : Flag := ⟨VF_ADM_STS.OVF i, VF_ADM_STS_OVF_CNT.COUNT i⟩
/-- Flag LOCKOUT of TQE_KSTS with its event count (R13, R14). -/
def TQE_KSTS.fLOCKOUT : Flag := ⟨TQE_KSTS.LOCKOUT, TQE_KSTS_LOCKOUT_CNT.COUNT⟩
/-- Flag PWRERASE of TQE_KSTS with its event count (R13, R14). -/
def TQE_KSTS.fPWRERASE : Flag := ⟨TQE_KSTS.PWRERASE, TQE_KSTS_PWRERASE_CNT.COUNT⟩
/-- Flag ALARM of TQE_KSTS with its event count (R13, R14). -/
def TQE_KSTS.fALARM : Flag := ⟨TQE_KSTS.ALARM, TQE_KSTS_ALARM_CNT.COUNT⟩
/-- Flag SLOTERR of TQE_KSTS with its event count (R13, R14). -/
def TQE_KSTS.fSLOTERR : Flag := ⟨TQE_KSTS.SLOTERR, TQE_KSTS_SLOTERR_CNT.COUNT⟩
/-- Flag KWFAIL of TQE_KSTS with its event count (R13, R14). -/
def TQE_KSTS.fKWFAIL : Flag := ⟨TQE_KSTS.KWFAIL, TQE_KSTS_KWFAIL_CNT.COUNT⟩
/-- Flag SCRUBSTOP of TQE_KSTS with its event count (R13, R14). -/
def TQE_KSTS.fSCRUBSTOP : Flag := ⟨TQE_KSTS.SCRUBSTOP, TQE_KSTS_SCRUBSTOP_CNT.COUNT⟩
/-- Flag AUTHFAIL of TQE_KSTS with its event count (R13, R14). -/
def TQE_KSTS.fAUTHFAIL : Flag := ⟨TQE_KSTS.AUTHFAIL, TQE_KSTS_AUTHFAIL_CNT.COUNT⟩
/-- Flag VIPERR of PIR_STS with its event count (R13, R14). -/
def PIR_STS.fVIPERR : Flag := ⟨PIR_STS.VIPERR, PIR_STS_VIPERR_CNT.COUNT⟩
/-- Flag UNDELIV of PIR_STS with its event count (R13, R14). -/
def PIR_STS.fUNDELIV : Flag := ⟨PIR_STS.UNDELIV, PIR_STS_UNDELIV_CNT.COUNT⟩
/-- Flag BADTGT of PIR_STS with its event count (R13, R14). -/
def PIR_STS.fBADTGT : Flag := ⟨PIR_STS.BADTGT, PIR_STS_BADTGT_CNT.COUNT⟩
/-- Flag BADMSG of PIR_STS with its event count (R13, R14). -/
def PIR_STS.fBADMSG : Flag := ⟨PIR_STS.BADMSG, PIR_STS_BADMSG_CNT.COUNT⟩
/-- Flag AGEDROP of MBX_STS with its event count (R13, R14). -/
def MBX_STS.fAGEDROP (i : Nat) : Flag := ⟨MBX_STS.AGEDROP i, MBX_STS_AGEDROP_CNT.COUNT i⟩
/-- Flag SNDREF of MBX_STS with its event count (R13, R14). -/
def MBX_STS.fSNDREF (i : Nat) : Flag := ⟨MBX_STS.SNDREF i, MBX_STS_SNDREF_CNT.COUNT i⟩
/-- Flag ROFF of MBX_STS with its event count (R13, R14). -/
def MBX_STS.fROFF (i : Nat) : Flag := ⟨MBX_STS.ROFF i, MBX_STS_ROFF_CNT.COUNT i⟩
/-- Flag QRESET of MBX_STS with its event count (R13, R14). -/
def MBX_STS.fQRESET (i : Nat) : Flag := ⟨MBX_STS.QRESET i, MBX_STS_QRESET_CNT.COUNT i⟩
/-- Flag UNDERRUN of MBX_STS with its event count (R13, R14). -/
def MBX_STS.fUNDERRUN (i : Nat) : Flag := ⟨MBX_STS.UNDERRUN i, MBX_STS_UNDERRUN_CNT.COUNT i⟩
/-- Flag OVF of MBX_STS with its event count (R13, R14). -/
def MBX_STS.fOVF (i : Nat) : Flag := ⟨MBX_STS.OVF i, MBX_STS_OVF_CNT.COUNT i⟩
/-- Flag TXE of MBX_STS with its event count (R13, R14). -/
def MBX_STS.fTXE (i : Nat) : Flag := ⟨MBX_STS.TXE i, MBX_STS_TXE_CNT.COUNT i⟩
/-- Flag DB of MBX_DB with its event count (R13, R14). -/
def MBX_DB.fDB (i j : Nat) : Flag := ⟨MBX_DB.DB i j, MBX_DB_DB_CNT.COUNT i j⟩
/-- Flag MEM_KEPT of PMC_STS with its event count (R13, R14). -/
def PMC_STS.fMEM_KEPT : Flag := ⟨PMC_STS.MEM_KEPT, PMC_STS_MEM_KEPT_CNT.COUNT⟩
/-- Flag CAPMISS of PMC_STS with its event count (R13, R14). -/
def PMC_STS.fCAPMISS : Flag := ⟨PMC_STS.CAPMISS, PMC_STS_CAPMISS_CNT.COUNT⟩
/-- Flag TJHOT of PMC_STS with its event count (R13, R14). -/
def PMC_STS.fTJHOT : Flag := ⟨PMC_STS.TJHOT, PMC_STS_TJHOT_CNT.COUNT⟩
/-- Flag CDU_STALE of PMC_STS with its event count (R13, R14). -/
def PMC_STS.fCDU_STALE : Flag := ⟨PMC_STS.CDU_STALE, PMC_STS_CDU_STALE_CNT.COUNT⟩
/-- Flag FLOWTHR of PMC_STS with its event count (R13, R14). -/
def PMC_STS.fFLOWTHR : Flag := ⟨PMC_STS.FLOWTHR, PMC_STS_FLOWTHR_CNT.COUNT⟩
/-- Flag ONBATT of PMC_STS with its event count (R13, R14). -/
def PMC_STS.fONBATT : Flag := ⟨PMC_STS.ONBATT, PMC_STS_ONBATT_CNT.COUNT⟩
/-- Flag INS_OVF of CCNT_STS with its event count (R13, R14). -/
def CCNT_STS.fINS_OVF (i : Nat) : Flag := ⟨CCNT_STS.INS_OVF i, CCNT_STS_INS_OVF_CNT.COUNT i⟩
/-- Flag CYC_OVF of CCNT_STS with its event count (R13, R14). -/
def CCNT_STS.fCYC_OVF (i : Nat) : Flag := ⟨CCNT_STS.CYC_OVF i, CCNT_STS_CYC_OVF_CNT.COUNT i⟩
/-- Flag OVF of CCNT_STS with its event count (R13, R14). -/
def CCNT_STS.fOVF (i j : Nat) : Flag := ⟨CCNT_STS.OVF i j, CCNT_STS_OVF_CNT.COUNT i j⟩
/-- Flag SEQ_BELL of SPL_STS with its event count (R13, R14). -/
def SPL_STS.fSEQ_BELL : Flag := ⟨SPL_STS.SEQ_BELL, SPL_STS_SEQ_BELL_CNT.COUNT⟩
/-- Flag STRAY of SPL_STS with its event count (R13, R14). -/
def SPL_STS.fSTRAY : Flag := ⟨SPL_STS.STRAY, SPL_STS_STRAY_CNT.COUNT⟩
/-- Flag RINGERR of SPL_STS with its event count (R13, R14). -/
def SPL_STS.fRINGERR : Flag := ⟨SPL_STS.RINGERR, SPL_STS_RINGERR_CNT.COUNT⟩
/-- Flag LOST of SPL_STS with its event count (R13, R14). -/
def SPL_STS.fLOST : Flag := ⟨SPL_STS.LOST, SPL_STS_LOST_CNT.COUNT⟩
/-- Flag T1 of SPL_STS with its event count (R13, R14). -/
def SPL_STS.fT1 : Flag := ⟨SPL_STS.T1, SPL_STS_T1_CNT.COUNT⟩
/-- Flag ALM_SUPP of ERR_STS with its event count (R13, R14). -/
def ERR_STS.fALM_SUPP : Flag := ⟨ERR_STS.ALM_SUPP, ERR_STS_ALM_SUPP_CNT.COUNT⟩
/-- Flag COAL_EVICT of ERR_STS with its event count (R13, R14). -/
def ERR_STS.fCOAL_EVICT : Flag := ⟨ERR_STS.COAL_EVICT, ERR_STS_COAL_EVICT_CNT.COUNT⟩
/-- Flag SEQ_BELL of ERR_STS with its event count (R13, R14). -/
def ERR_STS.fSEQ_BELL : Flag := ⟨ERR_STS.SEQ_BELL, ERR_STS_SEQ_BELL_CNT.COUNT⟩
/-- Flag RINGERR of ERR_STS with its event count (R13, R14). -/
def ERR_STS.fRINGERR : Flag := ⟨ERR_STS.RINGERR, ERR_STS_RINGERR_CNT.COUNT⟩
/-- Flag RING_LOST of ERR_STS with its event count (R13, R14). -/
def ERR_STS.fRING_LOST : Flag := ⟨ERR_STS.RING_LOST, ERR_STS_RING_LOST_CNT.COUNT⟩
/-- Flag FIFO_LOST of ERR_STS with its event count (R13, R14). -/
def ERR_STS.fFIFO_LOST : Flag := ⟨ERR_STS.FIFO_LOST, ERR_STS_FIFO_LOST_CNT.COUNT⟩
/-- Flag UNDERRUN of ERR_STS with its event count (R13, R14). -/
def ERR_STS.fUNDERRUN : Flag := ⟨ERR_STS.UNDERRUN, ERR_STS_UNDERRUN_CNT.COUNT⟩
/-- Flag FRZDUP of RLY_STS with its event count (R13, R14). -/
def RLY_STS.fFRZDUP : Flag := ⟨RLY_STS.FRZDUP, RLY_STS_FRZDUP_CNT.COUNT⟩
/-- Flag HOLDOVER of RLY_STS with its event count (R13, R14). -/
def RLY_STS.fHOLDOVER : Flag := ⟨RLY_STS.HOLDOVER, RLY_STS_HOLDOVER_CNT.COUNT⟩
/-- Flag TSTEP of RLY_STS with its event count (R13, R14). -/
def RLY_STS.fTSTEP : Flag := ⟨RLY_STS.TSTEP, RLY_STS_TSTEP_CNT.COUNT⟩
/-- Flag SEQ_BELL of RLY_STS with its event count (R13, R14). -/
def RLY_STS.fSEQ_BELL : Flag := ⟨RLY_STS.SEQ_BELL, RLY_STS_SEQ_BELL_CNT.COUNT⟩
/-- Flag NOPOS of RLY_STS with its event count (R13, R14). -/
def RLY_STS.fNOPOS : Flag := ⟨RLY_STS.NOPOS, RLY_STS_NOPOS_CNT.COUNT⟩
/-- Flag HOPDROP of RLY_STS with its event count (R13, R14). -/
def RLY_STS.fHOPDROP : Flag := ⟨RLY_STS.HOPDROP, RLY_STS_HOPDROP_CNT.COUNT⟩
/-- Flag EPOCHDROP of RLY_STS with its event count (R13, R14). -/
def RLY_STS.fEPOCHDROP : Flag := ⟨RLY_STS.EPOCHDROP, RLY_STS_EPOCHDROP_CNT.COUNT⟩
/-- Flag AUTHFAIL of RLY_STS with its event count (R13, R14). -/
def RLY_STS.fAUTHFAIL : Flag := ⟨RLY_STS.AUTHFAIL, RLY_STS_AUTHFAIL_CNT.COUNT⟩
/-- Flag STALE of RLY_STS with its event count (R13, R14). -/
def RLY_STS.fSTALE : Flag := ⟨RLY_STS.STALE, RLY_STS_STALE_CNT.COUNT⟩
/-- Flag SYMERR of RLY_STS with its event count (R13, R14). -/
def RLY_STS.fSYMERR : Flag := ⟨RLY_STS.SYMERR, RLY_STS_SYMERR_CNT.COUNT⟩
/-- Flag CRC of RLY_STS with its event count (R13, R14). -/
def RLY_STS.fCRC : Flag := ⟨RLY_STS.CRC, RLY_STS_CRC_CNT.COUNT⟩
/-- Flag IGN of DBG_PF_STS with its event count (R13, R14). -/
def DBG_PF_STS.fIGN : Flag := ⟨DBG_PF_STS.IGN, DBG_PF_STS_IGN_CNT.COUNT⟩
/-- Flag DUP of DBG_PF_STS with its event count (R13, R14). -/
def DBG_PF_STS.fDUP : Flag := ⟨DBG_PF_STS.DUP, DBG_PF_STS_DUP_CNT.COUNT⟩
/-- Flag DONE of DBG_PF_STS with its event count (R13, R14). -/
def DBG_PF_STS.fDONE : Flag := ⟨DBG_PF_STS.DONE, DBG_PF_STS_DONE_CNT.COUNT⟩
/-- Flag OVF of UCNT_HOME_STS with its event count (R13, R14). -/
def UCNT_HOME_STS.fOVF (i j : Nat) : Flag := ⟨UCNT_HOME_STS.OVF i j, UCNT_HOME_OVF_CNT.COUNT i j⟩
/-- Flag OVF of UCNT_HMC_STS with its event count (R13, R14). -/
def UCNT_HMC_STS.fOVF (i : Nat) : Flag := ⟨UCNT_HMC_STS.OVF i, UCNT_HMC_OVF_CNT.COUNT i⟩
/-- Flag OVF of UCNT_MESH_STS with its event count (R13, R14). -/
def UCNT_MESH_STS.fOVF (i : Nat) : Flag := ⟨UCNT_MESH_STS.OVF i, UCNT_MESH_OVF_CNT.COUNT i⟩
/-- Flag OVF of UCNT_STR_STS with its event count (R13, R14). -/
def UCNT_STR_STS.fOVF (i j : Nat) : Flag := ⟨UCNT_STR_STS.OVF i j, UCNT_STR_OVF_CNT.COUNT i j⟩
/-- Flag OVF of UCNT_MCH_STS with its event count (R13, R14). -/
def UCNT_MCH_STS.fOVF (i j : Nat) : Flag := ⟨UCNT_MCH_STS.OVF i j, UCNT_MCH_OVF_CNT.COUNT i j⟩
/-- Flag OVF of UCNT_HBC_STS with its event count (R13, R14). -/
def UCNT_HBC_STS.fOVF (i j : Nat) : Flag := ⟨UCNT_HBC_STS.OVF i j, UCNT_HBC_OVF_CNT.COUNT i j⟩
/-- Flag OVF of UCNT_XCP_STS with its event count (R13, R14). -/
def UCNT_XCP_STS.fOVF (i : Nat) : Flag := ⟨UCNT_XCP_STS.OVF i, UCNT_XCP_OVF_CNT.COUNT i⟩
/-- Flag OVF of UCNT_TQE_STS with its event count (R13, R14). -/
def UCNT_TQE_STS.fOVF (i : Nat) : Flag := ⟨UCNT_TQE_STS.OVF i, UCNT_TQE_OVF_CNT.COUNT i⟩
/-- Flag OVF of UCNT_SPL_STS with its event count (R13, R14). -/
def UCNT_SPL_STS.fOVF (i : Nat) : Flag := ⟨UCNT_SPL_STS.OVF i, UCNT_SPL_OVF_CNT.COUNT i⟩
/-- Flag FLR of MBV_STS with its event count (R13, R14). -/
def MBV_STS.fFLR (i : Nat) : Flag := ⟨MBV_STS.FLR i, MBV_STS_FLR_CNT.COUNT i⟩
/-- Flag OVF of MBV_STS with its event count (R13, R14). -/
def MBV_STS.fOVF (i : Nat) : Flag := ⟨MBV_STS.OVF i, MBV_STS_OVF_CNT.COUNT i⟩
/-- Flag ACK of MBV_STS with its event count (R13, R14). -/
def MBV_STS.fACK (i : Nat) : Flag := ⟨MBV_STS.ACK i, MBV_STS_ACK_CNT.COUNT i⟩
/-- Flag IN_FULL of MBV_STS with its event count (R13, R14). -/
def MBV_STS.fIN_FULL (i : Nat) : Flag := ⟨MBV_STS.IN_FULL i, MBV_STS_IN_FULL_CNT.COUNT i⟩
/-- Flag FLR of MBP_STS with its event count (R13, R14). -/
def MBP_STS.fFLR (i : Nat) : Flag := ⟨MBP_STS.FLR i, MBP_STS_FLR_CNT.COUNT i⟩
/-- Flag OVF of MBP_STS with its event count (R13, R14). -/
def MBP_STS.fOVF (i : Nat) : Flag := ⟨MBP_STS.OVF i, MBP_STS_OVF_CNT.COUNT i⟩
/-- Flag ACK of MBP_STS with its event count (R13, R14). -/
def MBP_STS.fACK (i : Nat) : Flag := ⟨MBP_STS.ACK i, MBP_STS_ACK_CNT.COUNT i⟩
/-- Flag IN_FULL of MBP_STS with its event count (R13, R14). -/
def MBP_STS.fIN_FULL (i : Nat) : Flag := ⟨MBP_STS.IN_FULL i, MBP_STS_IN_FULL_CNT.COUNT i⟩

end Sys2Proof.Machine
end

