-- ==== Sys2Proof/Machine/RegMap.lean ====
section
/-!
DEFINITION. The register map (R10, R44): every register with its address, width, and its fields with their types
(R6), reset values and reserved encodings (R8), as the spec's register tables give them.
-/
namespace Sys2Proof.Machine

/-- Registers of the HUB block, part 1. -/
def regsHub1 : List RegD := [
  ⟨"HUB_ID", 0x100000, 1, 0x0, 1, 0x0, 64, false, none,
    [⟨48, 16, .ro, 23836, []⟩, ⟨32, 16, .ro, 29320, []⟩, ⟨24, 8, .ro, 4, []⟩, ⟨16, 8, .ro, 177, []⟩]⟩,
  ⟨"HUB_POP", 0x100008, 1, 0x0, 1, 0x0, 32, false, none,
    [⟨16, 4, .ro, 4, []⟩, ⟨12, 4, .ro, 15, []⟩, ⟨0, 12, .ro, 0, []⟩]⟩,
  ⟨"HUB_PKG_MODE", 0x100010, 1, 0x0, 1, 0x0, 32, false, none,
    [⟨4, 3, .ro, 0, []⟩, ⟨0, 3, .ro, 1, []⟩]⟩,
  ⟨"HUB_AGENT_STATE", 0x100100, 1, 0x0, 1, 0x0, 32, false, none,
    [⟨0, 2, .ro, 3, []⟩, ⟨2, 2, .ro, 3, []⟩, ⟨4, 2, .ro, 3, []⟩, ⟨6, 2, .ro, 3, []⟩,
     ⟨8, 2, .ro, 3, []⟩, ⟨10, 2, .ro, 3, []⟩, ⟨12, 2, .ro, 3, []⟩, ⟨14, 2, .ro, 3, []⟩,
     ⟨16, 2, .ro, 3, []⟩, ⟨18, 2, .ro, 3, []⟩, ⟨20, 2, .ro, 3, []⟩, ⟨22, 2, .ro, 3, []⟩,
     ⟨24, 2, .ro, 3, []⟩, ⟨26, 2, .ro, 3, []⟩, ⟨28, 2, .ro, 3, []⟩, ⟨30, 2, .ro, 3, []⟩]⟩,
  ⟨"HUB_VMPV_SEL", 0x100200, 1, 0x0, 1, 0x0, 32, false, none,
    [⟨0, 16, .rw, 0, []⟩]⟩,
  ⟨"HUB_VMPV", 0x100208, 1, 0x0, 1, 0x0, 32, false, none,
    [⟨0, 12, .ro, 0, []⟩]⟩,
  ⟨"HUB_BOOT", 0x100020, 1, 0x0, 1, 0x0, 32, false, none,
    [⟨24, 8, .ro, 0, []⟩, ⟨1, 1, .ro, 0, []⟩, ⟨0, 1, .wo, 0, []⟩]⟩,
  ⟨"HUB_RST", 0x100028, 1, 0x0, 1, 0x0, 32, false, none,
    [⟨8, 4, .wo, 0, []⟩, ⟨0, 4, .wo, 0, []⟩]⟩,
  ⟨"HUB_RST_STS", 0x100030, 1, 0x0, 1, 0x0, 64, false, none,
    [⟨56, 8, .ro, 0, []⟩, ⟨32, 1, .ro, 0, []⟩, ⟨0, 32, .ro, 0, []⟩]⟩,
  ⟨"SB_CTL", 0x100300, 16, 0x8, 1, 0x0, 32, false, none,
    [⟨8, 1, .ro, 0, []⟩, ⟨3, 1, .rw, 0, []⟩, ⟨2, 1, .rw, 0, []⟩, ⟨1, 1, .rw, 0, []⟩,
     ⟨0, 1, .rw, 0, []⟩]⟩,
  ⟨"HUB_CXLWIN", 0x100400, 16, 0x8, 1, 0x0, 64, false, some (0, 63),
    [⟨63, 1, .rwl, 0, []⟩, ⟨62, 1, .rwl, 0, []⟩, ⟨60, 2, .rwl, 0, [(0, 2)]⟩, ⟨59, 1, .rwl, 0, []⟩,
     ⟨36, 12, .rwl, 0, []⟩, ⟨0, 17, .rwl, 0, []⟩]⟩]

/-- Registers of the SYS block, part 1. -/
def regsSys1 : List RegD := [
  ⟨"MATTR", 0x100002000, 288, 0x10000, 1, 0x0, 64, false, none,
    [⟨56, 3, .rw, 0, [(0, 3)]⟩, ⟨48, 3, .rw, 0, [(0, 3)]⟩, ⟨40, 3, .rw, 0, [(0, 3)]⟩, ⟨32, 3, .rw, 0, [(0, 3)]⟩,
     ⟨24, 3, .rw, 0, [(0, 3)]⟩, ⟨16, 3, .rw, 0, [(0, 3)]⟩, ⟨8, 3, .rw, 0, [(0, 3)]⟩, ⟨0, 3, .rw, 0, [(0, 3)]⟩]⟩,
  ⟨"CACHE_CTL", 0x100002010, 288, 0x10000, 1, 0x0, 64, false, none,
    [⟨8, 4, .rw, 4, [(1, 15)]⟩, ⟨2, 1, .rw, 0, []⟩, ⟨1, 1, .rw, 1, []⟩, ⟨0, 1, .rw, 1, []⟩]⟩,
  ⟨"TT_CTL", 0x100001000, 288, 0x10000, 1, 0x0, 64, false, none,
    [⟨32, 16, .rw, 0, []⟩, ⟨0, 1, .rw, 0, []⟩]⟩,
  ⟨"VM_CTL", 0x100001100, 288, 0x10000, 1, 0x0, 64, false, none,
    [⟨48, 4, .rw, 0, []⟩, ⟨32, 16, .rw, 0, []⟩, ⟨17, 1, .rw, 0, []⟩, ⟨16, 1, .rw, 0, []⟩,
     ⟨0, 16, .rw, 0, []⟩]⟩,
  ⟨"VM_DESC", 0x100001108, 288, 0x10000, 1, 0x0, 64, false, none,
    [⟨10, 42, .rw, 0, []⟩]⟩,
  ⟨"JR_STS", 0x100001110, 288, 0x10000, 1, 0x0, 64, false, none,
    [⟨32, 1, .ro, 0, []⟩, ⟨16, 16, .ro, 0, []⟩, ⟨0, 16, .ro, 0, []⟩]⟩,
  ⟨"TR_STS", 0x100001060, 288, 0x10000, 1, 0x0, 64, false, none,
    [⟨8, 4, .ro, 0, []⟩, ⟨0, 1, .w1c, 0, []⟩]⟩,
  ⟨"TT_ROOT0", 0x100001008, 288, 0x10000, 1, 0x0, 64, false, none,
    [⟨12, 40, .rw, 0, []⟩]⟩,
  ⟨"TT_ROOT1", 0x100001010, 288, 0x10000, 1, 0x0, 64, false, none,
    [⟨12, 40, .rw, 0, []⟩]⟩,
  ⟨"TR_FSYN_S", 0x100001040, 288, 0x10000, 1, 0x0, 64, false, none,
    [⟨16, 8, .rw, 0, []⟩, ⟨12, 4, .rw, 0, []⟩, ⟨11, 1, .rw, 0, []⟩, ⟨10, 1, .rw, 0, []⟩,
     ⟨8, 2, .rw, 0, []⟩, ⟨6, 2, .rw, 0, []⟩, ⟨0, 6, .rw, 0, []⟩]⟩,
  ⟨"TR_FVA_S", 0x100001048, 288, 0x10000, 1, 0x0, 64, false, none,
    [⟨0, 64, .rw, 0, []⟩]⟩,
  ⟨"TR_FADDR_S", 0x100001050, 288, 0x10000, 1, 0x0, 64, false, none,
    [⟨0, 64, .rw, 0, []⟩]⟩]

/-- Registers of the SYS block, part 2. -/
def regsSys2 : List RegD := [
  ⟨"TR_FSYN_H", 0x100001140, 288, 0x10000, 1, 0x0, 64, false, none,
    [⟨16, 8, .rw, 0, []⟩, ⟨12, 4, .rw, 0, []⟩, ⟨11, 1, .rw, 0, []⟩, ⟨10, 1, .rw, 0, []⟩,
     ⟨8, 2, .rw, 0, []⟩, ⟨6, 2, .rw, 0, []⟩, ⟨0, 6, .rw, 0, []⟩]⟩,
  ⟨"TR_FVA_H", 0x100001148, 288, 0x10000, 1, 0x0, 64, false, none,
    [⟨0, 64, .rw, 0, []⟩]⟩,
  ⟨"TR_FADDR_H", 0x100001150, 288, 0x10000, 1, 0x0, 64, false, none,
    [⟨0, 64, .rw, 0, []⟩]⟩,
  ⟨"TR_FSYN_W", 0x100001240, 288, 0x10000, 1, 0x0, 64, false, none,
    [⟨16, 8, .rw, 0, []⟩, ⟨12, 4, .rw, 0, []⟩, ⟨11, 1, .rw, 0, []⟩, ⟨10, 1, .rw, 0, []⟩,
     ⟨8, 2, .rw, 0, []⟩, ⟨6, 2, .rw, 0, []⟩, ⟨0, 6, .rw, 0, []⟩]⟩,
  ⟨"TR_FVA_W", 0x100001248, 288, 0x10000, 1, 0x0, 64, false, none,
    [⟨0, 64, .rw, 0, []⟩]⟩,
  ⟨"TR_FADDR_W", 0x100001250, 288, 0x10000, 1, 0x0, 64, false, none,
    [⟨0, 64, .rw, 0, []⟩]⟩,
  ⟨"TR_LOCK_LOST_CNT", 0x100001068, 288, 0x10000, 1, 0x0, 64, false, none,
    [⟨0, 16, .cnt, 0, []⟩]⟩,
  ⟨"WCTL", 0x100006000, 288, 0x10000, 1, 0x0, 64, false, none,
    [⟨2, 2, .rw, 0, [(0, 2)]⟩, ⟨1, 1, .rw, 0, []⟩, ⟨0, 1, .ro, 1, []⟩]⟩,
  ⟨"INT_STATE", 0x100004000, 288, 0x10000, 1, 0x0, 64, false, none,
    [⟨16, 4, .rw, 0, []⟩, ⟨0, 16, .rw, 0, []⟩]⟩,
  ⟨"INT_ACK", 0x100004008, 288, 0x10000, 1, 0x0, 64, false, none,
    [⟨8, 1, .ro, 0, []⟩, ⟨0, 8, .ro, 0, []⟩]⟩,
  ⟨"INT_EOI", 0x100004010, 288, 0x10000, 1, 0x0, 64, false, none,
    [⟨0, 64, .wo, 0, []⟩]⟩,
  ⟨"INT_IPI", 0x100004020, 288, 0x10000, 1, 0x0, 64, false, none,
    [⟨24, 1, .wo, 0, []⟩, ⟨16, 8, .wo, 0, []⟩, ⟨0, 9, .wo, 0, []⟩]⟩]

/-- Registers of the SYS block, part 3. -/
def regsSys3 : List RegD := [
  ⟨"VIP_CTL", 0x100004040, 288, 0x10000, 1, 0x0, 64, false, none,
    [⟨9, 43, .rw, 0, []⟩, ⟨1, 8, .rw, 0, []⟩, ⟨0, 1, .rw, 0, []⟩]⟩,
  ⟨"CCNT_CYC", 0x100003000, 288, 0x10000, 1, 0x0, 64, false, none,
    [⟨0, 64, .rw, 0, []⟩]⟩,
  ⟨"CCNT_INS", 0x100003008, 288, 0x10000, 1, 0x0, 64, false, none,
    [⟨0, 64, .rw, 0, []⟩]⟩,
  ⟨"CCNT_SEL", 0x100003100, 288, 0x10000, 6, 0x8, 64, false, none,
    [⟨63, 1, .rw, 0, []⟩, ⟨62, 1, .rw, 0, []⟩, ⟨61, 1, .rw, 0, []⟩, ⟨60, 1, .rw, 0, []⟩,
     ⟨59, 1, .rw, 0, []⟩, ⟨0, 8, .rw, 0, []⟩]⟩,
  ⟨"CCNT", 0x100003180, 288, 0x10000, 6, 0x8, 64, false, none,
    [⟨0, 48, .rw, 0, []⟩]⟩,
  ⟨"CCNT_STS", 0x100003200, 288, 0x10000, 1, 0x0, 64, false, none,
    [⟨7, 1, .w1c, 0, []⟩, ⟨6, 1, .w1c, 0, []⟩, ⟨0, 1, .w1c, 0, []⟩, ⟨1, 1, .w1c, 0, []⟩,
     ⟨2, 1, .w1c, 0, []⟩, ⟨3, 1, .w1c, 0, []⟩, ⟨4, 1, .w1c, 0, []⟩, ⟨5, 1, .w1c, 0, []⟩]⟩,
  ⟨"CCNT_CTL", 0x100003208, 288, 0x10000, 1, 0x0, 64, false, none,
    [⟨16, 8, .rw, 16, [(16, 255)]⟩, ⟨8, 1, .rw, 0, []⟩, ⟨1, 1, .rw, 0, []⟩, ⟨0, 1, .rw, 0, []⟩]⟩,
  ⟨"CCNT_STS_INS_OVF_CNT", 0x100003278, 288, 0x10000, 1, 0x0, 64, false, none,
    [⟨0, 16, .cnt, 0, []⟩]⟩,
  ⟨"CCNT_STS_CYC_OVF_CNT", 0x100003270, 288, 0x10000, 1, 0x0, 64, false, none,
    [⟨0, 16, .cnt, 0, []⟩]⟩,
  ⟨"CCNT_STS_OVF_CNT", 0x100003240, 288, 0x10000, 6, 0x8, 64, false, none,
    [⟨0, 16, .cnt, 0, []⟩]⟩]

/-- Registers of the HOME block, part 1. -/
def regsHome1 : List RegD := [
  ⟨"HOME_CTL", 0x200000, 32, 0x10000, 1, 0x0, 32, false, none,
    [⟨16, 1, .ro, 0, []⟩, ⟨8, 1, .rw, 1, []⟩, ⟨0, 4, .ro, 0, []⟩]⟩,
  ⟨"HOME_TMO", 0x200008, 32, 0x10000, 1, 0x0, 32, false, some (0, 31),
    [⟨31, 1, .rwl, 0, []⟩, ⟨0, 10, .rwl, 20, [(1, 1000)]⟩]⟩,
  ⟨"HOME_STS", 0x200010, 32, 0x10000, 1, 0x0, 32, false, none,
    [⟨4, 1, .w1c, 0, []⟩, ⟨3, 1, .w1c, 0, []⟩, ⟨2, 1, .w1c, 0, []⟩, ⟨1, 1, .w1c, 0, []⟩,
     ⟨0, 1, .w1c, 0, []⟩]⟩,
  ⟨"HOME_TO_CNT", 0x200020, 32, 0x10000, 1, 0x0, 32, false, none,
    [⟨0, 16, .cnt, 0, []⟩]⟩,
  ⟨"HOME_STALE_CNT", 0x200028, 32, 0x10000, 1, 0x0, 32, false, none,
    [⟨0, 16, .cnt, 0, []⟩]⟩,
  ⟨"HOME_LATE_CNT", 0x200030, 32, 0x10000, 1, 0x0, 32, false, none,
    [⟨0, 16, .cnt, 0, []⟩]⟩,
  ⟨"HOME_DECC_CNT", 0x200038, 32, 0x10000, 1, 0x0, 32, false, none,
    [⟨0, 16, .cnt, 0, []⟩]⟩,
  ⟨"HOME_DCOR_CNT", 0x200048, 32, 0x10000, 1, 0x0, 32, false, none,
    [⟨0, 16, .cnt, 0, []⟩]⟩,
  ⟨"HOME_TO_LOG", 0x200040, 32, 0x10000, 1, 0x0, 64, false, none,
    [⟨60, 4, .ro, 0, []⟩, ⟨54, 6, .ro, 0, []⟩, ⟨0, 46, .ro, 0, []⟩]⟩,
  ⟨"HOME_OCC", 0x200050, 32, 0x10000, 1, 0x0, 32, false, none,
    [⟨0, 19, .ro, 0, []⟩]⟩,
  ⟨"UCNT_HOME_SEL", 0x20F000, 32, 0x10000, 4, 0x8, 64, false, none,
    [⟨63, 1, .rw, 0, []⟩, ⟨62, 1, .rw, 0, []⟩, ⟨61, 1, .rw, 0, []⟩, ⟨57, 1, .rw, 0, []⟩,
     ⟨56, 1, .rw, 0, []⟩, ⟨40, 16, .rw, 0, []⟩, ⟨36, 4, .rw, 0, []⟩, ⟨20, 12, .rw, 0, []⟩,
     ⟨8, 8, .rw, 0, []⟩, ⟨0, 8, .rw, 0, []⟩]⟩,
  ⟨"UCNT_HOME", 0x20F020, 32, 0x10000, 4, 0x8, 64, false, none,
    [⟨0, 48, .rw, 0, []⟩]⟩]

/-- Registers of the HOME block, part 2. -/
def regsHome2 : List RegD := [
  ⟨"UCNT_HOME_STS", 0x20F040, 32, 0x10000, 1, 0x0, 32, false, none,
    [⟨0, 1, .w1c, 0, []⟩, ⟨1, 1, .w1c, 0, []⟩, ⟨2, 1, .w1c, 0, []⟩, ⟨3, 1, .w1c, 0, []⟩]⟩,
  ⟨"UCNT_HOME_OVF_CNT", 0x20F080, 32, 0x10000, 4, 0x8, 32, false, none,
    [⟨0, 16, .cnt, 0, []⟩]⟩]

/-- Registers of the HMC block, part 1. -/
def regsHmc1 : List RegD := [
  ⟨"HMC_CTL", 0x400000, 1, 0x0, 1, 0x0, 32, false, none,
    [⟨3, 1, .rw, 1, []⟩, ⟨2, 1, .rw, 1, []⟩, ⟨1, 1, .rw, 1, []⟩, ⟨0, 1, .rw, 1, []⟩]⟩,
  ⟨"HMC_CMD", 0x400008, 1, 0x0, 1, 0x0, 32, false, none,
    [⟨8, 2, .wo, 0, []⟩, ⟨0, 4, .wo, 0, []⟩]⟩,
  ⟨"HMC_STATE", 0x400010, 1, 0x0, 1, 0x0, 32, false, none,
    [⟨24, 8, .ro, 0, []⟩, ⟨16, 1, .ro, 0, []⟩, ⟨4, 3, .ro, 0, []⟩, ⟨0, 3, .ro, 0, []⟩]⟩,
  ⟨"HMC_STS", 0x400018, 1, 0x0, 1, 0x0, 32, false, none,
    [⟨2, 1, .w1c, 0, []⟩, ⟨1, 1, .w1c, 0, []⟩, ⟨0, 1, .w1c, 0, []⟩]⟩,
  ⟨"HMC_LOSS_CNT", 0x400020, 1, 0x0, 1, 0x0, 32, false, none,
    [⟨0, 16, .cnt, 0, []⟩]⟩,
  ⟨"HMC_UNCORR_CNT", 0x400028, 1, 0x0, 1, 0x0, 32, false, none,
    [⟨0, 16, .cnt, 0, []⟩]⟩,
  ⟨"HMC_CORR_CNT", 0x400030, 1, 0x0, 1, 0x0, 32, false, none,
    [⟨0, 16, .cnt, 0, []⟩]⟩,
  ⟨"HMC_DIRTY", 0x400040, 1, 0x0, 1, 0x0, 64, false, none,
    [⟨32, 21, .ro, 0, []⟩, ⟨0, 21, .ro, 0, []⟩]⟩,
  ⟨"HMC_WAYMASK", 0x400100, 16, 0x8, 1, 0x0, 32, false, none,
    [⟨0, 16, .rw, 65535, []⟩]⟩,
  ⟨"HMC_SEED", 0x400200, 32, 0x8, 1, 0x0, 32, false, none,
    [⟨0, 32, .wo, 0, []⟩]⟩,
  ⟨"UCNT_HMC_SEL", 0x40F000, 4, 0x8, 1, 0x0, 64, false, none,
    [⟨63, 1, .rw, 0, []⟩, ⟨62, 1, .rw, 0, []⟩, ⟨61, 1, .rw, 0, []⟩, ⟨57, 1, .rw, 0, []⟩,
     ⟨56, 1, .rw, 0, []⟩, ⟨40, 16, .rw, 0, []⟩, ⟨36, 4, .rw, 0, []⟩, ⟨20, 12, .rw, 0, []⟩,
     ⟨8, 8, .rw, 0, []⟩, ⟨0, 8, .rw, 0, []⟩]⟩,
  ⟨"UCNT_HMC", 0x40F020, 4, 0x8, 1, 0x0, 64, false, none,
    [⟨0, 48, .rw, 0, []⟩]⟩]

/-- Registers of the HMC block, part 2. -/
def regsHmc2 : List RegD := [
  ⟨"UCNT_HMC_STS", 0x40F040, 1, 0x0, 1, 0x0, 32, false, none,
    [⟨0, 1, .w1c, 0, []⟩, ⟨1, 1, .w1c, 0, []⟩, ⟨2, 1, .w1c, 0, []⟩, ⟨3, 1, .w1c, 0, []⟩]⟩,
  ⟨"UCNT_HMC_OVF_CNT", 0x40F080, 4, 0x8, 1, 0x0, 32, false, none,
    [⟨0, 16, .cnt, 0, []⟩]⟩]

/-- Registers of the MESH block, part 1. -/
def regsMesh1 : List RegD := [
  ⟨"MESH_CTL", 0x500000, 1, 0x0, 1, 0x0, 32, false, none,
    [⟨0, 1, .rw, 1, []⟩]⟩,
  ⟨"MESH_EPOCH", 0x500008, 1, 0x0, 1, 0x0, 32, false, none,
    [⟨16, 16, .ro, 0, []⟩, ⟨0, 16, .ro, 0, []⟩]⟩,
  ⟨"MESH_DEADRTR", 0x500010, 1, 0x0, 1, 0x0, 64, false, none,
    [⟨0, 64, .ro, 0, []⟩]⟩,
  ⟨"MESH_RECFG", 0x500018, 1, 0x0, 1, 0x0, 32, false, none,
    [⟨8, 4, .wo, 0, []⟩, ⟨0, 6, .wo, 0, []⟩]⟩,
  ⟨"MESH_RECFG_STS", 0x500020, 1, 0x0, 1, 0x0, 32, false, none,
    [⟨24, 8, .ro, 0, []⟩, ⟨16, 1, .ro, 0, []⟩, ⟨8, 3, .ro, 0, []⟩, ⟨0, 6, .ro, 0, []⟩]⟩,
  ⟨"MESH_STS", 0x500028, 1, 0x0, 1, 0x0, 32, false, none,
    [⟨8, 1, .w1c, 0, []⟩, ⟨7, 1, .w1c, 0, []⟩, ⟨6, 1, .w1c, 0, []⟩, ⟨5, 1, .w1c, 0, []⟩,
     ⟨4, 1, .w1c, 0, []⟩, ⟨3, 1, .w1c, 0, []⟩, ⟨2, 1, .w1c, 0, []⟩, ⟨1, 1, .w1c, 0, []⟩,
     ⟨0, 1, .w1c, 0, []⟩]⟩,
  ⟨"MESH_RQ_TMO", 0x500080, 1, 0x0, 1, 0x0, 32, false, some (0, 31),
    [⟨31, 1, .rwl, 0, []⟩, ⟨0, 10, .rwl, 30, [(1, 1000)]⟩]⟩,
  ⟨"MESH_GEN_LAP", 0x500088, 1, 0x0, 1, 0x0, 32, false, none,
    [⟨17, 1, .ro, 0, []⟩, ⟨16, 1, .ro, 0, []⟩, ⟨0, 16, .ro, 0, []⟩]⟩,
  ⟨"MESH_UNREACH", 0x500090, 1, 0x0, 1, 0x0, 64, false, none,
    [⟨0, 64, .ro, 0, []⟩]⟩,
  ⟨"MESH_STOP", 0x500400, 64, 0x8, 1, 0x0, 32, false, none,
    [⟨16, 16, .cnt, 0, []⟩, ⟨0, 3, .ro, 0, []⟩]⟩,
  ⟨"MESH_PCR", 0x501000, 15, 0x100, 16, 0x8, 64, false, none,
    [⟨63, 1, .rw, 0, []⟩, ⟨48, 2, .rw, 1, []⟩, ⟨32, 12, .rw, 4095, [(1, 4095)]⟩, ⟨16, 14, .ro, 4095, []⟩,
     ⟨0, 12, .rw, 4095, [(1, 4095)]⟩]⟩,
  ⟨"UCNT_MESH_SEL", 0x50F000, 4, 0x8, 1, 0x0, 64, false, none,
    [⟨63, 1, .rw, 0, []⟩, ⟨62, 1, .rw, 0, []⟩, ⟨61, 1, .rw, 0, []⟩, ⟨57, 1, .rw, 0, []⟩,
     ⟨56, 1, .rw, 0, []⟩, ⟨40, 16, .rw, 0, []⟩, ⟨36, 4, .rw, 0, []⟩, ⟨20, 12, .rw, 0, []⟩,
     ⟨8, 8, .rw, 0, []⟩, ⟨0, 8, .rw, 0, []⟩]⟩]

/-- Registers of the MESH block, part 2. -/
def regsMesh2 : List RegD := [
  ⟨"UCNT_MESH", 0x50F020, 4, 0x8, 1, 0x0, 64, false, none,
    [⟨0, 48, .rw, 0, []⟩]⟩,
  ⟨"UCNT_MESH_STS", 0x50F040, 1, 0x0, 1, 0x0, 32, false, none,
    [⟨0, 1, .w1c, 0, []⟩, ⟨1, 1, .w1c, 0, []⟩, ⟨2, 1, .w1c, 0, []⟩, ⟨3, 1, .w1c, 0, []⟩]⟩,
  ⟨"UCNT_MESH_OVF_CNT", 0x50F080, 4, 0x8, 1, 0x0, 32, false, none,
    [⟨0, 16, .cnt, 0, []⟩]⟩,
  ⟨"MESH_STS_CLAMP_CNT", 0x500070, 1, 0x0, 1, 0x0, 32, false, none,
    [⟨0, 16, .cnt, 0, []⟩]⟩,
  ⟨"MESH_STS_GEN_BELL_CNT", 0x500068, 1, 0x0, 1, 0x0, 32, false, none,
    [⟨0, 16, .cnt, 0, []⟩]⟩,
  ⟨"MESH_STS_EPOCH_BELL_CNT", 0x500060, 1, 0x0, 1, 0x0, 32, false, none,
    [⟨0, 16, .cnt, 0, []⟩]⟩,
  ⟨"MESH_STS_UNREACH_CNT", 0x500058, 1, 0x0, 1, 0x0, 32, false, none,
    [⟨0, 16, .cnt, 0, []⟩]⟩,
  ⟨"MESH_STS_LATE_CNT", 0x500050, 1, 0x0, 1, 0x0, 32, false, none,
    [⟨0, 16, .cnt, 0, []⟩]⟩,
  ⟨"MESH_STS_RQTMO_CNT", 0x500048, 1, 0x0, 1, 0x0, 32, false, none,
    [⟨0, 16, .cnt, 0, []⟩]⟩,
  ⟨"MESH_STS_ABSW_CNT", 0x500040, 1, 0x0, 1, 0x0, 32, false, none,
    [⟨0, 16, .cnt, 0, []⟩]⟩,
  ⟨"MESH_STS_HDROP_CNT", 0x500038, 1, 0x0, 1, 0x0, 32, false, none,
    [⟨0, 16, .cnt, 0, []⟩]⟩,
  ⟨"MESH_STS_CECC_CNT", 0x500030, 1, 0x0, 1, 0x0, 32, false, none,
    [⟨0, 16, .cnt, 0, []⟩]⟩]

/-- Registers of the STR block, part 1. -/
def regsStr1 : List RegD := [
  ⟨"STR_CTL", 0x600000, 12, 0x10000, 1, 0x0, 32, false, some (0, 31),
    [⟨31, 1, .rwl, 0, []⟩, ⟨8, 12, .rw, 64, [(1, 4095)]⟩, ⟨5, 1, .rw, 1, []⟩, ⟨4, 1, .rwl, 0, []⟩,
     ⟨0, 2, .rwl, 0, [(0, 2)]⟩]⟩,
  ⟨"STR_CMD", 0x600008, 12, 0x10000, 1, 0x0, 32, false, none,
    [⟨8, 4, .wo, 0, []⟩, ⟨4, 2, .wo, 0, []⟩, ⟨0, 4, .wo, 0, []⟩]⟩,
  ⟨"STR_STATE", 0x600010, 12, 0x10000, 1, 0x0, 32, false, none,
    [⟨24, 8, .ro, 0, []⟩, ⟨23, 1, .ro, 0, []⟩, ⟨20, 3, .ro, 0, []⟩, ⟨18, 2, .ro, 0, []⟩,
     ⟨17, 1, .ro, 0, []⟩, ⟨16, 1, .ro, 0, []⟩, ⟨12, 4, .ro, 0, []⟩, ⟨8, 2, .ro, 0, []⟩,
     ⟨6, 2, .ro, 0, []⟩, ⟨0, 3, .ro, 0, []⟩]⟩,
  ⟨"STR_HEALTH", 0x600018, 12, 0x10000, 1, 0x0, 32, false, none,
    [⟨16, 16, .ro, 0, []⟩, ⟨0, 16, .ro, 0, []⟩]⟩,
  ⟨"STR_STS", 0x600050, 12, 0x10000, 1, 0x0, 32, false, none,
    [⟨8, 1, .w1c, 0, []⟩, ⟨7, 1, .w1c, 0, []⟩, ⟨6, 1, .w1c, 0, []⟩, ⟨5, 1, .w1c, 0, []⟩,
     ⟨4, 1, .w1c, 0, []⟩, ⟨3, 1, .w1c, 0, []⟩, ⟨2, 1, .w1c, 0, []⟩, ⟨1, 1, .w1c, 0, []⟩,
     ⟨0, 1, .w1c, 0, []⟩]⟩,
  ⟨"STR_SEQ", 0x600058, 12, 0x10000, 1, 0x0, 64, false, none,
    [⟨32, 1, .ro, 0, []⟩, ⟨16, 16, .ro, 0, []⟩, ⟨0, 16, .ro, 0, []⟩]⟩,
  ⟨"STR_TEST_SEL", 0x600200, 12, 0x10000, 1, 0x0, 32, false, none,
    [⟨8, 4, .rw, 0, []⟩, ⟨0, 7, .rw, 0, [(0, 87)]⟩]⟩,
  ⟨"STR_TEST_CNT", 0x600208, 12, 0x10000, 1, 0x0, 32, false, none,
    [⟨24, 8, .ro, 0, []⟩, ⟨16, 8, .ro, 0, []⟩, ⟨0, 16, .ro, 0, []⟩]⟩,
  ⟨"STR_CAP_LOCAL_LO", 0x600020, 12, 0x10000, 1, 0x0, 64, false, none,
    [⟨0, 64, .ro, 4398046445568, []⟩]⟩,
  ⟨"STR_CAP_LOCAL_HI", 0x600028, 12, 0x10000, 1, 0x0, 64, false, none,
    [⟨0, 64, .ro, 6709363473877206016, []⟩]⟩,
  ⟨"STR_CAP_REMOTE_LO", 0x600030, 12, 0x10000, 1, 0x0, 64, false, none,
    [⟨0, 64, .ro, 0, []⟩]⟩,
  ⟨"STR_CAP_REMOTE_HI", 0x600038, 12, 0x10000, 1, 0x0, 64, false, none,
    [⟨0, 64, .ro, 0, []⟩]⟩]

/-- Registers of the STR block, part 2. -/
def regsStr2 : List RegD := [
  ⟨"STR_CAP_RES_LO", 0x600040, 12, 0x10000, 1, 0x0, 64, false, none,
    [⟨0, 64, .ro, 0, []⟩]⟩,
  ⟨"STR_CAP_RES_HI", 0x600048, 12, 0x10000, 1, 0x0, 64, false, none,
    [⟨0, 64, .ro, 0, []⟩]⟩,
  ⟨"STR_REPAIR", 0x600100, 12, 0x10000, 16, 0x8, 32, false, none,
    [⟨23, 1, .ro, 0, []⟩, ⟨22, 1, .ro, 0, []⟩, ⟨8, 7, .ro, 127, []⟩, ⟨0, 7, .ro, 127, []⟩]⟩,
  ⟨"UCNT_STR_SEL", 0x60F000, 12, 0x10000, 4, 0x8, 64, false, none,
    [⟨63, 1, .rw, 0, []⟩, ⟨62, 1, .rw, 0, []⟩, ⟨61, 1, .rw, 0, []⟩, ⟨57, 1, .rw, 0, []⟩,
     ⟨56, 1, .rw, 0, []⟩, ⟨40, 16, .rw, 0, []⟩, ⟨36, 4, .rw, 0, []⟩, ⟨20, 12, .rw, 0, []⟩,
     ⟨8, 8, .rw, 0, []⟩, ⟨0, 8, .rw, 0, []⟩]⟩,
  ⟨"UCNT_STR", 0x60F020, 12, 0x10000, 4, 0x8, 64, false, none,
    [⟨0, 48, .rw, 0, []⟩]⟩,
  ⟨"UCNT_STR_STS", 0x60F040, 12, 0x10000, 1, 0x0, 32, false, none,
    [⟨0, 1, .w1c, 0, []⟩, ⟨1, 1, .w1c, 0, []⟩, ⟨2, 1, .w1c, 0, []⟩, ⟨3, 1, .w1c, 0, []⟩]⟩,
  ⟨"UCNT_STR_OVF_CNT", 0x60F080, 12, 0x10000, 4, 0x8, 32, false, none,
    [⟨0, 16, .cnt, 0, []⟩]⟩,
  ⟨"STR_STS_SEQ_BELL_CNT", 0x6000C0, 12, 0x10000, 1, 0x0, 32, false, none,
    [⟨0, 16, .cnt, 0, []⟩]⟩,
  ⟨"STR_STS_FAIL_CNT", 0x6000B8, 12, 0x10000, 1, 0x0, 32, false, none,
    [⟨0, 16, .cnt, 0, []⟩]⟩,
  ⟨"STR_STS_ATTFAIL_CNT", 0x6000B0, 12, 0x10000, 1, 0x0, 32, false, none,
    [⟨0, 16, .cnt, 0, []⟩]⟩,
  ⟨"STR_STS_WCHK_CNT", 0x6000A8, 12, 0x10000, 1, 0x0, 32, false, none,
    [⟨0, 16, .cnt, 0, []⟩]⟩,
  ⟨"STR_STS_REPAIR_CNT", 0x6000A0, 12, 0x10000, 1, 0x0, 32, false, none,
    [⟨0, 16, .cnt, 0, []⟩]⟩]

/-- Registers of the STR block, part 3. -/
def regsStr3 : List RegD := [
  ⟨"STR_STS_HDROP_CNT", 0x600098, 12, 0x10000, 1, 0x0, 32, false, none,
    [⟨0, 16, .cnt, 0, []⟩]⟩,
  ⟨"STR_STS_REPLAY_CNT", 0x600090, 12, 0x10000, 1, 0x0, 32, false, none,
    [⟨0, 16, .cnt, 0, []⟩]⟩,
  ⟨"STR_STS_UNCORR_CNT", 0x600088, 12, 0x10000, 1, 0x0, 32, false, none,
    [⟨0, 16, .cnt, 0, []⟩]⟩,
  ⟨"STR_STS_CECC_CNT", 0x600080, 12, 0x10000, 1, 0x0, 32, false, none,
    [⟨0, 16, .cnt, 0, []⟩]⟩]

/-- Registers of the MCH block, part 1. -/
def regsMch1 : List RegD := [
  ⟨"MCH_CTL", 0x700000, 16, 0x10000, 1, 0x0, 32, false, none,
    [⟨0, 8, .rw, 24, []⟩]⟩,
  ⟨"MCH_MAP", 0x700008, 16, 0x10000, 1, 0x0, 32, false, some (0, 31),
    [⟨31, 1, .rwl, 0, []⟩, ⟨20, 2, .rwl, 0, [(0, 1)]⟩, ⟨19, 1, .rwl, 0, []⟩, ⟨17, 2, .rwl, 0, []⟩,
     ⟨16, 1, .rwl, 0, []⟩, ⟨15, 1, .rwl, 0, []⟩, ⟨12, 3, .rwl, 0, [(0, 4)]⟩, ⟨8, 2, .rwl, 0, [(0, 2)]⟩,
     ⟨4, 4, .rwl, 0, []⟩, ⟨3, 1, .rwl, 0, []⟩, ⟨0, 2, .rwl, 0, []⟩]⟩,
  ⟨"MCH_SCHED", 0x700010, 16, 0x10000, 1, 0x0, 64, false, none,
    [⟨32, 9, .rw, 192, []⟩, ⟨16, 9, .rw, 64, []⟩, ⟨8, 8, .rw, 5, [(1, 255)]⟩, ⟨0, 8, .rw, 20, [(1, 255)]⟩]⟩,
  ⟨"MCH_RFSH", 0x700018, 16, 0x10000, 1, 0x0, 32, false, some (16, 31),
    [⟨31, 1, .rwl, 1, []⟩, ⟨16, 12, .rwl, 2000, [(256, 4095)]⟩, ⟨0, 1, .ro, 0, []⟩]⟩,
  ⟨"MCH_STS", 0x700020, 16, 0x10000, 1, 0x0, 32, false, none,
    [⟨7, 1, .w1c, 0, []⟩, ⟨6, 1, .w1c, 0, []⟩, ⟨5, 1, .w1c, 0, []⟩, ⟨4, 1, .w1c, 0, []⟩,
     ⟨3, 1, .w1c, 0, []⟩, ⟨2, 1, .w1c, 0, []⟩, ⟨1, 1, .w1c, 0, []⟩, ⟨0, 1, .w1c, 0, []⟩]⟩,
  ⟨"MCH_FRZ", 0x700028, 16, 0x10000, 1, 0x0, 32, false, none,
    [⟨24, 8, .ro, 0, []⟩, ⟨23, 1, .ro, 0, []⟩, ⟨22, 1, .ro, 0, []⟩, ⟨8, 13, .ro, 0, []⟩,
     ⟨4, 2, .ro, 0, []⟩, ⟨0, 3, .ro, 0, []⟩]⟩,
  ⟨"MCH_CMD", 0x700030, 16, 0x10000, 1, 0x0, 64, true, none,
    [⟨32, 2, .wo, 0, []⟩, ⟨13, 17, .wo, 0, []⟩, ⟨11, 2, .wo, 0, []⟩, ⟨8, 3, .wo, 0, []⟩,
     ⟨5, 3, .wo, 0, []⟩, ⟨4, 1, .wo, 0, []⟩, ⟨0, 4, .wo, 0, []⟩]⟩,
  ⟨"MCH_CAP", 0x700040, 16, 0x10000, 1, 0x0, 64, false, none,
    [⟨60, 4, .ro, 0, []⟩, ⟨55, 1, .ro, 0, []⟩, ⟨52, 3, .ro, 0, []⟩, ⟨49, 3, .ro, 0, []⟩,
     ⟨47, 2, .ro, 0, []⟩, ⟨30, 17, .ro, 0, []⟩, ⟨23, 7, .ro, 0, []⟩]⟩,
  ⟨"MCH_CAP_PA", 0x700048, 16, 0x10000, 1, 0x0, 64, false, none,
    [⟨48, 10, .ro, 0, []⟩, ⟨0, 46, .ro, 0, []⟩]⟩,
  ⟨"MCH_CAP_SYN_LO", 0x700050, 16, 0x10000, 1, 0x0, 64, false, none,
    [⟨0, 64, .ro, 0, []⟩]⟩,
  ⟨"MCH_CAP_SYN_HI", 0x700058, 16, 0x10000, 1, 0x0, 64, false, none,
    [⟨0, 64, .ro, 0, []⟩]⟩,
  ⟨"MCH_CAP_TIME", 0x700060, 16, 0x10000, 1, 0x0, 64, false, none,
    [⟨0, 64, .ro, 0, []⟩]⟩]

/-- Registers of the MCH block, part 2. -/
def regsMch2 : List RegD := [
  ⟨"MCH_CAP_QSEL", 0x700068, 16, 0x10000, 1, 0x0, 64, false, none,
    [⟨14, 2, .rw, 0, []⟩, ⟨0, 13, .rw, 0, []⟩]⟩,
  ⟨"MCH_CAP_QDATA", 0x700070, 16, 0x10000, 1, 0x0, 64, false, none,
    [⟨63, 1, .ro, 0, []⟩, ⟨58, 2, .ro, 0, []⟩, ⟨48, 10, .ro, 0, []⟩, ⟨0, 46, .ro, 0, []⟩]⟩,
  ⟨"UCNT_MCH_SEL", 0x70F000, 16, 0x10000, 4, 0x8, 64, false, none,
    [⟨63, 1, .rw, 0, []⟩, ⟨62, 1, .rw, 0, []⟩, ⟨61, 1, .rw, 0, []⟩, ⟨57, 1, .rw, 0, []⟩,
     ⟨56, 1, .rw, 0, []⟩, ⟨40, 16, .rw, 0, []⟩, ⟨36, 4, .rw, 0, []⟩, ⟨20, 12, .rw, 0, []⟩,
     ⟨8, 8, .rw, 0, []⟩, ⟨0, 8, .rw, 0, []⟩]⟩,
  ⟨"UCNT_MCH", 0x70F020, 16, 0x10000, 4, 0x8, 64, false, none,
    [⟨0, 48, .rw, 0, []⟩]⟩,
  ⟨"UCNT_MCH_STS", 0x70F040, 16, 0x10000, 1, 0x0, 32, false, none,
    [⟨0, 1, .w1c, 0, []⟩, ⟨1, 1, .w1c, 0, []⟩, ⟨2, 1, .w1c, 0, []⟩, ⟨3, 1, .w1c, 0, []⟩]⟩,
  ⟨"UCNT_MCH_OVF_CNT", 0x70F080, 16, 0x10000, 4, 0x8, 32, false, none,
    [⟨0, 16, .cnt, 0, []⟩]⟩,
  ⟨"MCH_STS_WDROP_CNT", 0x7000B8, 16, 0x10000, 1, 0x0, 32, false, none,
    [⟨0, 16, .cnt, 0, []⟩]⟩,
  ⟨"MCH_STS_FREEZE_CNT", 0x7000B0, 16, 0x10000, 1, 0x0, 32, false, none,
    [⟨0, 16, .cnt, 0, []⟩]⟩,
  ⟨"MCH_STS_PSNRD_CNT", 0x7000A8, 16, 0x10000, 1, 0x0, 32, false, none,
    [⟨0, 16, .cnt, 0, []⟩]⟩,
  ⟨"MCH_STS_RDIST_CNT", 0x7000A0, 16, 0x10000, 1, 0x0, 32, false, none,
    [⟨0, 16, .cnt, 0, []⟩]⟩,
  ⟨"MCH_STS_WCRC_CNT", 0x700098, 16, 0x10000, 1, 0x0, 32, false, none,
    [⟨0, 16, .cnt, 0, []⟩]⟩,
  ⟨"MCH_STS_CAPAR_CNT", 0x700090, 16, 0x10000, 1, 0x0, 32, false, none,
    [⟨0, 16, .cnt, 0, []⟩]⟩]

/-- Registers of the MCH block, part 3. -/
def regsMch3 : List RegD := [
  ⟨"MCH_STS_UECC_CNT", 0x700088, 16, 0x10000, 1, 0x0, 32, false, none,
    [⟨0, 16, .cnt, 0, []⟩]⟩,
  ⟨"MCH_STS_CECC_CNT", 0x700080, 16, 0x10000, 1, 0x0, 32, false, none,
    [⟨0, 16, .cnt, 0, []⟩]⟩]

/-- Registers of the HBC block, part 1. -/
def regsHbc1 : List RegD := [
  ⟨"HBC_CTL", 0x900000, 4, 0x10000, 1, 0x0, 32, false, none,
    [⟨0, 8, .rw, 24, []⟩]⟩,
  ⟨"HBC_MAP", 0x900008, 4, 0x10000, 1, 0x0, 32, false, some (0, 31),
    [⟨31, 1, .rwl, 0, []⟩, ⟨3, 1, .rwl, 0, []⟩]⟩,
  ⟨"HBC_SCHED", 0x900010, 4, 0x10000, 1, 0x0, 64, false, none,
    [⟨32, 9, .rw, 192, []⟩, ⟨16, 9, .rw, 64, []⟩, ⟨8, 8, .rw, 5, [(1, 255)]⟩, ⟨0, 8, .rw, 20, [(1, 255)]⟩]⟩,
  ⟨"HBC_RFSH", 0x900018, 4, 0x10000, 1, 0x0, 32, false, some (16, 31),
    [⟨31, 1, .rwl, 1, []⟩, ⟨16, 12, .rwl, 2000, [(256, 4095)]⟩, ⟨0, 1, .ro, 0, []⟩]⟩,
  ⟨"HBC_STS", 0x900020, 4, 0x10000, 1, 0x0, 32, false, none,
    [⟨7, 1, .w1c, 0, []⟩, ⟨6, 1, .w1c, 0, []⟩, ⟨5, 1, .w1c, 0, []⟩, ⟨4, 1, .w1c, 0, []⟩,
     ⟨3, 1, .w1c, 0, []⟩, ⟨2, 1, .w1c, 0, []⟩, ⟨1, 1, .w1c, 0, []⟩, ⟨0, 1, .w1c, 0, []⟩]⟩,
  ⟨"HBC_FRZ", 0x900028, 4, 0x10000, 1, 0x0, 64, false, none,
    [⟨48, 16, .ro, 0, []⟩, ⟨24, 8, .ro, 0, []⟩, ⟨23, 1, .ro, 0, []⟩, ⟨22, 1, .ro, 0, []⟩,
     ⟨8, 13, .ro, 0, []⟩, ⟨4, 2, .ro, 0, []⟩, ⟨0, 3, .ro, 0, []⟩]⟩,
  ⟨"HBC_CMD", 0x900030, 4, 0x10000, 1, 0x0, 64, true, none,
    [⟨60, 4, .wo, 0, []⟩, ⟨32, 2, .wo, 0, []⟩, ⟨13, 17, .wo, 0, []⟩, ⟨11, 2, .wo, 0, []⟩,
     ⟨8, 3, .wo, 0, []⟩, ⟨5, 3, .wo, 0, []⟩, ⟨4, 1, .wo, 0, []⟩, ⟨0, 4, .wo, 0, []⟩]⟩,
  ⟨"HBC_CAP", 0x900040, 4, 0x10000, 1, 0x0, 64, false, none,
    [⟨60, 4, .ro, 0, []⟩, ⟨56, 4, .ro, 0, []⟩, ⟨55, 1, .ro, 0, []⟩, ⟨52, 3, .ro, 0, []⟩,
     ⟨49, 3, .ro, 0, []⟩, ⟨47, 2, .ro, 0, []⟩, ⟨30, 17, .ro, 0, []⟩, ⟨23, 7, .ro, 0, []⟩]⟩,
  ⟨"HBC_CAP_PA", 0x900048, 4, 0x10000, 1, 0x0, 64, false, none,
    [⟨48, 10, .ro, 0, []⟩, ⟨0, 46, .ro, 0, []⟩]⟩,
  ⟨"HBC_CAP_SYN_LO", 0x900050, 4, 0x10000, 1, 0x0, 64, false, none,
    [⟨0, 64, .ro, 0, []⟩]⟩,
  ⟨"HBC_CAP_SYN_HI", 0x900058, 4, 0x10000, 1, 0x0, 64, false, none,
    [⟨0, 64, .ro, 0, []⟩]⟩,
  ⟨"HBC_CAP_TIME", 0x900060, 4, 0x10000, 1, 0x0, 64, false, none,
    [⟨0, 64, .ro, 0, []⟩]⟩]

/-- Registers of the HBC block, part 2. -/
def regsHbc2 : List RegD := [
  ⟨"HBC_CAP_QSEL", 0x900068, 4, 0x10000, 1, 0x0, 64, false, none,
    [⟨14, 2, .rw, 0, []⟩, ⟨0, 13, .rw, 0, []⟩]⟩,
  ⟨"HBC_CAP_QDATA", 0x900070, 4, 0x10000, 1, 0x0, 64, false, none,
    [⟨63, 1, .ro, 0, []⟩, ⟨58, 2, .ro, 0, []⟩, ⟨48, 10, .ro, 0, []⟩, ⟨0, 46, .ro, 0, []⟩]⟩,
  ⟨"UCNT_HBC_SEL", 0x90F000, 4, 0x10000, 4, 0x8, 64, false, none,
    [⟨63, 1, .rw, 0, []⟩, ⟨62, 1, .rw, 0, []⟩, ⟨61, 1, .rw, 0, []⟩, ⟨57, 1, .rw, 0, []⟩,
     ⟨56, 1, .rw, 0, []⟩, ⟨40, 16, .rw, 0, []⟩, ⟨36, 4, .rw, 0, []⟩, ⟨20, 12, .rw, 0, []⟩,
     ⟨8, 8, .rw, 0, []⟩, ⟨0, 8, .rw, 0, []⟩]⟩,
  ⟨"UCNT_HBC", 0x90F020, 4, 0x10000, 4, 0x8, 64, false, none,
    [⟨0, 48, .rw, 0, []⟩]⟩,
  ⟨"UCNT_HBC_STS", 0x90F040, 4, 0x10000, 1, 0x0, 32, false, none,
    [⟨0, 1, .w1c, 0, []⟩, ⟨1, 1, .w1c, 0, []⟩, ⟨2, 1, .w1c, 0, []⟩, ⟨3, 1, .w1c, 0, []⟩]⟩,
  ⟨"UCNT_HBC_OVF_CNT", 0x90F080, 4, 0x10000, 4, 0x8, 32, false, none,
    [⟨0, 16, .cnt, 0, []⟩]⟩,
  ⟨"HBC_STS_WDROP_CNT", 0x9000B8, 4, 0x10000, 1, 0x0, 32, false, none,
    [⟨0, 16, .cnt, 0, []⟩]⟩,
  ⟨"HBC_STS_FREEZE_CNT", 0x9000B0, 4, 0x10000, 1, 0x0, 32, false, none,
    [⟨0, 16, .cnt, 0, []⟩]⟩,
  ⟨"HBC_STS_PSNRD_CNT", 0x9000A8, 4, 0x10000, 1, 0x0, 32, false, none,
    [⟨0, 16, .cnt, 0, []⟩]⟩,
  ⟨"HBC_STS_RDIST_CNT", 0x9000A0, 4, 0x10000, 1, 0x0, 32, false, none,
    [⟨0, 16, .cnt, 0, []⟩]⟩,
  ⟨"HBC_STS_WCRC_CNT", 0x900098, 4, 0x10000, 1, 0x0, 32, false, none,
    [⟨0, 16, .cnt, 0, []⟩]⟩,
  ⟨"HBC_STS_CAPAR_CNT", 0x900090, 4, 0x10000, 1, 0x0, 32, false, none,
    [⟨0, 16, .cnt, 0, []⟩]⟩]

/-- Registers of the HBC block, part 3. -/
def regsHbc3 : List RegD := [
  ⟨"HBC_STS_UECC_CNT", 0x900088, 4, 0x10000, 1, 0x0, 32, false, none,
    [⟨0, 16, .cnt, 0, []⟩]⟩,
  ⟨"HBC_STS_CECC_CNT", 0x900080, 4, 0x10000, 1, 0x0, 32, false, none,
    [⟨0, 16, .cnt, 0, []⟩]⟩]

/-- Registers of the XCP block, part 1. -/
def regsXcp1 : List RegD := [
  ⟨"XCP_CTL", 0x800000, 1, 0x0, 1, 0x0, 32, false, some (0, 31),
    [⟨31, 1, .rwl, 0, []⟩, ⟨8, 16, .rw, 32768, []⟩, ⟨4, 4, .rw, 4, [(1, 15)]⟩, ⟨0, 2, .rwl, 0, []⟩]⟩,
  ⟨"XCP_CMD", 0x800008, 1, 0x0, 1, 0x0, 32, false, none,
    [⟨8, 2, .wo, 0, []⟩, ⟨0, 4, .wo, 0, []⟩]⟩,
  ⟨"XCP_STATE", 0x800010, 1, 0x0, 1, 0x0, 64, false, none,
    [⟨56, 8, .ro, 0, []⟩, ⟨16, 1, .ro, 0, []⟩, ⟨12, 4, .ro, 0, []⟩, ⟨8, 3, .ro, 0, []⟩,
     ⟨4, 4, .ro, 0, []⟩, ⟨0, 3, .ro, 0, []⟩]⟩,
  ⟨"XCP_STS", 0x800030, 1, 0x0, 1, 0x0, 32, false, none,
    [⟨5, 1, .w1c, 0, []⟩, ⟨4, 1, .w1c, 0, []⟩, ⟨3, 1, .w1c, 0, []⟩, ⟨2, 1, .w1c, 0, []⟩,
     ⟨1, 1, .w1c, 0, []⟩, ⟨0, 1, .w1c, 0, []⟩]⟩,
  ⟨"XCP_LAT", 0x800040, 1, 0x0, 1, 0x0, 32, false, none,
    [⟨0, 32, .cnt, 0, []⟩]⟩,
  ⟨"XCP_RS", 0x800020, 2, 0x8, 1, 0x0, 64, false, none,
    [⟨32, 22, .ro, 0, []⟩, ⟨0, 21, .ro, 0, []⟩]⟩,
  ⟨"UCNT_XCP_SEL", 0x80F000, 4, 0x8, 1, 0x0, 64, false, none,
    [⟨63, 1, .rw, 0, []⟩, ⟨62, 1, .rw, 0, []⟩, ⟨61, 1, .rw, 0, []⟩, ⟨57, 1, .rw, 0, []⟩,
     ⟨56, 1, .rw, 0, []⟩, ⟨40, 16, .rw, 0, []⟩, ⟨36, 4, .rw, 0, []⟩, ⟨20, 12, .rw, 0, []⟩,
     ⟨8, 8, .rw, 0, []⟩, ⟨0, 8, .rw, 0, []⟩]⟩,
  ⟨"UCNT_XCP", 0x80F020, 4, 0x8, 1, 0x0, 64, false, none,
    [⟨0, 48, .rw, 0, []⟩]⟩,
  ⟨"UCNT_XCP_STS", 0x80F040, 1, 0x0, 1, 0x0, 32, false, none,
    [⟨0, 1, .w1c, 0, []⟩, ⟨1, 1, .w1c, 0, []⟩, ⟨2, 1, .w1c, 0, []⟩, ⟨3, 1, .w1c, 0, []⟩]⟩,
  ⟨"UCNT_XCP_OVF_CNT", 0x80F080, 4, 0x8, 1, 0x0, 32, false, none,
    [⟨0, 16, .cnt, 0, []⟩]⟩,
  ⟨"XCP_STS_RSDONE_CNT", 0x8000A8, 1, 0x0, 1, 0x0, 32, false, none,
    [⟨0, 16, .cnt, 0, []⟩]⟩,
  ⟨"XCP_STS_DUNCORR_CNT", 0x8000A0, 1, 0x0, 1, 0x0, 32, false, none,
    [⟨0, 16, .cnt, 0, []⟩]⟩]

/-- Registers of the XCP block, part 2. -/
def regsXcp2 : List RegD := [
  ⟨"XCP_STS_DOUBLE_CNT", 0x800098, 1, 0x0, 1, 0x0, 32, false, none,
    [⟨0, 16, .cnt, 0, []⟩]⟩,
  ⟨"XCP_STS_DDROP_CNT", 0x800090, 1, 0x0, 1, 0x0, 32, false, none,
    [⟨0, 16, .cnt, 0, []⟩]⟩,
  ⟨"XCP_STS_DWRITE_CNT", 0x800088, 1, 0x0, 1, 0x0, 32, false, none,
    [⟨0, 16, .cnt, 0, []⟩]⟩,
  ⟨"XCP_STS_RECON_CNT", 0x800080, 1, 0x0, 1, 0x0, 32, false, none,
    [⟨0, 16, .cnt, 0, []⟩]⟩]

/-- Registers of the SEP block, part 1. -/
def regsSep1 : List RegD := [
  ⟨"OWN_CTL", 0xD01000, 1, 0x0, 1, 0x0, 32, false, none,
    [⟨31, 1, .ro, 0, []⟩, ⟨0, 1, .ro, 0, []⟩]⟩,
  ⟨"OWN_TBASE", 0xD01008, 1, 0x0, 1, 0x0, 64, false, none,
    [⟨21, 31, .ro, 0, []⟩]⟩,
  ⟨"OWN_SEG", 0xD01040, 16, 0x8, 1, 0x0, 64, false, none,
    [⟨63, 1, .ro, 0, []⟩, ⟨31, 26, .ro, 0, []⟩, ⟨0, 31, .ro, 0, []⟩]⟩,
  ⟨"OWN_STS", 0xD010C0, 1, 0x0, 1, 0x0, 32, false, none,
    [⟨4, 1, .w1c, 0, []⟩, ⟨3, 1, .w1c, 0, []⟩, ⟨2, 1, .w1c, 0, []⟩, ⟨1, 1, .w1c, 0, []⟩,
     ⟨0, 1, .w1c, 0, []⟩]⟩,
  ⟨"OWN_LOG", 0xD010C8, 1, 0x0, 1, 0x0, 64, false, none,
    [⟨58, 6, .ro, 0, []⟩, ⟨57, 1, .ro, 0, []⟩, ⟨56, 1, .ro, 0, []⟩, ⟨46, 10, .ro, 0, []⟩,
     ⟨0, 46, .ro, 0, []⟩]⟩,
  ⟨"SEP_CLAIMS", 0xD01200, 1, 0x0, 1, 0x0, 32, false, none,
    [⟨0, 22, .ro, 0, []⟩]⟩,
  ⟨"OWN_STS_IDE_CNT", 0xD01120, 1, 0x0, 1, 0x0, 32, false, none,
    [⟨0, 16, .cnt, 0, []⟩]⟩,
  ⟨"OWN_STS_MOT_BAD_CNT", 0xD01118, 1, 0x0, 1, 0x0, 32, false, none,
    [⟨0, 16, .cnt, 0, []⟩]⟩,
  ⟨"OWN_STS_REFUSE_DEV_CNT", 0xD01110, 1, 0x0, 1, 0x0, 32, false, none,
    [⟨0, 16, .cnt, 0, []⟩]⟩,
  ⟨"OWN_STS_REFUSE_WR_CNT", 0xD01108, 1, 0x0, 1, 0x0, 32, false, none,
    [⟨0, 16, .cnt, 0, []⟩]⟩,
  ⟨"OWN_STS_REFUSE_RD_CNT", 0xD01100, 1, 0x0, 1, 0x0, 32, false, none,
    [⟨0, 16, .cnt, 0, []⟩]⟩]

/-- Registers of the DBG block, part 1. -/
def regsDbg1 : List RegD := [
  ⟨"DBG_POLICY", 0x1100000, 1, 0x0, 1, 0x0, 32, false, some (0, 31),
    [⟨31, 1, .rwl, 0, []⟩, ⟨3, 1, .rwl, 0, []⟩, ⟨2, 1, .rwl, 0, []⟩, ⟨1, 1, .rwl, 0, []⟩,
     ⟨0, 1, .rwl, 0, []⟩]⟩,
  ⟨"DBG_MON", 0x1100008, 1, 0x0, 1, 0x0, 32, false, some (0, 31),
    [⟨31, 1, .rwl, 0, []⟩, ⟨4, 2, .ro, 0, []⟩, ⟨2, 2, .rwl, 0, []⟩, ⟨0, 2, .rwl, 0, []⟩]⟩,
  ⟨"DBG_PF_CTL", 0x1100010, 1, 0x0, 1, 0x0, 32, false, some (0, 31),
    [⟨31, 1, .rwl, 0, []⟩, ⟨3, 1, .rwl, 0, []⟩, ⟨2, 1, .rw, 1, []⟩, ⟨1, 1, .rwl, 1, []⟩,
     ⟨0, 1, .wo, 0, []⟩]⟩,
  ⟨"DBG_PF_STS", 0x1100018, 1, 0x0, 1, 0x0, 32, false, none,
    [⟨16, 5, .ro, 0, []⟩, ⟨3, 1, .ro, 0, []⟩, ⟨2, 1, .w1c, 0, []⟩, ⟨1, 1, .w1c, 0, []⟩,
     ⟨0, 1, .w1c, 0, []⟩]⟩,
  ⟨"DBG_PF_TIME", 0x1100020, 1, 0x0, 1, 0x0, 64, false, none,
    [⟨0, 64, .ro, 0, []⟩]⟩,
  ⟨"DBG_PF_STS_IGN_CNT", 0x1100090, 1, 0x0, 1, 0x0, 32, false, none,
    [⟨0, 16, .cnt, 0, []⟩]⟩,
  ⟨"DBG_PF_STS_DUP_CNT", 0x1100088, 1, 0x0, 1, 0x0, 32, false, none,
    [⟨0, 16, .cnt, 0, []⟩]⟩,
  ⟨"DBG_PF_STS_DONE_CNT", 0x1100080, 1, 0x0, 1, 0x0, 32, false, none,
    [⟨0, 16, .cnt, 0, []⟩]⟩]

/-- Registers of the TQE block, part 1. -/
def regsTqe1 : List RegD := [
  ⟨"TQE_ID", 0x10000000000, 1, 0x0, 1, 0x0, 64, false, none,
    [⟨48, 16, .ro, 23836, []⟩, ⟨32, 16, .ro, 32272, []⟩, ⟨24, 8, .ro, 177, []⟩]⟩,
  ⟨"TQE_CTL", 0x10000000008, 1, 0x0, 1, 0x0, 32, false, some (0, 31),
    [⟨31, 1, .rwl, 0, []⟩, ⟨8, 1, .rw, 1, []⟩, ⟨0, 6, .rwl, 0, [(0, 0), (30, 36)]⟩]⟩,
  ⟨"TQE_STS", 0x10000000010, 1, 0x0, 1, 0x0, 32, false, none,
    [⟨8, 1, .w1c, 0, []⟩, ⟨7, 1, .w1c, 0, []⟩, ⟨6, 1, .w1c, 0, []⟩, ⟨5, 1, .w1c, 0, []⟩,
     ⟨4, 1, .w1c, 0, []⟩, ⟨3, 1, .w1c, 0, []⟩, ⟨2, 1, .w1c, 0, []⟩, ⟨1, 1, .w1c, 0, []⟩,
     ⟨0, 1, .w1c, 0, []⟩]⟩,
  ⟨"TQE_WIN_FENCE", 0x10000000020, 1, 0x0, 1, 0x0, 32, false, none,
    [⟨31, 1, .ro, 1, []⟩, ⟨0, 16, .ro, 0, []⟩]⟩,
  ⟨"TQE_WIN_LOG", 0x10000000028, 1, 0x0, 1, 0x0, 64, false, none,
    [⟨48, 16, .ro, 0, []⟩, ⟨47, 1, .ro, 0, []⟩, ⟨46, 1, .ro, 0, []⟩, ⟨44, 2, .ro, 0, []⟩,
     ⟨0, 44, .ro, 0, []⟩]⟩,
  ⟨"TQE_FGEN_LAP", 0x10000000030, 1, 0x0, 1, 0x0, 32, false, none,
    [⟨16, 1, .ro, 0, []⟩, ⟨0, 16, .ro, 0, []⟩]⟩,
  ⟨"TQE_INTX", 0x10000000038, 1, 0x0, 1, 0x0, 32, false, none,
    [⟨0, 1, .w1c, 0, []⟩]⟩,
  ⟨"TQE_WIN", 0x10000100000, 65536, 0x10, 1, 0x0, 128, false, none,
    [⟨88, 40, .rw, 0, []⟩, ⟨48, 40, .rw, 0, []⟩, ⟨28, 20, .rw, 0, []⟩, ⟨12, 16, .rw, 0, []⟩,
     ⟨5, 1, .rw, 0, []⟩, ⟨4, 1, .rw, 0, []⟩, ⟨3, 1, .rw, 0, []⟩, ⟨2, 1, .rw, 0, []⟩,
     ⟨0, 1, .rw, 0, []⟩]⟩,
  ⟨"TQE_FNWIN", 0x10000200000, 4096, 0x8, 1, 0x0, 32, false, none,
    [⟨16, 6, .rw, 0, []⟩, ⟨0, 16, .rw, 0, []⟩]⟩,
  ⟨"TQE_ADM_IN", 0x10000010000, 1, 0x0, 1, 0x0, 32, false, none,
    [⟨0, 32, .wo, 0, []⟩]⟩,
  ⟨"TQE_ADM_END", 0x10000010008, 1, 0x0, 1, 0x0, 32, false, none,
    [⟨0, 32, .wo, 0, []⟩]⟩,
  ⟨"TQE_ADM_OUT_LO", 0x10000010010, 1, 0x0, 1, 0x0, 64, false, none,
    [⟨32, 32, .ro, 0, []⟩, ⟨16, 16, .ro, 0, []⟩, ⟨0, 8, .ro, 0, []⟩]⟩]

/-- Registers of the TQE block, part 2. -/
def regsTqe2 : List RegD := [
  ⟨"TQE_ADM_OUT_HI", 0x10000010018, 1, 0x0, 1, 0x0, 64, false, none,
    [⟨32, 32, .ro, 0, []⟩, ⟨0, 32, .ro, 0, []⟩]⟩,
  ⟨"TQE_ADM_STS", 0x10000010020, 1, 0x0, 1, 0x0, 32, false, none,
    [⟨24, 8, .ro, 0, []⟩, ⟨16, 8, .ro, 0, []⟩, ⟨2, 1, .w1c, 0, []⟩, ⟨1, 1, .w1c, 0, []⟩,
     ⟨0, 1, .w1c, 0, []⟩]⟩,
  ⟨"TQE_CTX_BASE", 0x10000010030, 1, 0x0, 1, 0x0, 64, false, some (0, 63),
    [⟨63, 1, .rwl, 0, []⟩, ⟨21, 31, .rwl, 0, []⟩]⟩,
  ⟨"TQE_RSTS", 0x10000010038, 1, 0x0, 1, 0x0, 32, false, none,
    [⟨4, 1, .w1c, 0, []⟩, ⟨3, 1, .w1c, 0, []⟩, ⟨2, 1, .w1c, 0, []⟩, ⟨1, 1, .w1c, 0, []⟩,
     ⟨0, 1, .w1c, 0, []⟩]⟩,
  ⟨"TQE_RING_ERRLOG", 0x10000010040, 1, 0x0, 1, 0x0, 64, false, none,
    [⟨56, 8, .ro, 0, []⟩, ⟨0, 20, .ro, 0, []⟩]⟩,
  ⟨"TQE_KCTL", 0x10000020000, 1, 0x0, 1, 0x0, 32, false, some (0, 31),
    [⟨31, 1, .rwl, 0, []⟩, ⟨16, 11, .rw, 0, []⟩, ⟨8, 4, .rw, 8, []⟩, ⟨4, 3, .rwl, 3, [(0, 6)]⟩,
     ⟨0, 1, .rwl, 1, []⟩]⟩,
  ⟨"TQE_KSTS", 0x10000020008, 1, 0x0, 1, 0x0, 32, false, none,
    [⟨6, 1, .w1c, 0, []⟩, ⟨5, 1, .w1c, 0, []⟩, ⟨4, 1, .w1c, 0, []⟩, ⟨3, 1, .w1c, 0, []⟩,
     ⟨2, 1, .w1c, 0, []⟩, ⟨1, 1, .w1c, 0, []⟩, ⟨0, 1, .w1c, 0, []⟩]⟩,
  ⟨"TQE_KALARM", 0x10000020010, 1, 0x0, 1, 0x0, 64, false, none,
    [⟨32, 17, .ro, 0, []⟩, ⟨16, 5, .ro, 0, []⟩, ⟨8, 5, .ro, 0, []⟩, ⟨0, 3, .ro, 0, []⟩]⟩,
  ⟨"TQE_KALARM_TIME", 0x10000020018, 1, 0x0, 1, 0x0, 64, false, none,
    [⟨0, 64, .ro, 0, []⟩]⟩,
  ⟨"TQE_KOCC", 0x10000020020, 1, 0x0, 1, 0x0, 32, false, none,
    [⟨0, 17, .ro, 0, []⟩]⟩,
  ⟨"TQE_MBCTL", 0x10000000048, 1, 0x0, 1, 0x0, 32, false, none,
    [⟨0, 11, .rw, 0, []⟩]⟩,
  ⟨"TQE_MBPEND", 0x10000001000, 64, 0x8, 1, 0x0, 64, false, none,
    [⟨0, 64, .ro, 0, []⟩]⟩]

/-- Registers of the TQE block, part 3. -/
def regsTqe3 : List RegD := [
  ⟨"UCNT_TQE_SEL", 0x1000000F000, 4, 0x8, 1, 0x0, 64, false, none,
    [⟨63, 1, .rw, 0, []⟩, ⟨62, 1, .rw, 0, []⟩, ⟨61, 1, .rw, 0, []⟩, ⟨57, 1, .rw, 0, []⟩,
     ⟨56, 1, .rw, 0, []⟩, ⟨40, 16, .rw, 0, []⟩, ⟨36, 4, .rw, 0, []⟩, ⟨20, 12, .rw, 0, []⟩,
     ⟨8, 8, .rw, 0, []⟩, ⟨0, 8, .rw, 0, []⟩]⟩,
  ⟨"UCNT_TQE", 0x1000000F020, 4, 0x8, 1, 0x0, 64, false, none,
    [⟨0, 48, .rw, 0, []⟩]⟩,
  ⟨"UCNT_TQE_STS", 0x1000000F040, 1, 0x0, 1, 0x0, 32, false, none,
    [⟨0, 1, .w1c, 0, []⟩, ⟨1, 1, .w1c, 0, []⟩, ⟨2, 1, .w1c, 0, []⟩, ⟨3, 1, .w1c, 0, []⟩]⟩,
  ⟨"UCNT_TQE_OVF_CNT", 0x1000000F080, 4, 0x8, 1, 0x0, 32, false, none,
    [⟨0, 16, .cnt, 0, []⟩]⟩,
  ⟨"MBP_OUT_LO", 0x10000040000, 4096, 0x40, 1, 0x0, 64, false, none,
    [⟨0, 64, .rw, 0, []⟩]⟩,
  ⟨"MBP_OUT_HI", 0x10000040008, 4096, 0x40, 1, 0x0, 64, false, none,
    [⟨0, 64, .rw, 0, []⟩]⟩,
  ⟨"MBP_IN_LO", 0x10000040010, 4096, 0x40, 1, 0x0, 64, false, none,
    [⟨0, 64, .ro, 0, []⟩]⟩,
  ⟨"MBP_IN_HI", 0x10000040018, 4096, 0x40, 1, 0x0, 64, false, none,
    [⟨0, 64, .ro, 0, []⟩]⟩,
  ⟨"MBP_STS", 0x10000040020, 4096, 0x40, 1, 0x0, 32, false, none,
    [⟨5, 1, .w1c, 0, []⟩, ⟨4, 1, .w1c, 0, []⟩, ⟨3, 1, .w1c, 0, []⟩, ⟨2, 1, .ro, 0, []⟩,
     ⟨1, 1, .w1c, 0, []⟩]⟩,
  ⟨"MBP_CTL", 0x10000040024, 4096, 0x40, 1, 0x0, 32, false, none,
    [⟨16, 5, .rw, 0, []⟩, ⟨1, 1, .rw, 0, []⟩, ⟨0, 1, .wo, 0, []⟩]⟩,
  ⟨"MBP_STS_FLR_CNT", 0x1000004003C, 4096, 0x40, 1, 0x0, 32, false, none,
    [⟨0, 16, .cnt, 0, []⟩]⟩,
  ⟨"MBP_STS_OVF_CNT", 0x10000040038, 4096, 0x40, 1, 0x0, 32, false, none,
    [⟨0, 16, .cnt, 0, []⟩]⟩]

/-- Registers of the TQE block, part 4. -/
def regsTqe4 : List RegD := [
  ⟨"MBP_STS_ACK_CNT", 0x10000040034, 4096, 0x40, 1, 0x0, 32, false, none,
    [⟨0, 16, .cnt, 0, []⟩]⟩,
  ⟨"MBP_STS_IN_FULL_CNT", 0x1000004002C, 4096, 0x40, 1, 0x0, 32, false, none,
    [⟨0, 16, .cnt, 0, []⟩]⟩,
  ⟨"TQE_STS_FGEN_BELL_CNT", 0x100000000C0, 1, 0x0, 1, 0x0, 32, false, none,
    [⟨0, 16, .cnt, 0, []⟩]⟩,
  ⟨"TQE_STS_CPLTMO_CNT", 0x100000000B8, 1, 0x0, 1, 0x0, 32, false, none,
    [⟨0, 16, .cnt, 0, []⟩]⟩,
  ⟨"TQE_STS_STALECPL_CNT", 0x100000000B0, 1, 0x0, 1, 0x0, 32, false, none,
    [⟨0, 16, .cnt, 0, []⟩]⟩,
  ⟨"TQE_STS_BMEDISC_CNT", 0x100000000A8, 1, 0x0, 1, 0x0, 32, false, none,
    [⟨0, 16, .cnt, 0, []⟩]⟩,
  ⟨"TQE_STS_PSNRX_CNT", 0x100000000A0, 1, 0x0, 1, 0x0, 32, false, none,
    [⟨0, 16, .cnt, 0, []⟩]⟩,
  ⟨"TQE_STS_PEERUR_CNT", 0x10000000098, 1, 0x0, 1, 0x0, 32, false, none,
    [⟨0, 16, .cnt, 0, []⟩]⟩,
  ⟨"TQE_STS_PEERDROP_CNT", 0x10000000090, 1, 0x0, 1, 0x0, 32, false, none,
    [⟨0, 16, .cnt, 0, []⟩]⟩,
  ⟨"TQE_STS_WINMISS_CNT", 0x10000000088, 1, 0x0, 1, 0x0, 32, false, none,
    [⟨0, 16, .cnt, 0, []⟩]⟩,
  ⟨"TQE_STS_MSIADDR_CNT", 0x10000000080, 1, 0x0, 1, 0x0, 32, false, none,
    [⟨0, 16, .cnt, 0, []⟩]⟩,
  ⟨"TQE_INTX_EVENT_CNT", 0x10000000040, 1, 0x0, 1, 0x0, 32, false, none,
    [⟨0, 16, .cnt, 0, []⟩]⟩]

/-- Registers of the TQE block, part 5. -/
def regsTqe5 : List RegD := [
  ⟨"TQE_ADM_STS_QRESET_CNT", 0x10000010090, 1, 0x0, 1, 0x0, 32, false, none,
    [⟨0, 16, .cnt, 0, []⟩]⟩,
  ⟨"TQE_ADM_STS_UNDERRUN_CNT", 0x10000010088, 1, 0x0, 1, 0x0, 32, false, none,
    [⟨0, 16, .cnt, 0, []⟩]⟩,
  ⟨"TQE_ADM_STS_OVF_CNT", 0x10000010080, 1, 0x0, 1, 0x0, 32, false, none,
    [⟨0, 16, .cnt, 0, []⟩]⟩,
  ⟨"TQE_RSTS_DBNOP_CNT", 0x100000100E0, 1, 0x0, 1, 0x0, 32, false, none,
    [⟨0, 16, .cnt, 0, []⟩]⟩,
  ⟨"TQE_RSTS_MVRESET_CNT", 0x100000100D8, 1, 0x0, 1, 0x0, 32, false, none,
    [⟨0, 16, .cnt, 0, []⟩]⟩,
  ⟨"TQE_RSTS_PIBACK_CNT", 0x100000100D0, 1, 0x0, 1, 0x0, 32, false, none,
    [⟨0, 16, .cnt, 0, []⟩]⟩,
  ⟨"TQE_RSTS_IDXBELL_CNT", 0x100000100C8, 1, 0x0, 1, 0x0, 32, false, none,
    [⟨0, 16, .cnt, 0, []⟩]⟩,
  ⟨"TQE_RSTS_RINGERR_CNT", 0x100000100C0, 1, 0x0, 1, 0x0, 32, false, none,
    [⟨0, 16, .cnt, 0, []⟩]⟩,
  ⟨"TQE_KSTS_LOCKOUT_CNT", 0x100000200B0, 1, 0x0, 1, 0x0, 32, false, none,
    [⟨0, 16, .cnt, 0, []⟩]⟩,
  ⟨"TQE_KSTS_PWRERASE_CNT", 0x100000200A8, 1, 0x0, 1, 0x0, 32, false, none,
    [⟨0, 16, .cnt, 0, []⟩]⟩,
  ⟨"TQE_KSTS_ALARM_CNT", 0x100000200A0, 1, 0x0, 1, 0x0, 32, false, none,
    [⟨0, 16, .cnt, 0, []⟩]⟩,
  ⟨"TQE_KSTS_SLOTERR_CNT", 0x10000020098, 1, 0x0, 1, 0x0, 32, false, none,
    [⟨0, 16, .cnt, 0, []⟩]⟩]

/-- Registers of the TQE block, part 6. -/
def regsTqe6 : List RegD := [
  ⟨"TQE_KSTS_KWFAIL_CNT", 0x10000020090, 1, 0x0, 1, 0x0, 32, false, none,
    [⟨0, 16, .cnt, 0, []⟩]⟩,
  ⟨"TQE_KSTS_SCRUBSTOP_CNT", 0x10000020088, 1, 0x0, 1, 0x0, 32, false, none,
    [⟨0, 16, .cnt, 0, []⟩]⟩,
  ⟨"TQE_KSTS_AUTHFAIL_CNT", 0x10000020080, 1, 0x0, 1, 0x0, 32, false, none,
    [⟨0, 16, .cnt, 0, []⟩]⟩]

/-- Registers of the VF block, part 1. -/
def regsVf1 : List RegD := [
  ⟨"VF_ADM_IN", 0x20000000000, 4096, 0x10000, 1, 0x0, 32, false, none,
    [⟨0, 32, .wo, 0, []⟩]⟩,
  ⟨"VF_ADM_END", 0x20000000008, 4096, 0x10000, 1, 0x0, 32, false, none,
    [⟨0, 32, .wo, 0, []⟩]⟩,
  ⟨"VF_ADM_OUT_LO", 0x20000000010, 4096, 0x10000, 1, 0x0, 64, false, none,
    [⟨32, 32, .ro, 0, []⟩, ⟨16, 16, .ro, 0, []⟩, ⟨0, 8, .ro, 0, []⟩]⟩,
  ⟨"VF_ADM_OUT_HI", 0x20000000018, 4096, 0x10000, 1, 0x0, 64, false, none,
    [⟨32, 32, .ro, 0, []⟩, ⟨0, 32, .ro, 0, []⟩]⟩,
  ⟨"VF_ADM_STS", 0x20000000020, 4096, 0x10000, 1, 0x0, 32, false, none,
    [⟨24, 8, .ro, 0, []⟩, ⟨16, 8, .ro, 0, []⟩, ⟨2, 1, .w1c, 0, []⟩, ⟨1, 1, .w1c, 0, []⟩,
     ⟨0, 1, .w1c, 0, []⟩]⟩,
  ⟨"MBV_OUT_LO", 0x20000001000, 4096, 0x10000, 1, 0x0, 64, false, none,
    [⟨0, 64, .rw, 0, []⟩]⟩,
  ⟨"MBV_OUT_HI", 0x20000001008, 4096, 0x10000, 1, 0x0, 64, false, none,
    [⟨0, 64, .rw, 0, []⟩]⟩,
  ⟨"MBV_IN_LO", 0x20000001010, 4096, 0x10000, 1, 0x0, 64, false, none,
    [⟨0, 64, .ro, 0, []⟩]⟩,
  ⟨"MBV_IN_HI", 0x20000001018, 4096, 0x10000, 1, 0x0, 64, false, none,
    [⟨0, 64, .ro, 0, []⟩]⟩,
  ⟨"MBV_STS", 0x20000001020, 4096, 0x10000, 1, 0x0, 32, false, none,
    [⟨5, 1, .w1c, 0, []⟩, ⟨4, 1, .w1c, 0, []⟩, ⟨3, 1, .w1c, 0, []⟩, ⟨2, 1, .ro, 0, []⟩,
     ⟨1, 1, .w1c, 0, []⟩]⟩,
  ⟨"MBV_CTL", 0x20000001024, 4096, 0x10000, 1, 0x0, 32, false, none,
    [⟨16, 5, .rw, 0, []⟩, ⟨1, 1, .rw, 0, []⟩, ⟨0, 1, .wo, 0, []⟩]⟩,
  ⟨"MBV_STS_FLR_CNT", 0x2000000103C, 4096, 0x10000, 1, 0x0, 32, false, none,
    [⟨0, 16, .cnt, 0, []⟩]⟩]

/-- Registers of the VF block, part 2. -/
def regsVf2 : List RegD := [
  ⟨"MBV_STS_OVF_CNT", 0x20000001038, 4096, 0x10000, 1, 0x0, 32, false, none,
    [⟨0, 16, .cnt, 0, []⟩]⟩,
  ⟨"MBV_STS_ACK_CNT", 0x20000001034, 4096, 0x10000, 1, 0x0, 32, false, none,
    [⟨0, 16, .cnt, 0, []⟩]⟩,
  ⟨"MBV_STS_IN_FULL_CNT", 0x2000000102C, 4096, 0x10000, 1, 0x0, 32, false, none,
    [⟨0, 16, .cnt, 0, []⟩]⟩,
  ⟨"VF_ADM_STS_QRESET_CNT", 0x20000000090, 4096, 0x10000, 1, 0x0, 32, false, none,
    [⟨0, 16, .cnt, 0, []⟩]⟩,
  ⟨"VF_ADM_STS_UNDERRUN_CNT", 0x20000000088, 4096, 0x10000, 1, 0x0, 32, false, none,
    [⟨0, 16, .cnt, 0, []⟩]⟩,
  ⟨"VF_ADM_STS_OVF_CNT", 0x20000000080, 4096, 0x10000, 1, 0x0, 32, false, none,
    [⟨0, 16, .cnt, 0, []⟩]⟩]

/-- Registers of the PIR block, part 1. -/
def regsPir1 : List RegD := [
  ⟨"PIR_STS", 0xA00010, 1, 0x0, 1, 0x0, 32, false, none,
    [⟨3, 1, .w1c, 0, []⟩, ⟨2, 1, .w1c, 0, []⟩, ⟨1, 1, .w1c, 0, []⟩, ⟨0, 1, .w1c, 0, []⟩]⟩,
  ⟨"PIR_LOG", 0xA00018, 1, 0x0, 1, 0x0, 64, false, none,
    [⟨48, 16, .ro, 0, []⟩, ⟨45, 3, .ro, 0, []⟩, ⟨44, 1, .ro, 0, []⟩, ⟨34, 10, .ro, 0, []⟩,
     ⟨0, 20, .ro, 0, []⟩]⟩,
  ⟨"PIR_MTTINV", 0xA00030, 1, 0x0, 1, 0x0, 32, false, none,
    [⟨31, 1, .ro, 1, []⟩, ⟨20, 1, .wo, 0, []⟩, ⟨0, 20, .wo, 0, []⟩]⟩,
  ⟨"PIR_MTT", 0xA00020, 2, 0x8, 1, 0x0, 64, false, none,
    [⟨12, 40, .rw, 0, []⟩, ⟨0, 5, .rw, 0, [(0, 0), (8, 20)]⟩]⟩,
  ⟨"PIR_SRC", 0xA01000, 256, 0x8, 1, 0x0, 64, true, none,
    [⟨63, 1, .ro, 0, []⟩, ⟨62, 1, .ro, 0, []⟩, ⟨61, 1, .ro, 0, []⟩, ⟨33, 20, .rw, 0, []⟩,
     ⟨32, 1, .rw, 0, []⟩, ⟨20, 9, .rw, 0, []⟩, ⟨12, 8, .rw, 16, [(16, 255)]⟩, ⟨3, 1, .wo, 0, []⟩,
     ⟨2, 1, .rw, 0, []⟩, ⟨0, 1, .rw, 1, []⟩]⟩,
  ⟨"PIR_STS_VIPERR_CNT", 0xA00098, 1, 0x0, 1, 0x0, 32, false, none,
    [⟨0, 16, .cnt, 0, []⟩]⟩,
  ⟨"PIR_STS_UNDELIV_CNT", 0xA00090, 1, 0x0, 1, 0x0, 32, false, none,
    [⟨0, 16, .cnt, 0, []⟩]⟩,
  ⟨"PIR_STS_BADTGT_CNT", 0xA00088, 1, 0x0, 1, 0x0, 32, false, none,
    [⟨0, 16, .cnt, 0, []⟩]⟩,
  ⟨"PIR_STS_BADMSG_CNT", 0xA00080, 1, 0x0, 1, 0x0, 32, false, none,
    [⟨0, 16, .cnt, 0, []⟩]⟩]

/-- Registers of the MBX block, part 1. -/
def regsMbx1 : List RegD := [
  ⟨"MBX_IN", 0xB00000, 64, 0x1000, 1, 0x0, 32, false, none,
    [⟨0, 32, .wo, 0, []⟩]⟩,
  ⟨"MBX_END", 0xB00008, 64, 0x1000, 1, 0x0, 64, true, none,
    [⟨32, 2, .wo, 0, []⟩, ⟨0, 32, .wo, 0, []⟩]⟩,
  ⟨"MBX_DB_SET", 0xB00010, 64, 0x1000, 1, 0x0, 32, false, none,
    [⟨1, 30, .wo, 0, []⟩]⟩,
  ⟨"MBX_OUT_LO", 0xB00020, 64, 0x1000, 1, 0x0, 64, false, none,
    [⟨0, 64, .ro, 0, []⟩]⟩,
  ⟨"MBX_OUT_HI", 0xB00028, 64, 0x1000, 1, 0x0, 64, false, none,
    [⟨0, 64, .ro, 0, []⟩]⟩,
  ⟨"MBX_STS", 0xB00030, 64, 0x1000, 1, 0x0, 32, false, none,
    [⟨26, 6, .ro, 0, []⟩, ⟨21, 5, .ro, 0, []⟩, ⟨20, 1, .ro, 0, []⟩, ⟨19, 1, .ro, 0, []⟩,
     ⟨18, 1, .ro, 1, []⟩, ⟨17, 1, .ro, 0, []⟩, ⟨8, 1, .w1c, 0, []⟩, ⟨7, 1, .w1c, 0, []⟩,
     ⟨6, 1, .w1c, 0, []⟩, ⟨5, 1, .w1c, 0, []⟩, ⟨4, 1, .w1c, 0, []⟩, ⟨3, 1, .w1c, 0, []⟩,
     ⟨2, 1, .w1c, 0, []⟩]⟩,
  ⟨"MBX_DB", 0xB00038, 64, 0x1000, 1, 0x0, 32, false, none,
    [⟨0, 1, .w1c, 0, []⟩, ⟨1, 1, .w1c, 0, []⟩, ⟨2, 1, .w1c, 0, []⟩, ⟨3, 1, .w1c, 0, []⟩,
     ⟨4, 1, .w1c, 0, []⟩, ⟨5, 1, .w1c, 0, []⟩, ⟨6, 1, .w1c, 0, []⟩, ⟨7, 1, .w1c, 0, []⟩,
     ⟨8, 1, .w1c, 0, []⟩, ⟨9, 1, .w1c, 0, []⟩, ⟨10, 1, .w1c, 0, []⟩, ⟨11, 1, .w1c, 0, []⟩,
     ⟨12, 1, .w1c, 0, []⟩, ⟨13, 1, .w1c, 0, []⟩, ⟨14, 1, .w1c, 0, []⟩, ⟨15, 1, .w1c, 0, []⟩,
     ⟨16, 1, .w1c, 0, []⟩, ⟨17, 1, .w1c, 0, []⟩, ⟨18, 1, .w1c, 0, []⟩, ⟨19, 1, .w1c, 0, []⟩,
     ⟨20, 1, .w1c, 0, []⟩, ⟨21, 1, .w1c, 0, []⟩, ⟨22, 1, .w1c, 0, []⟩, ⟨23, 1, .w1c, 0, []⟩,
     ⟨24, 1, .w1c, 0, []⟩, ⟨25, 1, .w1c, 0, []⟩, ⟨26, 1, .w1c, 0, []⟩, ⟨27, 1, .w1c, 0, []⟩,
     ⟨28, 1, .w1c, 0, []⟩, ⟨29, 1, .w1c, 0, []⟩, ⟨30, 1, .w1c, 0, []⟩, ⟨31, 1, .w1c, 0, []⟩]⟩,
  ⟨"MBX_DBEN", 0xB00040, 64, 0x1000, 1, 0x0, 32, false, none,
    [⟨0, 32, .rw, 2147483649, []⟩]⟩,
  ⟨"MBX_CFG", 0xB00048, 64, 0x1000, 1, 0x0, 64, false, some (0, 63),
    [⟨63, 1, .rwl, 0, []⟩, ⟨41, 5, .rwl, 21, [(0, 21)]⟩, ⟨39, 2, .rwl, 0, [(0, 2)]⟩, ⟨38, 1, .rw, 0, []⟩,
     ⟨37, 1, .rwl, 0, []⟩, ⟨36, 1, .rwl, 0, []⟩, ⟨32, 1, .rwl, 0, []⟩, ⟨22, 10, .rwl, 0, []⟩,
     ⟨21, 1, .rwl, 0, []⟩, ⟨11, 10, .rwl, 0, []⟩]⟩,
  ⟨"MBX_STS_AGEDROP_CNT", 0xB000C0, 64, 0x1000, 1, 0x0, 32, false, none,
    [⟨0, 16, .cnt, 0, []⟩]⟩,
  ⟨"MBX_STS_SNDREF_CNT", 0xB000B8, 64, 0x1000, 1, 0x0, 32, false, none,
    [⟨0, 16, .cnt, 0, []⟩]⟩,
  ⟨"MBX_STS_ROFF_CNT", 0xB000B0, 64, 0x1000, 1, 0x0, 32, false, none,
    [⟨0, 16, .cnt, 0, []⟩]⟩]

/-- Registers of the MBX block, part 2. -/
def regsMbx2 : List RegD := [
  ⟨"MBX_STS_QRESET_CNT", 0xB000A8, 64, 0x1000, 1, 0x0, 32, false, none,
    [⟨0, 16, .cnt, 0, []⟩]⟩,
  ⟨"MBX_STS_UNDERRUN_CNT", 0xB000A0, 64, 0x1000, 1, 0x0, 32, false, none,
    [⟨0, 16, .cnt, 0, []⟩]⟩,
  ⟨"MBX_STS_OVF_CNT", 0xB00098, 64, 0x1000, 1, 0x0, 32, false, none,
    [⟨0, 16, .cnt, 0, []⟩]⟩,
  ⟨"MBX_STS_TXE_CNT", 0xB00090, 64, 0x1000, 1, 0x0, 32, false, none,
    [⟨0, 16, .cnt, 0, []⟩]⟩,
  ⟨"MBX_DB_DB_CNT", 0xB00100, 64, 0x1000, 32, 0x8, 32, false, none,
    [⟨0, 16, .cnt, 0, []⟩]⟩]

/-- Registers of the PMC block, part 1. -/
def regsPmc1 : List RegD := [
  ⟨"PMC_LIMIT", 0xC00000, 1, 0x0, 1, 0x0, 64, false, none,
    [⟨63, 1, .ro, 0, []⟩, ⟨32, 16, .ro, 0, []⟩, ⟨16, 11, .ro, 300, []⟩, ⟨0, 11, .ro, 0, []⟩]⟩,
  ⟨"PMC_POWER", 0xC00008, 1, 0x0, 1, 0x0, 64, false, none,
    [⟨48, 11, .ro, 0, []⟩, ⟨32, 11, .ro, 0, []⟩, ⟨16, 11, .ro, 0, []⟩, ⟨0, 11, .ro, 0, []⟩]⟩,
  ⟨"PMC_THERM", 0xC00010, 1, 0x0, 1, 0x0, 64, false, none,
    [⟨48, 16, .ro, 0, []⟩, ⟨38, 10, .ro, 0, []⟩, ⟨28, 10, .ro, 0, []⟩, ⟨18, 10, .ro, 0, []⟩,
     ⟨8, 10, .ro, 0, []⟩, ⟨0, 8, .ro, 255, []⟩]⟩,
  ⟨"PMC_FCAST", 0xC00018, 1, 0x0, 1, 0x0, 64, false, none,
    [⟨32, 11, .ro, 0, []⟩, ⟨0, 11, .ro, 0, []⟩]⟩,
  ⟨"PMC_RIDE", 0xC00020, 1, 0x0, 1, 0x0, 32, false, none,
    [⟨16, 16, .ro, 1000, []⟩, ⟨1, 1, .ro, 0, []⟩, ⟨0, 1, .ro, 0, []⟩]⟩,
  ⟨"PMC_STS", 0xC00030, 1, 0x0, 1, 0x0, 32, false, none,
    [⟨6, 1, .w1c, 0, []⟩, ⟨5, 1, .w1c, 0, []⟩, ⟨4, 1, .w1c, 0, []⟩, ⟨3, 1, .w1c, 0, []⟩,
     ⟨2, 1, .w1c, 0, []⟩, ⟨1, 1, .w1c, 0, []⟩]⟩,
  ⟨"PMC_DOM", 0xC00100, 20, 0x8, 1, 0x0, 32, false, none,
    [⟨16, 16, .ro, 0, []⟩, ⟨8, 8, .ro, 0, []⟩, ⟨4, 1, .ro, 0, []⟩, ⟨0, 3, .ro, 0, []⟩]⟩,
  ⟨"PMC_CLUS", 0xC00400, 72, 0x8, 1, 0x0, 32, false, none,
    [⟨24, 8, .ro, 0, []⟩, ⟨20, 4, .ro, 0, []⟩, ⟨18, 2, .ro, 0, []⟩, ⟨14, 3, .ro, 6, []⟩,
     ⟨11, 3, .ro, 0, []⟩, ⟨8, 3, .ro, 0, []⟩, ⟨3, 5, .ro, 0, []⟩]⟩,
  ⟨"PMC_STS_MEM_KEPT_CNT", 0xC000B0, 1, 0x0, 1, 0x0, 32, false, none,
    [⟨0, 16, .cnt, 0, []⟩]⟩,
  ⟨"PMC_STS_CAPMISS_CNT", 0xC000A8, 1, 0x0, 1, 0x0, 32, false, none,
    [⟨0, 16, .cnt, 0, []⟩]⟩,
  ⟨"PMC_STS_TJHOT_CNT", 0xC000A0, 1, 0x0, 1, 0x0, 32, false, none,
    [⟨0, 16, .cnt, 0, []⟩]⟩,
  ⟨"PMC_STS_CDU_STALE_CNT", 0xC00098, 1, 0x0, 1, 0x0, 32, false, none,
    [⟨0, 16, .cnt, 0, []⟩]⟩]

/-- Registers of the PMC block, part 2. -/
def regsPmc2 : List RegD := [
  ⟨"PMC_STS_FLOWTHR_CNT", 0xC00090, 1, 0x0, 1, 0x0, 32, false, none,
    [⟨0, 16, .cnt, 0, []⟩]⟩,
  ⟨"PMC_STS_ONBATT_CNT", 0xC00088, 1, 0x0, 1, 0x0, 32, false, none,
    [⟨0, 16, .cnt, 0, []⟩]⟩]

/-- Registers of the SPL block, part 1. -/
def regsSpl1 : List RegD := [
  ⟨"SPL_CTL", 0xE00000, 1, 0x0, 1, 0x0, 32, false, some (0, 31),
    [⟨31, 1, .rwl, 0, []⟩, ⟨16, 8, .rw, 0, []⟩, ⟨8, 4, .rw, 12, [(1, 15)]⟩, ⟨4, 1, .rwl, 0, []⟩,
     ⟨1, 1, .rw, 0, []⟩, ⟨0, 1, .rw, 0, []⟩]⟩,
  ⟨"SPL_RING", 0xE00008, 1, 0x0, 1, 0x0, 64, false, some (8, 31),
    [⟨12, 40, .rwl, 0, []⟩, ⟨0, 5, .rwl, 8, [(8, 24)]⟩]⟩,
  ⟨"SPL_SEQ", 0xE00020, 1, 0x0, 1, 0x0, 64, false, none,
    [⟨48, 1, .ro, 0, []⟩, ⟨32, 16, .ro, 0, []⟩, ⟨0, 32, .ro, 0, []⟩]⟩,
  ⟨"SPL_STS", 0xE00028, 1, 0x0, 1, 0x0, 32, false, none,
    [⟨4, 1, .w1c, 0, []⟩, ⟨3, 1, .w1c, 0, []⟩, ⟨2, 1, .w1c, 0, []⟩, ⟨1, 1, .w1c, 0, []⟩,
     ⟨0, 1, .w1c, 0, []⟩]⟩,
  ⟨"SPL_LOST", 0xE00030, 1, 0x0, 1, 0x0, 64, false, none,
    [⟨0, 64, .ro, 0, []⟩]⟩,
  ⟨"SPL_MCMD", 0xE00038, 1, 0x0, 1, 0x0, 32, false, none,
    [⟨16, 16, .wo, 0, []⟩, ⟨0, 4, .wo, 0, []⟩]⟩,
  ⟨"SPL_MSTS", 0xE00040, 1, 0x0, 1, 0x0, 32, false, none,
    [⟨24, 8, .ro, 0, []⟩, ⟨16, 2, .ro, 0, []⟩, ⟨0, 13, .ro, 1, []⟩]⟩,
  ⟨"SPL_PI", 0xE00010, 1, 0x0, 1, 0x0, 32, false, none,
    [⟨0, 32, .ro, 0, []⟩]⟩,
  ⟨"SPL_CI", 0xE00018, 1, 0x0, 1, 0x0, 32, false, none,
    [⟨0, 32, .rw, 0, []⟩]⟩,
  ⟨"SPL_SNAP", 0xE00100, 48, 0x8, 1, 0x0, 32, false, none,
    [⟨31, 1, .rw, 0, []⟩, ⟨30, 1, .rw, 0, []⟩, ⟨16, 12, .rw, 0, []⟩, ⟨0, 2, .rw, 0, []⟩]⟩,
  ⟨"UCNT_SPL_SEL", 0xE0F000, 4, 0x8, 1, 0x0, 64, false, none,
    [⟨63, 1, .rw, 0, []⟩, ⟨62, 1, .rw, 0, []⟩, ⟨61, 1, .rw, 0, []⟩, ⟨57, 1, .rw, 0, []⟩,
     ⟨56, 1, .rw, 0, []⟩, ⟨40, 16, .rw, 0, []⟩, ⟨36, 4, .rw, 0, []⟩, ⟨20, 12, .rw, 0, []⟩,
     ⟨8, 8, .rw, 0, []⟩, ⟨0, 8, .rw, 0, []⟩]⟩,
  ⟨"UCNT_SPL", 0xE0F020, 4, 0x8, 1, 0x0, 64, false, none,
    [⟨0, 48, .rw, 0, []⟩]⟩]

/-- Registers of the SPL block, part 2. -/
def regsSpl2 : List RegD := [
  ⟨"UCNT_SPL_STS", 0xE0F040, 1, 0x0, 1, 0x0, 32, false, none,
    [⟨0, 1, .w1c, 0, []⟩, ⟨1, 1, .w1c, 0, []⟩, ⟨2, 1, .w1c, 0, []⟩, ⟨3, 1, .w1c, 0, []⟩]⟩,
  ⟨"UCNT_SPL_OVF_CNT", 0xE0F080, 4, 0x8, 1, 0x0, 32, false, none,
    [⟨0, 16, .cnt, 0, []⟩]⟩,
  ⟨"SPL_STS_SEQ_BELL_CNT", 0xE000A0, 1, 0x0, 1, 0x0, 32, false, none,
    [⟨0, 16, .cnt, 0, []⟩]⟩,
  ⟨"SPL_STS_STRAY_CNT", 0xE00098, 1, 0x0, 1, 0x0, 32, false, none,
    [⟨0, 16, .cnt, 0, []⟩]⟩,
  ⟨"SPL_STS_RINGERR_CNT", 0xE00090, 1, 0x0, 1, 0x0, 32, false, none,
    [⟨0, 16, .cnt, 0, []⟩]⟩,
  ⟨"SPL_STS_LOST_CNT", 0xE00088, 1, 0x0, 1, 0x0, 32, false, none,
    [⟨0, 16, .cnt, 0, []⟩]⟩,
  ⟨"SPL_STS_T1_CNT", 0xE00080, 1, 0x0, 1, 0x0, 32, false, none,
    [⟨0, 16, .cnt, 0, []⟩]⟩]

/-- Registers of the ERR block, part 1. -/
def regsErr1 : List RegD := [
  ⟨"ERR_CTL", 0xF00000, 1, 0x0, 1, 0x0, 32, false, some (0, 31),
    [⟨31, 1, .rwl, 0, []⟩, ⟨16, 8, .rw, 10, []⟩, ⟨5, 1, .rw, 0, []⟩, ⟨4, 1, .rwl, 1, []⟩,
     ⟨2, 2, .rw, 0, []⟩, ⟨1, 1, .rw, 0, []⟩]⟩,
  ⟨"ERR_RING", 0xF00008, 1, 0x0, 1, 0x0, 64, false, some (8, 31),
    [⟨12, 40, .rwl, 0, []⟩, ⟨0, 5, .rwl, 8, [(8, 20)]⟩]⟩,
  ⟨"ERR_STS", 0xF00020, 1, 0x0, 1, 0x0, 32, false, none,
    [⟨6, 1, .w1c, 0, []⟩, ⟨5, 1, .w1c, 0, []⟩, ⟨4, 1, .w1c, 0, []⟩, ⟨3, 1, .w1c, 0, []⟩,
     ⟨2, 1, .w1c, 0, []⟩, ⟨1, 1, .w1c, 0, []⟩, ⟨0, 1, .w1c, 0, []⟩]⟩,
  ⟨"ERR_SEQ", 0xF00028, 1, 0x0, 1, 0x0, 64, false, none,
    [⟨48, 1, .ro, 0, []⟩, ⟨32, 16, .ro, 0, []⟩, ⟨0, 32, .ro, 0, []⟩]⟩,
  ⟨"ERR_FIFO_STS", 0xF00030, 1, 0x0, 1, 0x0, 32, false, none,
    [⟨16, 9, .ro, 0, []⟩, ⟨3, 1, .ro, 0, []⟩, ⟨2, 1, .ro, 0, []⟩, ⟨1, 1, .ro, 0, []⟩,
     ⟨0, 1, .ro, 1, []⟩]⟩,
  ⟨"ERR_LOST", 0xF00038, 1, 0x0, 1, 0x0, 64, false, none,
    [⟨32, 32, .ro, 0, []⟩, ⟨0, 32, .ro, 0, []⟩]⟩,
  ⟨"ERR_ALARM", 0xF00040, 1, 0x0, 1, 0x0, 32, false, none,
    [⟨16, 16, .ro, 0, []⟩, ⟨8, 8, .ro, 64, []⟩, ⟨0, 4, .ro, 0, []⟩]⟩,
  ⟨"ERR_RING_PI", 0xF00010, 1, 0x0, 1, 0x0, 32, false, none,
    [⟨0, 32, .ro, 0, []⟩]⟩,
  ⟨"ERR_RING_CI", 0xF00018, 1, 0x0, 1, 0x0, 32, false, none,
    [⟨0, 32, .rw, 0, []⟩]⟩,
  ⟨"ERR_FIFO_OUT", 0xF00100, 8, 0x8, 1, 0x0, 64, false, none,
    [⟨0, 64, .ro, 0, []⟩]⟩,
  ⟨"ERR_STS_ALM_SUPP_CNT", 0xF000B0, 1, 0x0, 1, 0x0, 32, false, none,
    [⟨0, 16, .cnt, 0, []⟩]⟩,
  ⟨"ERR_STS_COAL_EVICT_CNT", 0xF000A8, 1, 0x0, 1, 0x0, 32, false, none,
    [⟨0, 16, .cnt, 0, []⟩]⟩]

/-- Registers of the ERR block, part 2. -/
def regsErr2 : List RegD := [
  ⟨"ERR_STS_SEQ_BELL_CNT", 0xF000A0, 1, 0x0, 1, 0x0, 32, false, none,
    [⟨0, 16, .cnt, 0, []⟩]⟩,
  ⟨"ERR_STS_RINGERR_CNT", 0xF00098, 1, 0x0, 1, 0x0, 32, false, none,
    [⟨0, 16, .cnt, 0, []⟩]⟩,
  ⟨"ERR_STS_RING_LOST_CNT", 0xF00090, 1, 0x0, 1, 0x0, 32, false, none,
    [⟨0, 16, .cnt, 0, []⟩]⟩,
  ⟨"ERR_STS_FIFO_LOST_CNT", 0xF00088, 1, 0x0, 1, 0x0, 32, false, none,
    [⟨0, 16, .cnt, 0, []⟩]⟩,
  ⟨"ERR_STS_UNDERRUN_CNT", 0xF00080, 1, 0x0, 1, 0x0, 32, false, none,
    [⟨0, 16, .cnt, 0, []⟩]⟩]

/-- Registers of the RLY block, part 1. -/
def regsRly1 : List RegD := [
  ⟨"RLY_CTL", 0x1000000, 1, 0x0, 1, 0x0, 32, false, some (0, 31),
    [⟨31, 1, .rwl, 0, []⟩, ⟨5, 1, .rw, 0, []⟩, ⟨4, 1, .rw, 1, []⟩, ⟨3, 1, .rwl, 1, []⟩,
     ⟨2, 1, .rwl, 1, []⟩, ⟨1, 1, .rwl, 0, []⟩, ⟨0, 1, .rwl, 0, []⟩]⟩,
  ⟨"RLY_POS", 0x1000008, 1, 0x0, 1, 0x0, 32, false, none,
    [⟨24, 8, .ro, 0, []⟩, ⟨16, 2, .ro, 0, []⟩, ⟨8, 8, .ro, 0, []⟩, ⟨0, 8, .ro, 0, []⟩]⟩,
  ⟨"RLY_STS", 0x1000010, 1, 0x0, 1, 0x0, 32, false, none,
    [⟨10, 1, .w1c, 0, []⟩, ⟨9, 1, .w1c, 0, []⟩, ⟨8, 1, .w1c, 0, []⟩, ⟨7, 1, .w1c, 0, []⟩,
     ⟨6, 1, .w1c, 0, []⟩, ⟨5, 1, .w1c, 0, []⟩, ⟨4, 1, .w1c, 0, []⟩, ⟨3, 1, .w1c, 0, []⟩,
     ⟨2, 1, .w1c, 0, []⟩, ⟨1, 1, .w1c, 0, []⟩, ⟨0, 1, .w1c, 0, []⟩]⟩,
  ⟨"RLY_SEQ", 0x1000020, 1, 0x0, 1, 0x0, 64, false, none,
    [⟨48, 1, .ro, 0, []⟩, ⟨32, 16, .ro, 0, []⟩, ⟨0, 16, .ro, 0, []⟩]⟩,
  ⟨"RLY_TSYNC", 0x1000028, 1, 0x0, 1, 0x0, 64, false, none,
    [⟨32, 32, .ro, 0, []⟩, ⟨16, 16, .ro, 0, []⟩, ⟨0, 2, .ro, 0, []⟩]⟩,
  ⟨"RLY_LINKDLY", 0x1000030, 1, 0x0, 1, 0x0, 32, false, none,
    [⟨31, 1, .ro, 0, []⟩, ⟨0, 16, .rw, 640, []⟩]⟩,
  ⟨"RLY_AEPOCH", 0x1000038, 1, 0x0, 1, 0x0, 32, false, none,
    [⟨0, 32, .ro, 0, []⟩]⟩,
  ⟨"RLY_IEN", 0x1000018, 1, 0x0, 1, 0x0, 32, false, none,
    [⟨0, 32, .rw, 0, []⟩]⟩,
  ⟨"RLY_STS_FRZDUP_CNT", 0x10000D0, 1, 0x0, 1, 0x0, 32, false, none,
    [⟨0, 16, .cnt, 0, []⟩]⟩,
  ⟨"RLY_STS_HOLDOVER_CNT", 0x10000C8, 1, 0x0, 1, 0x0, 32, false, none,
    [⟨0, 16, .cnt, 0, []⟩]⟩,
  ⟨"RLY_STS_TSTEP_CNT", 0x10000C0, 1, 0x0, 1, 0x0, 32, false, none,
    [⟨0, 16, .cnt, 0, []⟩]⟩,
  ⟨"RLY_STS_SEQ_BELL_CNT", 0x10000B8, 1, 0x0, 1, 0x0, 32, false, none,
    [⟨0, 16, .cnt, 0, []⟩]⟩]

/-- Registers of the RLY block, part 2. -/
def regsRly2 : List RegD := [
  ⟨"RLY_STS_NOPOS_CNT", 0x10000B0, 1, 0x0, 1, 0x0, 32, false, none,
    [⟨0, 16, .cnt, 0, []⟩]⟩,
  ⟨"RLY_STS_HOPDROP_CNT", 0x10000A8, 1, 0x0, 1, 0x0, 32, false, none,
    [⟨0, 16, .cnt, 0, []⟩]⟩,
  ⟨"RLY_STS_EPOCHDROP_CNT", 0x10000A0, 1, 0x0, 1, 0x0, 32, false, none,
    [⟨0, 16, .cnt, 0, []⟩]⟩,
  ⟨"RLY_STS_AUTHFAIL_CNT", 0x1000098, 1, 0x0, 1, 0x0, 32, false, none,
    [⟨0, 16, .cnt, 0, []⟩]⟩,
  ⟨"RLY_STS_STALE_CNT", 0x1000090, 1, 0x0, 1, 0x0, 32, false, none,
    [⟨0, 16, .cnt, 0, []⟩]⟩,
  ⟨"RLY_STS_SYMERR_CNT", 0x1000088, 1, 0x0, 1, 0x0, 32, false, none,
    [⟨0, 16, .cnt, 0, []⟩]⟩,
  ⟨"RLY_STS_CRC_CNT", 0x1000080, 1, 0x0, 1, 0x0, 32, false, none,
    [⟨0, 16, .cnt, 0, []⟩]⟩]

/-- Every register of this address space: the package register space. -/
def regsAllPrs : List RegD :=
  regsHub1 ++ regsHome1 ++ regsHome2 ++ regsHmc1 ++ regsHmc2 ++ regsMesh1 ++ regsMesh2 ++ regsStr1 ++ regsStr2 ++ regsStr3 ++ regsMch1 ++ regsMch2 ++ regsMch3 ++ regsHbc1 ++ regsHbc2 ++ regsHbc3 ++ regsXcp1 ++ regsXcp2 ++ regsSep1 ++ regsDbg1 ++ regsPir1 ++ regsMbx1 ++ regsMbx2 ++ regsPmc1 ++ regsPmc2 ++ regsSpl1 ++ regsSpl2 ++ regsErr1 ++ regsErr2 ++ regsRly1 ++ regsRly2

/-- Every register of this address space: the core system registers. -/
def regsAllSys : List RegD :=
  regsSys1 ++ regsSys2 ++ regsSys3

/-- Every register of this address space: PF0 BAR0 of the TQE. -/
def regsAllBar0 : List RegD :=
  regsTqe1 ++ regsTqe2 ++ regsTqe3 ++ regsTqe4 ++ regsTqe5 ++ regsTqe6

/-- Every register of this address space: VF BAR0 of the TQE. -/
def regsAllVf : List RegD :=
  regsVf1 ++ regsVf2

end Sys2Proof.Machine
end

