-- ==== Sys2Proof/Machine/State.lean ====
section
/-!
DEFINITION. The state of the package: the register file, the memory, and for each unit what the spec gives it
beside its registers (queues, tables, caches, operations in progress), as plain data. `State.reset` is the
machine right after cold reset.
-/
namespace Sys2Proof.Machine

/-- One 64-byte line of DDR5, HBM or CXL memory: what was last written, its poison mark (R236), and the key
number it was encrypted under (R238). -/
structure MemLine where
  data : LineData
  poison : Bool
  key : Nat
deriving DecidableEq, Repr

/-- Severities of R497. -/
inductive Sev where
  | info | corr | error | fatal
deriving DecidableEq, Repr

/-- Kinds of an emitted record (R506). -/
inductive RecKind where
  | single | first | last | lost
deriving DecidableEq, Repr

/-- One error record (R506): what a unit sends to ERR and what ERR emits. `quar` marks an event of R498. -/
structure ErrRec where
  sev : Sev
  kind : RecKind
  unit : Nat
  inst : Nat
  code : Nat
  sts : Nat
  world : Bool
  enc : Nat
  mtag : Nat
  addr : Option Nat
  src : Nat
  time : Nat
  count : Nat
  seq : Nat
  lap : Nat
  detail : List Nat
  quar : Bool
deriving DecidableEq, Repr

/-- Directory states (R89); a line with no entry is INV, a reserved code is an entry whose `ecc` is bad (R113). -/
inductive DirSt where
  | inv | sh | ex | ow
deriving DecidableEq, Repr

/-- One directory entry (R88). The line stands for TAG and set together. -/
structure DirEnt where
  line : Nat
  st : DirSt
  owner : Nat
  sharers : BitVec 16
  bi : Bool
  ecc : Ecc
deriving DecidableEq, Repr

/-- One HMC way (R125), or a parity delta line held in a way (R264). -/
structure HmcWay where
  line : Nat
  dirty : Bool
  poison : Bool
  data : LineData
  delta : Bool
  ecc : Ecc
deriving DecidableEq, Repr

/-- What holds a line lock: an admitted request, an HMC victim on its way to its channel (R135), a
back-invalidation made for a request (R112), the recovery of an unreadable entry met by a request (R113), or a
sweep write of a draining half (R142). -/
inductive Txn where
  | req (m : Msg)
  | victim
  | backInv (forMsg : Msg)
  | recover (forMsg : Msg)
  | sweep
deriving DecidableEq, Repr

/-- What a lock's transaction waits for: a directory way, snoop answers, memory data, the write's acceptance, the
requester's CompAck, or the HMC way of an allocating miss (R136). -/
inductive Phase where
  | way | snoop | mem | wr | comp | fill
deriving DecidableEq, Repr

/-- A line lock at a home (R96) with the queue of transactions behind it. -/
structure Lock where
  line : Nat
  txn : Txn
  phase : Phase
  snoops : List (Nat × Opc)
  wb : Option (LineData × Bool)
  psn : Bool
  sent : Bool
  lost : Bool
  fromMem : Bool
  after : DirEnt
  queue : List Msg
deriving DecidableEq, Repr

/-- An HMC fill whose way has been chosen: it waits for its dirty victim's acceptance, where there is one, and for its data,
where they are still to come (R135, R136). -/
structure Fill where
  set : Nat
  way : Nat
  victim : Option Nat
  line : Nat
  data : Option (LineData × Bool)
  dirty : Bool
deriving DecidableEq, Repr

/-- A home slice (R85, R93, R95, R96); `acks` are CompAcks that came before their transaction was served (R169),
`late` the abandoned snoops whose answer is still to come, `gone` the open snoops whose flit or answer was lost (R107): an
agent and a line each. -/
structure Home where
  wbq : List Msg
  rqq : List Msg
  locks : List Lock
  fills : List Fill
  wbPtr : Nat
  sweep : Option Nat
  acks : List Msg
  late : List (Nat × Nat)
  gone : List (Nat × Nat)
deriving DecidableEq, Repr

/-- TCD-level line states (R81); a line not listed is I. -/
inductive Moesi where
  | m | o | e | s
deriving DecidableEq, Repr

/-- One line of a die's L3 with the cores' copies below it (R82, R120): `pres` is the core-presence vector, `excl`
the core of the die that holds the line in M or E. -/
structure L3Line where
  st : Moesi
  data : LineData
  poison : Bool
  pres : BitVec 24
  excl : Option Nat
  attr : Attr
deriving DecidableEq, Repr

/-- A cache array of a die (R119): the line that each way names, by set and way (sixteen ways a set), and the pseudo-LRU tree of
each set. A way is valid while the die holds its line (in a private array, while the core's presence bit is set); the line's
data, state and attributes stand in its `L3Line`. -/
structure Arr where
  ways : Tbl Nat
  lru : Tbl Nat
deriving DecidableEq, Repr

def Arr.init : Arr := ⟨[], []⟩

/-- One entry of a die's evict-pending buffer (R102). -/
structure EvEnt where
  dirty : Bool
  data : LineData
  poison : Bool
  msg : Msg
deriving DecidableEq, Repr

/-- The planes of the mesh (R158). -/
inductive Plane where
  | req | rsp | snp
deriving DecidableEq, Repr

/-- The route shapes of R162. -/
inductive Shape where
  | xy | yx | xyx | yxy
deriving DecidableEq, Repr

/-- A flit on its route (R159, R162): its load, its stops and plane, the route and epoch it was injected with, how many steps
of the route it has made (none: it is in an injection queue; one more than its routers: it is ejected), and how many cycles it
has waited there. `back` marks what its source stop's absorber answers, or what never leaves its stop (R185). -/
structure Flit where
  load : Load
  src : Nat
  dst : Nat
  plane : Plane
  shape : Shape
  waypt : Nat
  epoch : Nat
  hop : Nat
  wait : Nat
  back : Bool
deriving DecidableEq, Repr

/-- The mesh beside its registers: the flits in flight in order of injection, messages that wait for a credit or a
response buffer, credit pools, response buffers with their generations, pacer queues and levels (in 1/1024 of a
token), the class that each point serves next, the route engine's masks (the one in use, and the one of the spare banks), and
the input that each router output serves next (R164). -/
structure Mesh where
  net : List Flit
  stall : List Msg
  memStall : List MemReq
  pools : Tbl Nat
  txnGen : Tbl Nat
  txnBusy : Tbl Msg
  pq : Tbl (List Msg)
  lvl : Tbl Int
  paceRr : Tbl Nat
  mask : BitVec 64
  spare : BitVec 64
  toMark : List Nat
  arb : Tbl Nat
deriving DecidableEq, Repr

/-- The states of an enclave (R323). -/
inductive EncSt where
  | free | building | running
deriving DecidableEq, Repr

/-- An ownership change of a granule in progress (R327): the call's code, its mailbox pair and tag, the sender's WORLD and
ENC, the enclave and the granule, whether it copies, the world of the new owner, whether every line has been invalidated,
the first line not yet done, and the plaintext read so far. -/
structure OwnOp where
  code : Nat
  q : Nat
  tag : Nat
  sWorld : Bool
  sEnc : Nat
  enc : Nat
  gran : Nat
  copy : Bool
  world : Bool
  cleaned : Bool
  next : Nat
  text : List LineData
deriving DecidableEq, Repr

/-- One enclave: its state, binding, debug flag, measurement and number of adds (R323, R326). -/
structure Enclave where
  st : EncSt
  world : Bool
  vmid : Nat
  debug : Bool
  meas : BitVec 384
  adds : Nat
deriving DecidableEq, Repr

/-- A read in a channel's read queue: the request, its place in the order of arrival, when it arrived, whether it has been
issued to the DRAM and whether its data was read once already and found uncorrectable (R243). -/
structure RdEnt where
  req : MemReq
  seq : Nat
  at_ : Nat
  issued : Bool
  retried : Bool
deriving DecidableEq, Repr

/-- A write in a channel's write queue (R219): the request with its full line, the key entry that encrypted it at
acceptance (R238), its arrival time. -/
structure WrEnt where
  req : MemReq
  key : Nat
  seq : Nat
  at_ : Nat
deriving DecidableEq, Repr

/-- One entry of a bank's activate-count table (R233). -/
structure ActEnt where
  row : Nat
  count : Nat
deriving DecidableEq, Repr

/-- Why a channel is in write drain: the watermark or the age limit, or an empty read queue (R227). -/
inductive Drain where
  | none | level | idle
deriving DecidableEq, Repr

/-- A RESUME or REPAIR that runs (R247, R248), with the lines of the row that a row restore holds in the write queue. -/
inductive ChanOp where
  | resume
  | repair (kind sc rk bg ba row : Nat) (held : List LineAddr)
deriving DecidableEq, Repr

/-- One freeze unit: a DDR5 channel, or one HBM3 channel of a stack (R244, R252), beside its registers: its queues, write drain,
open rows, activate counts (R225 to R233), drop list, the command that runs and the snapshot of a freeze (R244 to R248), the
retries of the last command (R242), the line that patrol scrub read last and whether that read failed and is issued once more
(R237, R243), the rank refreshed last, self-refresh, and whether its RDIMMs support refresh management, with the RFM commands
issued to each bank (R234). -/
structure ChanSt where
  rq : List RdEnt
  wq : List WrEnt
  drain : Drain
  openRows : Tbl Nat
  acts : Tbl (List ActEnt)
  drops : List (Nat × Nat)
  op : Option ChanOp
  snapR : List MemReq
  snapW : List MemReq
  retries : Nat
  scrubAt : Option ScrubAt
  scrubBad : Bool
  refRank : Nat
  sref : Bool
  rfmOk : Bool
  rfm : Tbl Nat
deriving DecidableEq, Repr

/-- Whom an XCP rebuild serves: a read handed over (with the time of the hand-over), a write handed over (with the key
that encrypted it), or the parity member itself. -/
inductive RebuildFor where
  | read (req : MemReq) (since : Nat)
  | write (req : MemReq) (key : Nat)
  | parity
deriving DecidableEq, Repr

/-- A delta held while its stripe is rebuilt: the channel it came from, its data, and whether that channel had answered
its member read before (R268). -/
structure HeldDelta where
  chan : Nat
  x : LineData
  late : Bool
deriving DecidableEq, Repr

/-- What a rebuild reads next: the stripe's delta line, or the member in a channel (R268). -/
inductive Member where
  | delta
  | chan (ch : Nat)
deriving DecidableEq, Repr

/-- A rebuild of one member of a stripe (R267, R268): the member (a channel, or none for the parity member), whether it
holds the stripe lock, the reads still to answer and those not yet sent, the XOR so far, and the deltas held meanwhile. -/
structure Rebuild where
  group : Nat
  stripe : Nat
  member : Option Nat
  locked : Bool
  todo : List Member
  unsent : List Member
  acc : LineData
  held : List HeldDelta
  why : RebuildFor
deriving DecidableEq, Repr

/-- A delta line that waits for its way: slice, set and way, whose delta line is being flushed, and the stripe and data of
the new one (R264). -/
structure DeltaFill where
  slice : Nat
  set : Nat
  way : Nat
  group : Nat
  stripe : Nat
  x : LineData
deriving DecidableEq, Repr

/-- A delta or parity update on its way: its group and stripe, the channel it comes from or goes to, its data (R260, R261),
whether an update has left XCP with a write credit (R267), and the delta line that takes the way of the one it flushes, once
the parity channel has accepted it (R264). -/
structure Delta where
  group : Nat
  stripe : Nat
  chan : Nat
  x : LineData
  sent : Bool
  fill : Option DeltaFill
deriving DecidableEq, Repr

/-- The parity engine beside its registers (R261 to R276): deltas on their way to it, parity updates on their way to the
parity channels, requests on their way from lost channels, rebuilds, the resync maps, the stripes whose lost member
can no longer be rebuilt (R266), the next stripe of the block under resync, the groups whose resync rebuilds parity (R276), and
those with a poison pass (R275). -/
structure Xcp where
  deltas : List Delta
  updates : List Delta
  handed : List (MemReq × Nat)
  rebuilds : List Rebuild
  map0 : BitVec 2097152
  map1 : BitVec 2097152
  dead : List (Nat × Nat)
  cur0 : Nat
  cur1 : Nat
  par0 : Bool
  par1 : Bool
  pass0 : Bool
  pass1 : Bool
deriving DecidableEq, Repr

/-- A parity line (R257). -/
structure ParLine where
  data : LineData
  poison : Bool
deriving DecidableEq, Repr
/-! ### Cores -/

/-- A value of a core that may still depend on an access that has not bound it (R46): the access and, for CAS128,
which half. -/
inductive Src where
  | val (w : Nat)
  | dep (id : Nat) (hi : Bool)
deriving DecidableEq, Repr

/-- Privilege levels. -/
inductive Lvl where
  | u | s | h | w
deriving DecidableEq, Repr

/-- A translation invalidation (R292): its function code and operands. -/
structure Inval where
  fn : Nat
  asid : Nat
  vmid : Nat
  va : Nat
  t : Bool
deriving DecidableEq, Repr

/-- An instruction of a core as its command gives it: register numbers and immediates, decoded when it executes. `vec`
marks one element of a vector access; `br` names the register on which the conditional branches since the core's previous
command depend, 0 where there is none (R46, R49, assumption 63). -/
inductive CInstr where
  | load (rd rb : Nat) (off : Nat) (lg : Nat) (vec : Bool)
  | store (rs rb : Nat) (off : Nat) (lg : Nat) (vec : Bool) (br : Nat)
  | fence (ga gb imm : Nat)
  | ord (op ga gb gc size order mbz : Nat)
  | maint (fn ga gb imm : Nat)
  | tlb (fn ga gb imm : Nat)
  | vmCtl (v : Nat)
  | ttReg (r v : Nat)
  | sysW (num v : Nat)
  | wcall (ga gb imm : Nat)
  | ipi (v : Nat)
  | eoi (v : Nat)
  | ackRead (rd : Nat)
  | vipCtl (v : Nat)
  | wfi
deriving DecidableEq, Repr

/-- What an access in the window does. `fence` marks a FENCE that has retired and still orders (R54), `branch` a conditional
branch whose condition an access has still to bind (R46); `gather` is a gathered DEV-R write (R73). -/
inductive Acc where
  | load | store | swp | cas | fadd | fand | forA | cas128 | clean (pt : Bool) | clinv (pt : Bool) | zero
  | fence (mask : Nat) | branch | gather (be : BitVec 64) (go : Bool) | harvest (word : Nat)
deriving DecidableEq, Repr

/-- A part of an access within one line: its bytes' place in the value, its enclave and its memory type: 0 DEV-S,
1 DEV-R, 2 NORM-NC, 3 NORM-WB. -/
structure Seg where
  pa : Nat
  n : Nat
  off : Nat
  enc : Nat
  ty : Nat
deriving DecidableEq, Repr

/-- An access of a core that has not completed, in program order (R57): its parts still to be performed, and what it
needs of registers. `got` is data or an answer handed to it without an installed line; `old` and `oldHi` are what its
destination registers held before it. -/
structure WinOp where
  id : Nat
  k : Acc
  segs : List Seg
  attr : Attr
  rd : Nat
  val : Src
  valHi : Src
  exp : Src
  expHi : Src
  acq : Bool
  rel : Bool
  acc : Nat
  old : Src
  oldHi : Src
  sent : Bool
  got : Option (LineData × Bool × Nat)
  data : LineData
  pc : Nat
deriving DecidableEq, Repr

/-- A TLB entry (R289): `size` is the page's log2, `perm` the stage-1 permissions, `rperm` the range's; `locked` in the L2
TLB only (R291). -/
structure TlbEnt where
  vmid : Nat
  asid : Nat
  glob : Bool
  size : Nat
  va : Nat
  pa : Nat
  perm : Nat
  mti : Nat
  mt : Option Nat
  enc : Nat
  rng : Option Nat
  rperm : Nat
  locked : Bool
deriving DecidableEq, Repr

/-- A walk-cache entry (R288, R289): the level read next, its table's address before and after range translation, and the
attributes of the range that holds it. -/
structure WcEnt where
  vmid : Nat
  asid : Nat
  level : Nat
  va : Nat
  tab : Nat
  host : Nat
  enc : Nat
  wb : Bool
deriving DecidableEq, Repr

/-- A loaded jump range (R284), addresses in bytes. -/
structure JRange where
  k : Nat
  perm : Nat
  mt : Nat
  enc : Nat
  gbase : Nat
  hbase : Nat
  len : Nat
deriving DecidableEq, Repr

/-- A translation fault (R305). -/
structure TrFault where
  cause : Nat
  acc : Nat
  level : Nat
  walk : Bool
  jr : Option Nat
  sts : Nat
  faddr : Nat
deriving DecidableEq, Repr

/-- A table walk in progress (R302): the level read next, the table's address before range translation, and where the walk
cache gave it after that; the walk-cache entries that it installs if it does not fault (R290). -/
structure Walk where
  va : Nat
  acc : Nat
  lvl : Lvl
  spec : Bool
  level : Nat
  tab : Nat
  sent : Bool
  got : Option (LineData × Bool × Nat)
  dropped : Bool
  wcs : List WcEnt
  host : Option (Nat × Nat × Bool)
deriving DecidableEq, Repr

/-- Causes of an exception that this spec names. -/
inductive Cause where
  | undefInstr | align | atomicType | maintType | deviceForm | poison | nonMemory | translation (c : Nat) | vipi
deriving DecidableEq, Repr

/-- An exception a core has raised: its cause, the level the spec reports it to (none where that is left to the
instruction set reference), and the address of its instruction. -/
structure Exc where
  cause : Cause
  lvl : Option Lvl
  pc : Nat
deriving DecidableEq, Repr

/-- One interrupt bank (R436): pending vectors, classes in service, threshold. -/
structure Bank where
  pend : BitVec 256
  isr : BitVec 16
  pri : BitVec 4
deriving DecidableEq, Repr

/-- One core. `cyc` is the part of a clock cycle that has passed, in 1/24,000 (R482). -/
structure CoreSt where
  g : Tbl Src
  pc : Nat
  lvl : Lvl
  online : Bool
  halted : Bool
  haltPend : Bool
  stepping : Bool
  idle : Nat
  idleAt : Nat
  cyc : Nat
  qos : BitVec 2
  front : List CInstr
  ph : Nat
  win : List WinOp
  tlb : List TlbEnt
  itlb : List TlbEnt
  dtlb : List TlbEnt
  wc : List WcEnt
  jr : List JRange
  jrGot : Option (List (LineData × Bool × Nat))
  walks : List Walk
  res : Option (Nat × TrFault)
  invs : List (Nat × Inval)
  outInv : Nat
  bankN : Bank
  bankS : Bank
  bankV : Bank
  brk : Tbl Nat
  retLvl : Lvl
  retPc : Nat
  exc : Option Exc
deriving DecidableEq, Repr

/-- An outstanding request of a die (R94): its message, and the core and access it is for. -/
structure OutReq where
  msg : Msg
  core : Nat
  op : Nat
deriving DecidableEq, Repr

/-- A broadcast in progress (R295): its number, issuer, invalidation, and the TCDs still to answer. -/
structure Bcast where
  id : Nat
  core : Nat
  inv : Inval
  targets : BitVec 12
deriving DecidableEq, Repr

/-- A broadcast on its way to a TCD or at it: whether it has reached the translation block, and its cores that have
not acknowledged (R297). -/
structure TcdInv where
  tcd : Nat
  id : Nat
  inv : Inval
  here : Bool
  cores : BitVec 24
deriving DecidableEq, Repr

/-! ### PCI Express functions -/

/-- An MSI-X table entry (R345). -/
structure MsixEnt where
  addr : Nat
  data : Nat
  mask : Bool
deriving DecidableEq, Repr

/-- The configuration state of a TQE function (R340): command bits, power state, MSI-X control with its table and
pending bits, the function generation (R360), a Function Level Reset in progress with its start (R361, R362), and the
AER uncorrectable error status; and the bits of configuration registers that PCI Express lets software write and that have no
other effect here, by offset. -/
structure FnSt where
  mse : Bool
  bme : Bool
  intxDis : Bool
  d3 : Bool
  msixEn : Bool
  msixMask : Bool
  table : Tbl MsixEnt
  pend : List Nat
  fgen : Nat
  flr : Option Nat
  aer : Nat
  cfg : Tbl Nat
deriving DecidableEq, Repr

/-- The BARs of the TQE and PF0's SR-IOV control (R340, R343), and whether an access to a BAR that overlaps a root-port
window has been logged (R342). -/
structure Ep where
  bar0 : Nat
  bar2 : Nat
  bar4 : Nat
  vfBar0 : Nat
  vfEn : Bool
  vfMse : Bool
  numVfs : Nat
  ari : Bool
  overlap : Bool
deriving DecidableEq, Repr

/-- A root port's Type 1 header as the hub decodes it (R562): bus numbers, memory and prefetchable windows (base and
one past the last address), and Bus Master Enable. -/
structure RootPort where
  sec : Nat
  sub : Nat
  memB : Nat
  memL : Nat
  pfB : Nat
  pfL : Nat
  bme : Bool
deriving DecidableEq, Repr


/-- A device store in the transmit queue of a root port, or issued onto its link (R75): the line, byte enables and data, and
the stop it came from. -/
structure PortTx where
  line : Nat
  be : BitVec 64
  data : LineData
  src : Stop
deriving DecidableEq, Repr

/-- One entry of the doorbell watch table (R114, R115, R379, R381): the octet and function it serves, the attributes of
its reads; armed while the TQE holds the line in S; rung when an event has not been read yet; a read on its way, whether
it is the retry, and whether its data is to be discarded (R358); the data of a read that has returned; the time of a
retry. -/
structure Watch where
  octet : Nat
  fn : Nat
  attr : Attr
  armed : Bool
  rung : Bool
  reading : Bool
  tried : Bool
  discard : Bool
  got : Option (LineData × Bool × Nat)
  retryAt : Option Nat
deriving DecidableEq, Repr

/-- A doorbell read whose line was released before its data came (R358, R360, R379): its line, function and generation,
and whether it is marked for discard. -/
structure Stray where
  line : Nat
  fn : Nat
  fgen : Nat
  discard : Bool
deriving DecidableEq, Repr

/-- A piece of peer traffic that has been translated (R350, R353, R355): its number, requester, the message of the root
port, the request to memory, and whether it has been issued. -/
structure Piece where
  id : Nat
  rid : Nat
  orig : Msg
  out : Msg
  sent : Bool
  discard : Bool
  fgen : Nat
deriving DecidableEq, Repr

/-- A read of TQE_WIN_FENCE that waits (R353): the pieces and the doorbell reads it waits for, when it began, and the message
that asks for it, if a message brought it. -/
structure Fence where
  ids : List Nat
  lines : List Nat
  since : Nat
  rq : Option Msg
deriving DecidableEq, Repr

/-- A ring context (R366, R368) with the physical doorbell line of its last RING_ENABLE (R381) and the state it had when
its function was frozen (R418). -/
structure RingCtx where
  st : Nat
  lg : Nat
  fn : Nat
  pcls : Nat
  qos : Nat
  mtag : Nat
  vec : Nat
  sq : Nat
  cq : Nat
  db : Nat
  phys : Nat
  fetch : Nat
  fetchDup : Nat
  piSeen : Nat
  done : Nat
  doneDup : Nat
  lap : Nat
  lapSat : Bool
  bell : Bool
  err : Nat
  saved : Nat
deriving DecidableEq, Repr

/-- A fetched descriptor of a ring (R376): its index and data, the status of a fetch that failed, the mover and the
cipher lane that serve it (with the key the lane holds, its type and the slot's SCRUB attribute), and its outcome once
it has one. -/
structure Run where
  idx : Nat
  data : LineData
  bad : Option (Nat × Nat)
  mover : Option Nat
  lane : Option Nat
  key : Nat
  ktype : Nat
  scrub : Bool
  fin : Option (Nat × Nat)
deriving DecidableEq, Repr

/-- A key slot (R397): its type, function, attributes, LOST bit and FILLING mark, and its key, first byte lowest. -/
structure Slot where
  type : Nat
  fn : Nat
  exp : Bool
  scrub : Bool
  lost : Bool
  filling : Bool
  key : Nat
deriving DecidableEq, Repr

/-- A command in a queue of R385: its words of 8 bytes, its length, the WORLD and ENC of its END write, and whether words
were dropped, word 0 among them (R389). -/
structure AdmCmd where
  words : List Nat
  bytes : Nat
  world : Bool
  enc : Nat
  drop : Bool
  noTag : Bool
deriving DecidableEq, Repr

/-- What a queue's executing command waits for: its ring's last commit, the key-wrap engine, the last lane that holds an
erased key, or the freeze of a function (R386, R401, R403, R418). -/
inductive AdmWait where
  | disable (ring : Nat)
  | wrap (un : Bool) (slot kek type : Nat) (exp scrub : Bool) (blob : List Nat) (cancel : Bool)
  | erase (slot : Nat)
  | freeze (fn : Nat)
deriving DecidableEq, Repr

/-- The admin queue of PF0 or a VF's command queue (R385, R389): the words of the command being assembled, commands that
wait, answers that wait (16 bytes each), the last answer popped, and the command that executes, with its tag. -/
structure AdmQ where
  part : List Nat
  partDrop : Bool
  partNoTag : Bool
  cmds : List AdmCmd
  out : List Nat
  last : Nat
  busy : Option (Nat × AdmWait)
deriving DecidableEq, Repr

/-- DMA dirty logging of a function (R426, R427): whether it is on, the first page and number of pages, the log's input
address, overflow, and the filter of recently marked pages. -/
structure DirtyLog where
  on : Bool
  ibase : Nat
  pages : Nat
  buf : Nat
  ovf : Bool
  filter : List Nat
deriving DecidableEq, Repr

/-! ### Interrupts and mailboxes -/

/-- Where an interrupt on its way came from (R443): a wired source, a message (its requester ID, handle and ENC), or a
core. -/
inductive IntFrom where
  | source (n : Nat)
  | msg (rid handle enc : Nat)
  | core
deriving DecidableEq, Repr

/-- A physical interrupt on its way to a core (R436). `stale` marks one translated with an MTT entry that has been
invalidated since (R435). -/
structure IntMsg where
  core : Nat
  vec : Nat
  world : Bool
  origin : IntFrom
  stale : Bool
deriving DecidableEq, Repr

/-- A posted delivery that waits for its accesses (R441). -/
structure Post where
  vipd : Nat
  vec : Nat
  vmid : Nat
  world : Bool
  origin : IntFrom
  stale : Bool
deriving DecidableEq, Repr

/-- A cached entry of a message translation table (R435). -/
structure MttEnt where
  world : Bool
  handle : Nat
  val : Nat
deriving DecidableEq, Repr

/-- A closed entry of a mailbox (R445): its data, valid bytes, LAST, damage mark, and the WORLD and ENC of its message. -/
structure MbxEnt where
  data : Nat
  valid : Nat
  last : Bool
  dmg : Bool
  world : Bool
  enc : Nat
deriving DecidableEq, Repr

/-- The message that a mailbox is assembling (R445, R452): the words of its open entry, who sends it, its damage mark,
and whether what is left of it is discarded (R448). -/
structure MbxOpen where
  words : List Nat
  src : Nat
  world : Bool
  enc : Nat
  dmg : Bool
  drop : Bool
deriving DecidableEq, Repr

/-- A mailbox beside its registers: closed entries, the open message, and the entry popped last (R446). -/
structure Mbx where
  ents : List MbxEnt
  opn : Option MbxOpen
  last : Nat
  lastWorld : Bool
  lastEnc : Nat
deriving DecidableEq, Repr

/-- The lap counter, sticky saturation and bell, with the bell's count, of a number for which the register tables give no
place to read them: the timebase, and the indices of the split and error rings (R23, R24, R26, R489, assumption 50). -/
structure TimeLap where
  lap : Nat
  sat : Bool
  bell : Bool
  count : Nat
deriving DecidableEq, Repr

/-! ### Links, errors, power, the relay ring, the service monitor -/

/-- A Stride link beside the hub end's registers. Towards the die (R191, R194, R195): the link credits the hub end holds for
the three channels, its last slot number and the slots not yet acknowledged; the die's RX_SEQ, whether the die discards slots
until a resend, the condition of the check bits of the next slot to the die, and the die's flags, numbered as in STR_STS. From
the die (R190 to R196): the place of the rotation, the slots in the channel buffers, the RX_SEQ of the replay request that
waits for its resend, and the discarded slots that the die is to send again. The training in progress (R199, R210): the mask
of the last mismatch, the hub's proposal, a width-check message that waits, the RX_SEQ that the die reported, bad wires by
group, and whether a width check has matched since the last reset of a link end (R208). The times of the corrections on every
wire in the last millisecond (R201). The loop-back test (R216): its pattern and point, and the margins and the error count of
every wire. Wires have the number 128 g + w. -/
structure Link where
  cred : Nat × Nat × Nat
  txSeq : Nat
  unacked : List (Nat × Msg)
  dieSeq : Nat
  dieSkip : Bool
  dieErr : Nat
  dieSts : Nat
  rot : Nat
  rx : List (Nat × List Msg)
  reqSeq : Option Nat
  lost : List (BitVec 8 × List Msg)
  mask : Nat
  prop : Option (Nat × Nat)
  heldMsg : Option (Nat × Nat × Nat × Nat)
  peerSeq : Nat
  bad : Tbl Nat
  matched : Bool
  corr : Tbl (List Nat)
  test : Option (Nat × Nat)
  results : Tbl (Nat × Nat × Nat)
deriving DecidableEq, Repr

/-- An open entry of ERR's coalescing table (R511): the record that opened it, its last occurrence, the occurrences, and
when it opened. -/
structure Coal where
  first : ErrRec
  last : ErrRec
  count : Nat
  opened : Nat
deriving DecidableEq, Repr

/-- What a path has lost since its last LOST record (R512): the number, the first and last lost SEQ, the losses by
severity. -/
structure Loss where
  n : Nat
  first : Nat
  last : Nat
  by_ : Nat × Nat × Nat × Nat
deriving DecidableEq, Repr

/-- ERR beside its registers (R510 to R514): lap and bell of ERR_RING_PI (R23, R24), the severity queues in order of arrival,
the coalescing table with the oldest entry first, the log FIFO and the record popped last, the losses of both paths, FATAL
alarms that wait for a token, and a fatal record that the SVP keeps (R546). -/
structure ErrSt where
  piLap : TimeLap
  q : List ErrRec
  coal : List Coal
  fifo : List ErrRec
  last : List Nat
  fifoLoss : Option Loss
  ringLoss : Option Loss
  almq : List ErrRec
  kept : Option ErrRec
deriving DecidableEq, Repr

/-- A PMC request that is held under a claim (R465), or whose answer waits for the end of a domain's transition: its code,
TAG, mailbox, the WORLD and ENC of its message, and when it was held. -/
structure PmcReq where
  code : Nat
  tag : Nat
  mbx : Nat
  enc : Nat
  since : Nat
deriving DecidableEq, Repr

/-- The PMC beside its registers: requests held by domain (R465), and those answered when a domain's transition ends; domains
to be powered on once OFF (R465); operating points whose voltage still rises (R467); inlet reports of the last 10 s (R474);
regulator samples in mA and set points in mV (R212); regulators that have shut off (R213); reported rails and the power of
each 1 ms interval (R469); clusters too hot (R475); mains loss: its presence, and when the lines came back (R477, R479);
power-good rises ignored while an enable was low (R578); CLOSING stops that have reported their drain (R459); cores whose
last offline request came from the Secure world (R463); mailboxes 8 and 10 in the order in which their messages arrived
(R461); the modelled plate's temperature in µK and the time it stands for, and the plate's R0, F0 and FLOW_FLOOR (R474, R475,
R593). -/
structure PmcSt where
  held : Tbl PmcReq
  waits : Tbl PmcReq
  psNext : Tbl Nat
  tins : List (Nat × Nat)
  amps : Tbl Nat
  volts : Tbl Nat
  tripped : List Nat
  rails : Nat
  hist : List Nat
  hot : List Nat
  lost : Bool
  backAt : Option Nat
  early : Nat
  drained : List Nat
  secOff : List Nat
  order : List Nat
  plate : Nat
  plateAt : Nat
  r0 : Nat
  f0 : Nat
  floor : Nat
deriving DecidableEq, Repr

/-- What leaves the package on the relay ring: a frame, or an ordered set (a FREEZE or else a MAINS_LOST) with its ORIGIN. -/
inductive RingOut where
  | frame (f : Frame)
  | set (freeze : Bool) (origin : Nat)
deriving DecidableEq, Repr

/-- The relay port beside its registers: what has left, the last SEQ accepted from each source (R535), the sets being
repeated with the repeats left (R531), LEAVE, the time of the last TIME frame, consecutive good offsets, the correction
still to be slewed and the frequency accumulator, both in 1/15,000 ns (R534). -/
structure RlySt where
  out : List RingOut
  hist : Tbl Nat
  reps : List (Bool × Nat)
  left : Bool
  timeAt : Nat
  good : Nat
  slew : Int
  acc : Nat
deriving DecidableEq, Repr

/-- Where a monitor line comes from (R537, R541): the UART; a ring frame, with its SRC and TAG; a request in mailbox 12,
with its WORLD, TAG and ENC. -/
inductive Path where
  | uart
  | ring (dst tag : Nat)
  | mbx (world : Bool) (tag enc : Nat)
deriving DecidableEq, Repr

/-- What leaves on the UART for a line (R539): values printed, and the status where it is the status line. -/
structure MonAns where
  vals : List Nat
  sts : Option Nat
deriving DecidableEq, Repr

/-- The monitor beside its registers: what has left on the UART, the UART's rate, the level that AUTH has given the
session, the nonce issued, the times of failed responses, a lockout in force (R542), the lines that wait, oldest first
(R537), the readout in progress: its path, the sections selected and the offset (R549); and answers for mailbox 13 that
wait for room: WORLD 1, ENC and the bytes. -/
structure MonSt where
  out : List MonAns
  baud : Nat
  level : Option Nat
  nonce : Option Nat
  fails : List Nat
  lockout : Bool
  lines : List (Path × MonCmd)
  cap : Option (Path × List Nat × Nat)
  mbOut : List (Bool × Nat × List (BitVec 8))
deriving DecidableEq, Repr

/-- The steps of a boot or reset (R556, R560, R569): waiting for PG_MAIN; for the auxiliary rails and the boot chain; for
training; ready for the hand-off; the L3 flush of a memory-preserving reset. -/
inductive BootPh where
  | none | rails | chain | train | ready | flush
deriving DecidableEq, Repr

/-- Lands and boot: the enables, the power-good lands (auxiliary: DDR, HBM, PCIE), RST_N, PWRFAIL_N, the pulses driven on
PHOTO_N (R547), EXTEST (R591) and an AUTOBOOT it holds; the boot's step and configuration, whether its chain has been
verified; the pending cause of a refusal; a HUB_RST in progress, and whether a die still flushes (R570); what the SEP's
retention memory holds (R480). -/
structure Sys where
  enMain : Bool
  enAux : Bool
  pgAon : Bool
  pgMain : Bool
  pgAux : BitVec 3
  rstN : Bool
  pwrfailN : Bool
  photoPulses : Nat
  extest : Bool
  autoHeld : Bool
  ph : BootPh
  cfg : Option BootCfg
  rst : Option Nat
  rstFl : Bool
  kept : Bool
deriving DecidableEq, Repr

/-- A photo-finish on its way to PHOTO (R547): the controllers that have not reported, and whether the stop order has gone
out. -/
structure PfSt where
  wait : List Nat
  stopped : Bool
deriving DecidableEq, Repr

/-- An entry of the meter table (R492): 1 OPEN or 2 CLOSING, the OPEN_SEQ, the cumulative quantities (energy in 1/65536 µJ),
whether its first record is still to come, and the intervals since a record. -/
structure Meter where
  st : Nat
  openSeq : Nat
  energy : Nat
  cycles : Nat
  instr : Nat
  mem : Nat
  tqe : Nat
  fresh : Bool
  quiet : Nat
deriving DecidableEq, Repr

/-- The split and metering unit beside its registers: lap and bell of SPL_PI (R23, R24), the meter table, the bytes admitted
at homes by MTAG since the last interval, whether some came from a die without MTAG, the records lost since the last LOST
record (first and last SEQ, and the number), the intervals since a UNIT split, and the SEQ of the last END record. -/
structure SplSt where
  piLap : TimeLap
  meters : Tbl Meter
  mem : Tbl Nat
  t1 : Bool
  loss : Option (Nat × Nat × Nat)
  unitAt : Nat
  lastEnd : Nat
deriving DecidableEq, Repr


/-- The spec gives every command an effect, and an access to an address that does not exist reads zero (R42), so no
command of this model faults. -/
inductive Fault where
deriving DecidableEq, Repr

/-- Why a command is refused. -/
inductive Refusal where
  /-- Raised by `exec` for a command that the model gives no meaning; safe, since the machine stops. -/
  | notModelled (mnemonic : String)
deriving DecidableEq, Repr

/-- The whole package. -/
structure State where
  /-- The queue of commands that wait, oldest first. -/
  pending : List Instr
  /-- The register file: the value of every register field by its key; an unlisted field reads its reset value (R6,
  R7). -/
  regs : Tbl Nat
  /-- Memory: DDR5, HBM and CXL lines with data, poison mark and key, 64 bytes a line, canonical list (R39 to R41,
  R236, R238). -/
  mem : Tbl MemLine
  /-- Model field (assumption 3): the number of free values taken so far. -/
  freeCtr : Nat
  /-- The 64-bit nanosecond timebase (R26). -/
  now : Word
  /-- The timebase's lap counter (16 bits), LAP_SAT, bell (1 bit each) and bell count (16 bits) (R23, R24, R26). -/
  tb : TimeLap
  /-- Bytes of DDR5 usable for DDR addresses, as the memory training and parity mode leave them (R40, R256, R564).
  -/
  ddrUsable : Nat
  /-- Records on their way from the units to ERR (R506, R510). -/
  errIn : List ErrRec
  /-- The hub mesh: messages and credits in flight, messages that wait for a credit or a response buffer, credit
  pools, response buffers with generation bits, pacer queues, bucket levels (10 fractional bits) and round-robin,
  the route engine's masks and the routers still to be marked (R154 to R186). -/
  mesh : Mesh
  /-- Messages on their way up a Stride link to the hub (R191, R193). -/
  up : List Msg
  /-- Each home slice: write-back and request queues, line locks with their phases and queues, HMC fills that wait,
  sweep pointer, snoops whose answers are late (R93 to R112). -/
  homes : Tbl Home
  /-- The directories: entries by slice, set and way (state, owner, sharers, BI, check bits) (R88, R89). -/
  dir : Tbl DirEnt
  /-- The hub memory-side cache: lines by slice, set and way (tag, dirty, poison, data, check bits), and delta ways
  (R125, R126, R263). -/
  hmc : Tbl HmcWay
  /-- Each home slice's cache of MOT lines: 32 sets of eight ways, the newest line first (R321). -/
  motc : Tbl (List Nat)
  /-- The 32-bit HMC LFSR of each slice (R130, R131). -/
  lfsr : Tbl Nat
  /-- The next set of each slice that the sweep of a draining HMC half takes (R142). -/
  hsweep : Tbl Nat
  /-- Each die's L3 lines with TCD state, data, poison, core-presence vector, core-level exclusive owner and
  attributes (R81, R82, R120). -/
  l3 : Tbl L3Line
  /-- The arrays of the die caches, sixteen ways a set with their pseudo-LRU trees: L1D, L1I and L2 of each core and the sixteen
  banks of each L3, numbered as R550 numbers them (R119, R120). -/
  arrs : Tbl Arr
  /-- Each die's evict-pending buffer (R102). -/
  evp : Tbl EvEnt
  /-- Each agent's outstanding requests (R94). -/
  outReq : Tbl (List OutReq)
  /-- The times of each agent's snoop timeouts within the last second (R106, R108). -/
  agentTmo : Tbl (List Nat)
  /-- The enclaves: state, world, VMID, debug flag, 384-bit measurement, number of adds (R323, R326). -/
  encs : Tbl Enclave
  /-- The ownership change in progress (R327). -/
  own : Option OwnOp
  /-- The answer of an ownership change that waits for room in its mailbox (R325, R327). -/
  ownDone : Option (Nat × Nat × Nat)
  /-- Per root port: the IDE requirement and the world and enclave bound to it (R331, R333). -/
  ide : Tbl Nat
  /-- The requester IDs behind the root ports whose Bus Master Enable is 1 (R349, R464). -/
  bmeExt : List Nat
  /-- The SEP's rollback version (64 bits) (R561). -/
  sepVer : Nat
  /-- The key table of the channels: how often each of the 1,024 entries has been loaded (R238, R239). -/
  keyTab : Tbl Nat
  /-- How many keys have been loaded in all: the number of the last one (R239, R328; the model's own count). -/
  keySeq : Nat
  /-- Each of the 80 freeze units: read and write queue, drain mode, open rows, activate tables, patrol pointer,
  drops, RESUME or REPAIR in progress, capture snapshots, retries, self-refresh (R219 to R252). -/
  chans : Tbl ChanSt
  /-- The parity lines of the stripes (512 bits and poison) (R257). -/
  parity : Tbl ParLine
  /-- The parity engine: deltas, parity updates, requests handed over, rebuilds with stripe locks, the two resync
  maps (2,097,152 bits each), lost stripes, resync cursors, what the resync rebuilds (R260 to R276). -/
  xcp : Xcp
  /-- Each core: general registers, pc, level, online, halt and step, idle state, QOS, front of undecoded
  instructions, window of accesses in program order, TLB, walk cache, jump ranges, walks, invalidations, three
  interrupt banks, breakpoints, what a return from WCALL needs, the exception raised (R46 to R80, R278 to R309,
  R310, R311, R436, R544). -/
  cores : Tbl CoreSt
  /-- Model field (assumption 11): the number the next access of a core takes, for its place in the window. -/
  opSeq : Nat
  /-- The core that each die's L3 serves first (R69). -/
  l3rr : Tbl Nat
  /-- Translation broadcasts in progress (R295). -/
  bcasts : List Bcast
  /-- Broadcasts at or on their way to a die, with the cores still to acknowledge (R297). -/
  tcdInv : List TcdInv
  /-- SYNC.TLB and TLBI requests that wait for the broadcast engine (R295). -/
  invq : List (Nat × Inval)
  /-- The VMID presence vectors (12 bits each) (R296). -/
  vmpv : Tbl Nat
  /-- Physical interrupts on their way to cores (R436). -/
  ints : List IntMsg
  /-- Posted deliveries that wait (R441). -/
  posts : List Post
  /-- Cached entries of the message translation tables (R435). -/
  mtt : List MttEnt
  /-- The 64 mailboxes: 32 entries of 16 bytes with VALID, LAST, DMG, WORLD, ENC; the open entry; the entry popped
  last (R445 to R452). -/
  mbx : Tbl Mbx
  /-- The assignment (world and enclave) of each resource that ASSIGN names (R329). -/
  assigns : Tbl Nat
  /-- Domains with a wake request held while they close (R465). -/
  wakes : List Nat
  /-- The answer to the last register access: mesh status and data (R10, R42). -/
  ans : Nat × Nat
  /-- The doorbell watch table (R114, R115, R379, R381). -/
  watch : Tbl Watch
  /-- Doorbell reads whose line was released meanwhile (R358, R360, R379). -/
  strays : List Stray
  /-- Pieces of peer traffic that have been translated (R350, R353). -/
  pieces : List Piece
  /-- Model field (assumption 21): the number of the next piece. -/
  pieceSeq : Nat
  /-- Reads of TQE_WIN_FENCE that wait (R353). -/
  fence : List Fence
  /-- The window table's staging register (R352). -/
  winStage : Option (Nat × Nat)
  /-- The TQE ring contexts (R366, R368). -/
  rings : Tbl RingCtx
  /-- The fetched descriptors of each ring with their mover, lane and outcome (R376). -/
  runs : Tbl (List Run)
  /-- The rings whose contexts are cached, least recently used first (R367). -/
  ctxCache : List Nat
  /-- The round-robin pointer over rings (R376). -/
  rrRing : Nat
  /-- The rings with work that wait for a place in the context cache (R367). -/
  ctxWait : List Nat
  /-- The ring whose context was loaded last (R367). -/
  ctxLast : Nat
  /-- The round-robin pointer over lanes (R393). -/
  rrLane : Nat
  /-- Each function's PCLS, QOS and MTAG (R386). -/
  classes : Tbl (Nat × Nat × Nat)
  /-- The key slots: type, function, EXPORT, SCRUB, LOST, FILLING, key (R397). -/
  slots : Tbl Slot
  /-- Commands that wait for the key-wrap engine (R403). -/
  kwq : List Nat
  /-- The times of key alarms in the window (R407). -/
  alarms : List Nat
  /-- The generators' state as counts of free values (R392). -/
  drbg : Tbl Nat
  /-- Each admin or command queue: the command being assembled, commands and answers that wait, the answer popped
  last, the command that executes (R385, R386, R389). -/
  admq : Tbl AdmQ
  /-- The state of each function's tenant instance (R412). -/
  inst : Tbl Nat
  /-- Bytes of the TQE by MTAG since the last interval (R492). -/
  meterTqe : Tbl Nat
  /-- DMA dirty logging of each function (R426, R427). -/
  dirty : Tbl DirtyLog
  /-- The configuration state of each TQE function: command bits, power state, MSI-X table and pending bits,
  generation, FLR, AER status (R340 to R347, R360 to R362). -/
  fns : Tbl FnSt
  /-- The TQE's BARs and SR-IOV control (R340, R343). -/
  ep : Ep
  /-- The Type 1 header of each root port as the hub decodes it (R562). -/
  ports : Tbl RootPort
  /-- The transmit queue of each root port, oldest store first (R72, R75). -/
  portQ : Tbl (List PortTx)
  /-- What each root port has issued onto its link, in order (R75). -/
  portOut : Tbl (List PortTx)
  /-- Memory writes of the devices behind IOW and IOE that have reached the hub and are not yet visible, in the order
  of their arrival (R76). -/
  posted : List Msg
  /-- The hub end of each Stride link: credits, slot numbers, slots not acknowledged, training in progress (R191 to
  R210). -/
  links : Tbl Link
  /-- ERR: severity queues, coalescing table, log FIFO, losses, alarms that wait, the record kept (R510 to R514). -/
  err : ErrSt
  /-- The PMC: held requests, waiting answers, operating points, inlet reports, regulator samples and set points,
  rails, power history, hot clusters, mains loss, early power-good rises, drained stops (R459 to R480). -/
  pmc : PmcSt
  /-- The relay port: what has left, the SEQ history, sets being repeated, LEAVE, time sync (R518 to R535). -/
  rly : RlySt
  /-- The service monitor: what has left on the UART, baud rate, session level, nonce, failed responses, lockout,
  lines that wait, readout in progress, answers that wait (R537 to R552). -/
  mon : MonSt
  /-- Lands and boot: enables, power-good lands, RST_N, PWRFAIL_N, PHOTO_N pulses, EXTEST, boot step and
  configuration, refusal cause, HUB_RST in progress, retention memory (R555 to R572, R578, R584, R591). -/
  sys : Sys
  /-- The photo-finish in progress (R547). -/
  pf : Option PfSt
  /-- The split and metering unit: meter table, bytes by MTAG, losses, intervals since a UNIT split (R490 to R495).
  -/
  spl : SplSt
  /-- The Package Description Table as the SEP has written it, byte by byte from PRS offset 0; empty before it has
  been written (R563, R564). -/
  pdt : List (BitVec 8)
deriving DecidableEq, Repr

/-- The mesh at reset: nothing in flight, every pool full. -/
def Mesh.init : Mesh := ⟨[], [], [], [], [], [], [], [], [], 0, 0, [], []⟩

/-- Lap and bell at reset. -/
def TimeLap.init : TimeLap := ⟨0, false, false, 0⟩

/-- The parity engine at reset. -/
def Xcp.init : Xcp := ⟨[], [], [], [], 0, 0, [], 0, 0, false, false, false, false⟩

/-- ERR at reset: every queue and table empty. -/
def ErrSt.init : ErrSt := ⟨TimeLap.init, [], [], [], [], none, none, [], none⟩

/-- The PMC at reset. -/
def PmcSt.init : PmcSt := ⟨[], [], [], [], [], [], [], 0, [], [], false, none, 0, [], [], [], 0, 0, 25000, 200, 100⟩

/-- The relay port at reset. -/
def RlySt.init : RlySt := ⟨[], [], [], false, 0, 0, 0, 0⟩

/-- The monitor at reset: 115,200 baud (R540). -/
def MonSt.init : MonSt := ⟨[], 115200, none, none, [], false, [], none, []⟩

/-- Lands and boot at reset: VDD_AON good, both enables low, RST_N and PWRFAIL_N high. -/
def Sys.init : Sys := ⟨false, false, true, false, 0, true, true, 0, false, false, .none, none, none, false, false⟩

/-- Registers that do not stand at the value their table gives: the three stops that have no unit (R155, R178), and the
relay port, which is in TEST once RST_N has risen (R556). -/
def resetRegs : Tbl Nat :=
  [((MESH_STOP.STATE 56).key, 4), ((MESH_STOP.STATE 60).key, 4), ((MESH_STOP.STATE 63).key, 4), (RLY_POS.STATE.key, 1)]

/-- The package right after a cold reset (R556, R566, R568): in STANDBY, every register at its reset value, memory with
nothing listed, every queue, table and cache empty. -/
def State.reset : State where
  pending := []
  regs := resetRegs
  mem := []
  freeCtr := 0
  now := 0
  tb := TimeLap.init
  ddrUsable := 0
  errIn := []
  mesh := Mesh.init
  up := []
  homes := []
  dir := []
  hmc := []
  motc := []
  lfsr := []
  hsweep := []
  l3 := []
  arrs := []
  evp := []
  outReq := []
  agentTmo := []
  encs := []
  own := none
  ownDone := none
  ide := []
  bmeExt := []
  sepVer := 0
  keyTab := []
  keySeq := 0
  chans := []
  parity := []
  xcp := Xcp.init
  cores := []
  opSeq := 2
  l3rr := []
  bcasts := []
  tcdInv := []
  invq := []
  vmpv := []
  ints := []
  posts := []
  mtt := []
  mbx := []
  assigns := []
  wakes := []
  ans := (0, 0)
  watch := []
  strays := []
  pieces := []
  pieceSeq := 0
  fence := []
  winStage := none
  rings := []
  runs := []
  ctxCache := []
  rrRing := 0
  ctxWait := []
  ctxLast := 0
  rrLane := 0
  classes := []
  slots := []
  kwq := []
  alarms := []
  drbg := []
  admq := []
  inst := []
  meterTqe := []
  dirty := []
  fns := []
  ep := ⟨0, 0, 0, 0, false, false, 0, false, false⟩
  ports := []
  portQ := []
  portOut := []
  posted := []
  links := []
  err := ErrSt.init
  pmc := PmcSt.init
  rly := RlySt.init
  mon := MonSt.init
  sys := Sys.init
  pf := none
  spl := ⟨TimeLap.init, [], [], false, none, 0, 0⟩
  pdt := []

end Sys2Proof.Machine
end

