-- ==== Sys2Proof/Machine/Flits.lean ====
section
/-!
DEFINITION. The mesh as a network of flits: stops and their ports (R154 to R156, R163), planes and opcodes (R91, R158),
the flit header (R159), routes with their virtual channels (R162, R183), and the movement of flits in one cycle (R162 to
R164).
-/
namespace Sys2Proof.Machine

/-! ### Stops (R85, R90, R155, R156) -/

/-- The stop of die n. -/
def tcdStop (n : Nat) : Nat := [8, 24, 40, 16, 32, 48, 15, 31, 47, 23, 39, 55].getD n 63

def tqeStop : Nat := 59
def iowStop : Nat := 0
def ioeStop : Nat := 7
def svcStop : Nat := 3
def xcpStop : Nat := 4
def pirStop : Nat := 27
def mbxStop : Nat := 28
def splStop : Nat := 35
def errStop : Nat := 36

/-- The stop of home slice h: sixteen homes in rows 1 to 3, sixteen in rows 4 to 6. -/
def homeStop (h : Nat) : Nat :=
  [9, 10, 11, 12, 13, 14, 17, 18, 19, 20, 21, 22, 25, 26, 29, 30,
   33, 34, 37, 38, 41, 42, 43, 44, 45, 46, 49, 50, 51, 52, 53, 54].getD h 63

/-- The stop of MCH k. -/
def mchStop (k : Nat) : Nat :=
  homeStop ([0, 2, 4, 6, 8, 10, 12, 14, 16, 18, 20, 22, 24, 26, 28, 30].getD k 0)

/-- The two stops of HBC k: A and B. -/
def hbcStop (k : Nat) (b : Bool) : Nat := [1, 5, 57, 61].getD k 63 + (if b then 1 else 0)

/-- The agent slot at a stop: a die or the TQE (R90). -/
def slotOfStop (st : Nat) : Option Nat :=
  if st = tqeStop then some 12 else (List.range 12).find? (fun n => tcdStop n == st)

/-- The stop of an agent slot. -/
def stopOfSlot (a : Nat) : Nat := if a = 12 then tqeStop else tcdStop a

/-- The home slice at a stop. -/
def homeOfStop (st : Nat) : Option Nat := (List.range 32).find? (fun h => homeStop h == st)

/-- The home hash over the line address PA[51:6]: ten groups of five bits (R85). -/
def homeOf (line : Nat) : Nat :=
  (List.range 10).foldl (fun a k => a ^^^ ((line >>> (5 * k)) % 32)) 0

/-- The local ports of a stop on each plane (R156). -/
def portsOf (st : Nat) : Nat :=
  if (slotOfStop st).isSome ∨ st = iowStop ∨ st = ioeStop ∨ (List.range 4).any (fun k => hbcStop k false == st || hbcStop k true == st)
  then 3
  else if (List.range 16).any (fun k => mchStop k == st) then 2 else 1

/-! ### Opcodes and planes (R91, R158) -/

/-- The request opcodes of the REQ plane. -/
def Opc.isRequest : Opc → Bool
  | .rdShared | .rdUnique | .upgrade | .rdOnce | .wrFull | .wrPart | .wbDirty | .evClean | .maintCln | .maintInv => true
  | _ => false

/-- The snoop opcodes of the SNP plane. -/
def Opc.isSnoop : Opc → Bool
  | .snpShared | .snpUnique | .snpInv | .snpCur | .snpCln => true
  | _ => false

/-- The final answers that complete a request at its stop. -/
def Opc.isAnswer : Opc → Bool
  | .dataS | .dataE | .dataM | .grantE | .dataOnce | .wbAck | .wbAckStale | .evAck | .wrAck | .maintAck => true
  | _ => false

/-- The opcodes of R91. -/
def Opc.code : Opc → Nat
  | .rdShared => 0x01 | .rdUnique => 0x02 | .upgrade => 0x03 | .rdOnce => 0x04 | .wrFull => 0x05 | .wrPart => 0x06
  | .wbDirty => 0x08 | .evClean => 0x09 | .maintCln => 0x0A | .maintInv => 0x0B
  | .snpShared => 0x10 | .snpUnique => 0x11 | .snpInv => 0x12 | .snpCur => 0x13 | .snpCln => 0x14
  | .rspClean => 0x15 | .rspClnWb => 0x16 | .rspI => 0x18 | .rspS => 0x19 | .rspIFwd => 0x1A | .rspSFwd => 0x1B
  | .rspOFwd => 0x1C | .rspIWb => 0x1D | .rspSWb => 0x1E | .rspCurFwd => 0x1F
  | .dataS => 0x20 | .dataE => 0x21 | .dataM => 0x22 | .grantE => 0x23 | .dataOnce => 0x24
  | .wbAck => 0x28 | .wbAckStale => 0x29 | .evAck => 0x2A | .wrAck => 0x2B | .maintAck => 0x2C | .compAck => 0x2F
  | .rsv c => c.toNat

/-- The message carries a line of data with its header (R91, R158). -/
def Opc.hasData : Opc → Bool
  | .wrFull | .wrPart | .wbDirty | .rspClnWb | .rspIWb | .rspSWb | .dataS | .dataE | .dataM | .dataOnce => true
  | _ => false

/-- The plane of an opcode (R91, R158). -/
def Opc.plane (o : Opc) : Plane := if o.isRequest then .req else if o.isSnoop then .snp else .rsp

/-- The plane of a flit: memory requests go on REQ, CRD flits on SNP (R158, R166; the plane of a memory request by
assumption 67). -/
def Load.plane : Load → Plane
  | .msg m | .part m => m.opc.plane
  | .mem _ => .req
  | .crd _ => .snp

/-- The bits of a plane's flit (R158). -/
def Plane.bits : Plane → Nat
  | .snp => 160
  | _ => 640

/-- The 160-bit segments of a plane's flit, each with 9 check bits beside it (R161). -/
def Plane.segments (p : Plane) : Nat := p.bits / 160

def Load.attr : Load → Attr
  | .msg m | .part m => m.attr
  | .mem r => r.attr
  | .crd _ => ⟨false, 0, 0, 0, 0⟩

/-! ### Routes (R162, R183) -/

/-- The numbers from a to b, in order of travel. -/
def leg (a b : Nat) : List Nat :=
  if a ≤ b then (List.range (b - a + 1)).map (fun k => a + k) else (List.range (a - b + 1)).map (fun k => a - k)

/-- The routers of row y from column a to column b. -/
def rowLeg (y a b : Nat) : List Nat := (leg a b).map (fun x => 8 * y + x)

/-- The routers of column x from row a to row b. -/
def colLeg (x a b : Nat) : List Nat := (leg a b).map (fun y => 8 * y + x)

/-- The routers a route crosses, in order; w is the detour row or column. -/
def routeOf (sh : Shape) (w src dst : Nat) : List Nat :=
  let sx := src % 8; let sy := src / 8; let dx := dst % 8; let dy := dst / 8
  match sh with
  | .xy => rowLeg sy sx dx ++ (colLeg dx sy dy).tail
  | .yx => colLeg sx sy dy ++ (rowLeg dy sx dx).tail
  | .xyx => rowLeg sy sx w ++ (colLeg w sy dy).tail ++ (rowLeg dy w dx).tail
  | .yxy => colLeg sx sy w ++ (rowLeg w sx dx).tail ++ (colLeg dx w dy).tail

/-- The virtual channel on which a flit enters router k of its route (R162): the third leg of a detour runs on VC2. -/
def vcOf (sh : Shape) (w src dst k : Nat) : Nat :=
  let d (a b : Nat) : Nat := if a ≤ b then b - a else a - b
  match sh with
  | .xy => 0
  | .yx => 1
  | .xyx => if k ≤ d (src % 8) w + d (src / 8) (dst / 8) then 0 else 2
  | .yxy => if k ≤ d (src / 8) w + d (src % 8) (dst % 8) then 1 else 2

/-- No router of the route is dead. -/
def routeClear (dead : BitVec 64) (sh : Shape) (w src dst : Nat) : Bool :=
  (routeOf sh w src dst).all (fun r => !dead.getLsbD r)

/-- The numbers 0 to 7 other than c, nearest to c first, the lower first on a tie. -/
def nearestFirst (c : Nat) : List Nat :=
  (List.range 8).flatMap (fun k =>
    if k = 0 then [] else
      (if k ≤ c then [c - k] else []) ++ (if c + k < 8 then [c + k] else []))

/-- The route engine's choice (R183); none when the destination is unreachable. -/
def chooseRoute (dead : BitVec 64) (src dst : Nat) : Option (Shape × Nat) :=
  if routeClear dead .xy 0 src dst then some (.xy, 0)
  else if routeClear dead .yx 0 src dst then some (.yx, 0)
  else
    match (nearestFirst (src / 8)).find? (fun w => routeClear dead .yxy w src dst) with
    | some w => some (.yxy, w)
    | none =>
      match (nearestFirst (src % 8)).find? (fun w => routeClear dead .xyx w src dst) with
      | some w => some (.xyx, w)
      | none => none

/-! ### Flits -/

/-- A flit at its source stop, with the route of the active bank and the route epoch fixed (R162, R184). One whose
destination the routes do not reach, or is its own stop, never enters the mesh. -/
def Mesh.flit (x : Mesh) (epoch src dst : Nat) (l : Load) : Flit :=
  match chooseRoute x.mask src dst with
  | some (sh, w) => ⟨l, src, dst, l.plane, sh, w, epoch % 4, 0, 0, false⟩
  | none => ⟨l, src, dst, l.plane, .xy, 0, epoch % 4, 0, 0, true⟩

/-- The routers of the flit's route. -/
def Flit.route (f : Flit) : List Nat := routeOf f.shape f.waypt f.src f.dst

/-- The flit has left the routers, or never enters them. -/
def Flit.out (f : Flit) : Bool := f.back || decide (f.route.length < f.hop)

/-- The router that holds the flit. -/
def Flit.at? (f : Flit) : Option Nat := if f.out ∨ f.hop = 0 then none else f.route[f.hop - 1]?

/-- Two flits take one port, one route and one sequence of virtual channels (R163). -/
def Flit.samePath (f g : Flit) : Bool :=
  f.plane == g.plane && f.src == g.src && f.dst == g.dst && f.shape == g.shape && f.waypt == g.waypt && f.epoch == g.epoch

def Plane.num : Plane → Nat
  | .req => 0
  | .rsp => 1
  | .snp => 2

/-- The side of router b at which a flit from router a comes in: 0 west, 1 east, 2 north, 3 south, 4 its own stop. -/
def sideOf (a b : Nat) : Nat := if a + 1 = b then 0 else if b + 1 = a then 1 else if a + 8 = b then 2 else if b + 8 = a then 3 else 4

/-- The input of the router that the flit stands at. -/
def Flit.input (f : Flit) : Nat :=
  if f.hop ≤ 1 then 4 else sideOf ((f.route[f.hop - 2]?).getD 0) ((f.route[f.hop - 1]?).getD 0)

/-- The buffer of hop k of a flit: its plane, the router (or 64 and the stop, with the port, where it waits to be
injected), the input and the virtual channel (R162, R163). -/
def Flit.buffer (f : Flit) (k : Nat) : Nat × Nat × Nat × Nat :=
  if k = 0 then (f.plane.num, 64 + f.src, f.dst % portsOf f.src, 0)
  else
    let r := (f.route[k - 1]?).getD 0
    (f.plane.num, r, if k = 1 then 4 else sideOf ((f.route[k - 2]?).getD 0) r, vcOf f.shape f.waypt f.src f.dst (k - 1))

/-- What the flit needs for its next step, of which each carries one flit in a cycle: an injection port, a link between two
routers, or an ejection port (R156, R162, R163). -/
def Flit.next (f : Flit) : Nat × Nat × Nat :=
  let n := f.route.length
  if f.hop = 0 then (f.plane.num, 64 + f.src, f.dst % portsOf f.src)
  else if f.hop < n then (f.plane.num, (f.route[f.hop - 1]?).getD 0, (f.route[f.hop]?).getD 0)
  else (f.plane.num, 128 + f.dst, f.src % portsOf f.dst)

/-- A router's buffer of one input and one virtual channel (R162). -/
def Plane.depth : Plane → Nat
  | .snp => 8
  | _ => 4

/-- The i-th flit is the oldest of its buffer, and its next buffer has room: the link credit (R162). -/
def flitReady (net : List (Flit × Nat)) (f : Flit) (i : Nat) : Bool :=
  let held (b : Nat × Nat × Nat × Nat) : List (Flit × Nat) := net.filter (fun g => !g.1.out && g.1.buffer g.1.hop == b)
  let oldest := (held (f.buffer f.hop)).all (fun g => g.1.wait < f.wait || (g.1.wait == f.wait && decide (i ≤ g.2)))
  let room := decide (f.route.length ≤ f.hop) || decide ((held (f.buffer (f.hop + 1))).length < f.plane.depth)
  !f.out && oldest && room

/-- The flit that one output carries in a cycle (R164): one that has waited 256 cycles, the oldest first; else the highest
QOS, and round-robin over the inputs. -/
def arbitrate (start : Nat) (fs : List (Flit × Nat)) : Option (Flit × Nat) :=
  let old := fs.filter (fun f => decide (256 ≤ f.1.wait))
  match old.find? (fun f => old.all (fun g => decide (g.1.wait ≤ f.1.wait))) with
  | some f => some f
  | none =>
    [3, 2, 1, 0].findSome? (fun q =>
      let l := fs.filter (fun f => f.1.load.attr.qos.toNat == q)
      ((List.range 5).map (fun i => (start + i) % 5)).findSome? (fun i => l.find? (fun f => f.1.input == i)))

/-- The number of an output, for its round-robin pointer. -/
def outKey (r : Nat × Nat × Nat) : Nat := (r.1 * 256 + r.2.1) * 256 + r.2.2

/-- One cycle of the mesh: each port and link carries at most one flit (R156, R162 to R164). -/
def Mesh.cycle (x : Mesh) : Mesh :=
  let net := x.net.zipIdx
  let ready := net.filter (fun f => flitReady net f.1 f.2)
  let outs := (ready.map (fun f => f.1.next)).eraseDups
  let go := outs.filterMap (fun r => arbitrate (Tbl.getD x.arb (outKey r) 0) (ready.filter (fun f => f.1.next == r)))
  { x with
    net := net.map (fun f =>
      if f.1.out then f.1
      else if go.any (fun g => g.2 == f.2) then { f.1 with hop := f.1.hop + 1, wait := 0 }
      else { f.1 with wait := f.1.wait + 1 })
    arb := go.foldl (fun t f => Tbl.put t (outKey f.1.next) 0 ((f.1.input + 1) % 5)) x.arb }

/-! ### The flit's bits (R158, R159) -/

def Shape.num : Shape → Nat
  | .xy => 0
  | .yx => 1
  | .xyx => 2
  | .yxy => 3

/-- The AUX field: the status of a response, PT of a maintenance operation, the size of a device access. -/
def Msg.aux (m : Msg) (device : Bool) : Nat :=
  if m.opc.plane = .rsp then m.sts.toNat
  else if m.opc = .maintCln ∨ m.opc = .maintInv then m.pt.toNat
  else if device then m.size.toNat else 0

/-- The header of a message with its route fields, bits [121:101] (R159). -/
def Msg.header (m : Msg) (route : BitVec 21) (device : Bool) : BitVec 128 :=
  let r := m.opc.plane = .rsp
  BitVec.ofNat 6 m.opc.code ++ route ++ m.txn ++ (if r then (0 : BitVec 46) else m.line) ++
    BitVec.ofBool m.attr.world ++ m.attr.enc ++ m.attr.mtag ++ m.attr.pcls ++ m.attr.qos ++ BitVec.ofBool m.poison ++
    BitVec.ofNat 3 (m.aux device) ++ (if device then m.low else (0 : BitVec 6))

/-- The route fields of a flit (R159). -/
def Flit.fields (f : Flit) (dunit : BitVec 2) : BitVec 21 :=
  BitVec.ofNat 2 f.shape.num ++ BitVec.ofNat 3 f.waypt ++ BitVec.ofNat 2 f.epoch ++ BitVec.ofNat 6 f.dst ++ dunit ++
    BitVec.ofNat 6 f.src

/-- The header of a flit of a message (R159). -/
def Flit.header (f : Flit) (m : Msg) (device : Bool) : BitVec 128 := m.header (f.fields m.dunit) device

/-- The payload of a CRD flit (R166). -/
def Crd.payload (c : Crd) : BitVec 32 :=
  (0 : BitVec 8) ++ BitVec.ofNat 8 c.b ++ BitVec.ofNat 8 c.a ++ BitVec.ofNat 4 c.sunit ++ BitVec.ofNat 4 c.kind

/-- The bits of a flit (R158, R160, R166): a message with its data; ahead of a two-flit write the byte enables; a CRD flit,
of OPC 0x01 to DUNIT 3. The spec gives memory requests no opcode, so their bits are free (assumption 24). -/
def Flit.bits (f : Flit) (device : Bool) : BitVec 640 :=
  match f.load with
  | .msg m => (if m.opc.hasData then m.data else (0 : BitVec 512)) ++ f.header m device
  | .part m => ((0 : BitVec 448) ++ m.be) ++ f.header m device
  | .mem r => Config.memFlit r.wr r.line r.data
  | .crd c => ((0 : BitVec 480) ++ c.payload) ++ (BitVec.ofNat 6 1 ++ f.fields 3 ++ (0 : BitVec 101))

end Sys2Proof.Machine
end

