-- ==== Sys2Proof/Machine/Ops.lean ====
section
/-!
DEFINITION. The named operations that every family shares: the register file, event flags with their counts, serial
numbers with laps and bells, error records, the address map, the stops and agents, and posting a message.
-/
namespace Sys2Proof.Machine

/-! ### Bit vectors -/

/-- Bit n of a sharer vector or mask. -/
def hasBit {w : Nat} (v : BitVec w) (n : Nat) : Bool := v.getLsbD n

/-- The vector with bit n set. -/
def setBit {w : Nat} (v : BitVec w) (n : Nat) : BitVec w := v ||| (BitVec.ofNat w 1 <<< n)

/-- The vector with bit n cleared. -/
def clrBit {w : Nat} (v : BitVec w) (n : Nat) : BitVec w := v &&& ~~~(BitVec.ofNat w 1 <<< n)

/-- The numbers of the set bits. -/
def bitsOf {w : Nat} (v : BitVec w) : List Nat := (List.range w).filter (fun n => v.getLsbD n)

/-! ### Registers and flags -/

/-- The value of a register field. -/
def State.rd (s : State) (f : Fld) : Nat := Tbl.getD s.regs f.key f.rst

/-- Write a register field; the value is cut to the field's width. -/
def State.wr (s : State) (f : Fld) (v : Nat) : State :=
  { s with regs := Tbl.put s.regs f.key f.rst (v % 2 ^ f.w) }

/-- A one-bit field reads 1. -/
def State.on (s : State) (f : Fld) : Bool := s.rd f != 0

/-- An event of a W1C flag: the flag is set and its count grows by one, up to all ones (R13, R14). -/
def State.raise (s : State) (g : Flag) : State :=
  (s.wr g.bit 1).wr g.cnt (min (s.rd g.cnt + 1) 0xFFFF)

/-- Apply an update only if a condition holds. -/
def State.when (s : State) (c : Bool) (f : State → State) : State := if c then f s else s

/-- a is newer than b as n-bit serial numbers (R22). -/
def serialNewer (n a b : Nat) : Bool :=
  let d := (a + 2 ^ n - b % 2 ^ n) % 2 ^ n
  decide (0 < d) && decide (d < 2 ^ (n - 1))

/-- a is older than b as n-bit serial numbers; at a distance of half the range it is older too (R22). -/
def serialOlder (n a b : Nat) : Bool :=
  let d := (a + 2 ^ n - b % 2 ^ n) % 2 ^ n
  decide (2 ^ (n - 1) ≤ d)

/-- Count one lap, and set the sticky LAP_SAT bit when the lap cannot be counted (R23). -/
def State.countLap (s : State) (lap sat : Fld) : State :=
  if s.rd lap = 0xFFFF then s.wr sat 1 else s.wr lap (s.rd lap + 1)

/-- Move a number from v to v': its bell rings on reaching seven eighths of its range and at every wrap, and a
wrap counts a lap (R23, R24). -/
def State.bell (s : State) (w v v' : Nat) (lap sat : Fld) (bell : Flag) : State :=
  let t := 7 * 2 ^ w / 8
  let s := s.when (decide (v < t) && decide (t ≤ v')) (fun s => s.raise bell)
  s.when (decide (v' < v)) (fun s => (s.countLap lap sat).raise bell)

/-- Advance a hardware number by one (R22 to R24). -/
def State.advance (s : State) (num lap sat : Fld) (bell : Flag) : State :=
  let v := s.rd num
  let v' := (v + 1) % 2 ^ num.w
  (s.wr num v').bell num.w v v' lap sat bell

/-- The bell rings, and the event is counted (R14, R24). -/
def TimeLap.ring (x : TimeLap) : TimeLap := { x with bell := true, count := min (x.count + 1) 0xFFFF }

/-- A w-bit number whose lap and bell stand here moves from v to v' (R23, R24). -/
def TimeLap.moved (x : TimeLap) (w v v' : Nat) : TimeLap :=
  let t := 7 * 2 ^ w / 8
  let x := if v < t ∧ t ≤ v' then x.ring else x
  if v' < v then (if x.lap = 0xFFFF then { x with sat := true } else { x with lap := x.lap + 1 }).ring else x

/-- Take one free value: a value the spec leaves open, and the counter's advance (assumption 3). -/
def State.free (s : State) : LineData × State :=
  (Config.freeValue s.freeCtr, { s with freeCtr := s.freeCtr + 1 })

/-- The package mode (R37): 0 OFF, 1 STANDBY, 2 BOOT, 3 RUN, 4 RIDE, 5 PHOTO, 6 QUARANTINE, 7 DIETEST. -/
def State.pkgMode (s : State) : Nat := s.rd HUB_PKG_MODE.PKG_MODE

/-- Every island outside AON is stopped: in OFF, and in PHOTO and QUARANTINE but for the flush of a memory-preserving reset
(R499, R500, R547, R569). -/
def State.stopped (s : State) : Bool :=
  s.pkgMode == 0 || ((s.pkgMode == 5 || s.pkgMode == 6) && s.sys.ph != .flush)

/-- What a command leads to: the package as its effect leaves it. The queue of commands that wait is not the package's, so
no effect reaches it. -/
def State.done (s t : State) : Host.Outcome State Fault Refusal := .next { t with pending := s.pending }

/-- What a unit outside AON does: nothing while its island is stopped. -/
def State.ifRuns (s : State) (k : State → State) : Host.Outcome State Fault Refusal :=
  s.done (if s.stopped then s else k s)

/-- Cores run in BOOT, RUN and RIDE only (R471, R499). -/
def State.coresRun (s : State) : Bool := s.pkgMode == 2 || s.pkgMode == 3 || s.pkgMode == 4

/-! ### Error records -/

/-- A record with nothing but its severity, unit, instance and code (R506). -/
def rec0 (sev : Sev) (unit inst code : Nat) : ErrRec :=
  { sev := sev, kind := .single, unit := unit, inst := inst, code := code, sts := 0, world := false, enc := 0,
    mtag := 0, addr := none, src := 0, time := 0, count := 1, seq := 0, lap := 0, detail := [], quar := false }

/-- The address offset lies at one of the registers that a description stands for. -/
def RegD.hit (d : RegD) (a : Nat) : Bool :=
  decide (d.base ≤ a) &&
  (let o := a - d.base
   let i := if 1 < d.n1 then o / d.s1 else 0
   let r := if 1 < d.n1 then o % d.s1 else o
   let j := if 1 < d.n2 then r / d.s2 else 0
   let q := if 1 < d.n2 then r % d.s2 else r
   decide (i < d.n1) && decide (j < d.n2) && q == 0)

/-- The register at an address of the flat number space. -/
def regAt (a : Nat) : Option RegD :=
  if a < 0x100000000 then regsAllPrs.find? (fun d => d.hit a)
  else if a < 0x10000000000 then regsAllSys.find? (fun d => d.hit a)
  else if a < 0x20000000000 then regsAllBar0.find? (fun d => d.hit a)
  else regsAllVf.find? (fun d => d.hit a)

/-- The field of the register at an address. -/
def FieldD.at (f : FieldD) (a : Nat) : Fld := ⟨a * 64 + f.lo, f.w, f.rst⟩

/-- The whole value of the register at an address; reserved bits read zero (R7). -/
def State.regWord (s : State) (a : Nat) : Nat :=
  match regAt a with
  | some d => d.fields.foldl (fun v f => v + s.rd (f.at a) * 2 ^ f.lo) 0
  | none => 0

/-- The address of the register that holds a field. -/
def Fld.addr (f : Fld) : Nat := f.key / 64

/-- The DETAIL words that R507 gives a unit's records: its registers at the time of the record. -/
def State.unitDetail (s : State) (unit inst : Nat) : List Nat :=
  let w (f : Fld) : Nat := s.regWord f.addr
  match unit with
  | 0x01 => [w (HOME_TO_LOG.LINE inst)]
  | 0x03 => [w MESH_RECFG_STS.PHASE, w MESH_EPOCH.EPOCH]
  | 0x04 => [w (STR_STATE.STATE inst), w (STR_HEALTH.LOCAL inst), w (STR_SEQ.RX_SEQ inst)]
  | 0x05 => [w (MCH_CAP.DCMD inst), w (MCH_CAP_SYN_LO.SYN inst), w (MCH_CAP_SYN_HI.SYN inst)]
  | 0x06 => [w (HBC_CAP.DCMD inst), w (HBC_CAP_SYN_LO.SYN inst), w (HBC_CAP_SYN_HI.SYN inst)]
  | 0x07 => [w XCP_STATE.STATE0, w (XCP_RS.REMAIN inst)]
  | 0x08 => [w PIR_LOG.REASON]
  | 0x09 => [w (MBX_STS.EMPTY inst)]
  | 0x0A => [w PMC_THERM.FLOW, w PMC_POWER.NOW_W]
  | 0x0B => [w OWN_LOG.LINE]
  | 0x0C => [w SPL_PI.PI, w SPL_SEQ.SEQ]
  | 0x13 => [w (HUB_AGENT_STATE.SLOT 0), w HUB_POP.TCD_PRESENT]
  | _ => []

/-- A unit hands a record to ERR, which takes it later; the record carries the time of the occurrence (R510), and
its unit's DETAIL words where the event gives none of its own (R507). -/
def State.report (s : State) (r : ErrRec) : State :=
  { s with errIn := s.errIn ++ [{ r with
      time := s.now.toNat
      detail := if r.detail.isEmpty then s.unitDetail r.unit r.inst else r.detail }] }

/-- The unit and instance whose register block holds a PRS offset (R44, R507); HUB for what belongs to no other unit
(assumption 48). -/
def prsUnit (off : Nat) : Nat × Nat :=
  let i := off / 0x10000
  if off < 0x200000 then (0x13, 0)
  else if off < 0x400000 then (0x01, i % 0x20)
  else if off < 0x500000 then (0x02, 0)
  else if off < 0x600000 then (0x03, 0)
  else if off < 0x6C0000 then (0x04, i % 0x10)
  else if off < 0x700000 then (0x13, 0)
  else if off < 0x800000 then (0x05, i % 0x10)
  else if off < 0x900000 then (0x07, 0)
  else if off < 0x940000 then (0x06, i % 0x10)
  else if off < 0xA00000 then (0x13, 0)
  else if off < 0xB00000 then (0x08, 0)
  else if off < 0xC00000 then (0x09, off / 0x1000 % 64)
  else if off < 0xD00000 then (0x0A, 0)
  else if off < 0xE00000 then (0x0B, 0)
  else if off < 0xF00000 then (0x0C, 0)
  else if off < 0x1000000 then (0x0D, 0)
  else if off < 0x1100000 then (0x0E, 0)
  else if 0x2000000 ≤ off ∧ off < 0x2C00000 then (0x10, 0xFFFF)
  else (0x13, 0)

/-- The unit and instance of a register by its system address: those of its block in the PRS, else HUB. -/
def regUnit (addr : Nat) : Nat × Nat :=
  if 0xFFE0000000000 ≤ addr ∧ addr < 0xFFE0010000000 then prsUnit (addr - 0xFFE0000000000) else (0x13, 0)

/-- The record of a refused or malformed register access, sent by a unit (code REG_ACCESS, R508). -/
def State.logRegBy (s : State) (who : Nat × Nat) (addr : Nat) : State :=
  s.report { rec0 .info who.1 who.2 0xC7 with addr := some addr }

/-- The record of a refused or malformed register access, sent by the unit whose block the address stands in. -/
def State.logReg (s : State) (addr : Nat) : State := s.logRegBy (regUnit addr) addr

/-- Two n-bit numbers half their range apart have been compared: the comparison is logged at informational level (R22).
The spec gives the record no code, so the code is a free value (assumption 3). -/
def State.logHalf (s : State) (unit inst n a b : Nat) : State :=
  if (a + 2 ^ n - b % 2 ^ n) % 2 ^ n = 2 ^ (n - 1) then
    let f := s.free
    f.2.report (rec0 .info unit inst (f.1.toNat % 256))
  else s

/-- The informational record of a command that a unit answered with a status (code COMMAND, R18, R508). -/
def State.logCmd (s : State) (unit inst sts : Nat) : State :=
  s.report { rec0 .info unit inst 0xC9 with sts := sts }

/-! ### Counters (R482 to R486) -/

/-- Debugging is allowed for a world and enclave (R332). -/
def State.dbgAllowed (s : State) (invasive world : Bool) (enc : Nat) : Bool :=
  let inv := s.on (if world then DBG_POLICY.INV_S else DBG_POLICY.INV_N)
  let ni := s.on (if world then DBG_POLICY.NI_S else DBG_POLICY.NI_N)
  (inv || (!invasive && ni)) && (enc == 0 || (Tbl.get? s.encs enc).any (fun x => x.debug))

/-- The counter banks of R485 by their place in the number space. -/
def bankHome (h : Nat) : Nat := 0x20F000 + h * 0x10000
def bankHmc : Nat := 0x40F000
def bankMesh : Nat := 0x50F000
def bankStr (t : Nat) : Nat := 0x60F000 + t * 0x10000
def bankMch (m : Nat) : Nat := 0x70F000 + m * 0x10000
def bankHbc (b : Nat) : Nat := 0x90F000 + b * 0x10000
def bankXcp : Nat := 0x80F000
def bankTqe : Nat := 0x1000000F000

/-- A field of UCNT_SEL k of a bank. -/
def selFld (bank k lo w : Nat) : Fld := ⟨(bank + 8 * k) * 64 + lo, w, 0⟩

/-- The count of UCNT k, and its overflow flag. -/
def cntFld (bank k : Nat) : Fld := ⟨(bank + 0x20 + 8 * k) * 64, 48, 0⟩
def ovfFlag (bank k : Nat) : Flag := ⟨⟨(bank + 0x40) * 64 + k, 1, 0⟩, ⟨(bank + 0x80 + 8 * k) * 64, 16, 0⟩⟩

/-- A counter grows; it wraps from all ones to zero and sets its flag (R483). -/
def State.bump (s : State) (f : Fld) (g : Flag) (n : Nat) : State :=
  let v := s.rd f + n
  let s := s.wr f v
  if 2 ^ f.w ≤ v then s.raise g else s

/-- A counter's filters pass a transaction (R485); a counter with a filter counts only what non-invasive debug allows. -/
def State.cntPass (s : State) (bank k : Nat) (a : Option Attr) : Bool :=
  let me := s.on (selFld bank k 57 1)
  let pe := s.on (selFld bank k 56 1)
  match a with
  | none => !me && !pe
  | some a =>
    (!me || s.rd (selFld bank k 40 16) == a.mtag.toNat) && (!pe || s.rd (selFld bank k 36 4) == a.pcls.toNat) &&
    ((!me && !pe) || s.dbgAllowed false a.world a.enc.toNat)

/-- A count event of a unit: every counter of the bank that selects it counts one. -/
def State.count (s : State) (bank ev sub : Nat) (a : Option Attr) : State :=
  (List.range 4).foldl (fun s k =>
    if s.on (selFld bank k 63 1) && s.rd (selFld bank k 0 8) == ev && s.rd (selFld bank k 8 8) == sub &&
        s.cntPass bank k a then s.bump (cntFld bank k) (ovfFlag bank k) 1 else s) s

/-- One cycle of an occupancy event (R486): `occ` are the entries' attributes. Whether the occupancy stood above the height
in the previous cycle is kept in a cell of its own. -/
def State.occupy (s : State) (bank ev sub : Nat) (occ : List (Option Attr)) : State :=
  (List.range 4).foldl (fun s k =>
    if s.on (selFld bank k 63 1) && s.rd (selFld bank k 0 8) == ev && s.rd (selFld bank k 8 8) == sub then
      let n := (occ.filter (fun a => s.cntPass bank k a)).length
      let above := decide (s.rd (selFld bank k 20 12) < n)
      let cell : Fld := ⟨(0x80000000000 + bank) * 64 + k, 1, 0⟩
      let was := s.on cell
      let s := s.wr cell above.toNat
      if s.on (selFld bank k 62 1) = false then s.bump (cntFld bank k) (ovfFlag bank k) n
      else if above && !(s.on (selFld bank k 61 1) && was) then s.bump (cntFld bank k) (ovfFlag bank k) 1 else s
    else s) s

/-- The core is in an enclave: some loaded range carries an ENC (R312). -/
def CoreSt.enclave (x : CoreSt) : Nat :=
  match x.jr.find? (fun r => r.enc != 0) with
  | some r => r.enc
  | none => 0

/-- The core's counters count in the context it runs in (R484): not while FRZ is 1, nor where debug is not allowed. -/
def State.ccOn (s : State) (c : Nat) : Bool :=
  !s.on (CCNT_CTL.FRZ c) &&
    s.dbgAllowed false (s.on (WCTL.WORLD c)) ((Tbl.get? s.cores c).elim 0 (fun x => x.enclave))

/-- A counter of a core wrapped: its flag, and with OVIE its vector in the bank of the world the core ran in (R484). -/
def State.ccWrap (s : State) (c : Nat) (g : Flag) : State :=
  let s := s.raise g
  if s.on (CCNT_CTL.OVIE c) then
    let v := s.rd (CCNT_CTL.VECTOR c)
    match Tbl.get? s.cores c with
    | some x =>
      let x := if s.on (WCTL.WORLD c) then { x with bankS := { x.bankS with pend := setBit x.bankS.pend v } }
        else { x with bankN := { x.bankN with pend := setBit x.bankN.pend v } }
      { s with cores := Tbl.set s.cores c { x with idle := 0 } }
    | none => s
  else s

/-- A fixed counter of a core counts one (R482, R483). -/
def State.ccFixed (s : State) (c : Nat) (f : Fld) (g : Flag) : State :=
  if s.ccOn c then
    let v := s.rd f + 1
    let s := s.wr f v
    if v = 2 ^ 64 then s.ccWrap c g else s
  else s

/-- An instruction retires (R482). -/
def State.ccIns (s : State) (c : Nat) : State := s.ccFixed c (CCNT_INS.COUNT c) (CCNT_STS.fINS_OVF c)

/-- A clock cycle of a core that is not idle (R482). -/
def State.ccCyc (s : State) (c : Nat) : State := s.ccFixed c (CCNT_CYC.COUNT c) (CCNT_STS.fCYC_OVF c)

/-- An event of R482 at a core: every counter that selects it at the core's level counts one. -/
def State.ccEvent (s : State) (c ev : Nat) : State :=
  if s.ccOn c = false then s
  else
    let lvl := match Tbl.get? s.cores c with
      | some x => x.lvl
      | none => .w
    (List.range 6).foldl (fun s n =>
      let en := match lvl with
        | .u => CCNT_SEL.CU c n
        | .s => CCNT_SEL.CS c n
        | .h => CCNT_SEL.CH c n
        | .w => CCNT_SEL.CW c n
      if s.on (CCNT_SEL.EN c n) && s.on en && s.rd (CCNT_SEL.EVENT c n) == ev then
        let v := s.rd (CCNT.COUNT c n) + 1
        let s := s.wr (CCNT.COUNT c n) v
        if v = 2 ^ 48 then s.ccWrap c (CCNT_STS.fOVF c n) else s
      else s) s

/-! ### Status codes (R16) -/

def OK : Nat := 0x00
def ESTATE : Nat := 0x01
def EINVAL : Nat := 0x02
def EPERM : Nat := 0x03
def ENODEV : Nat := 0x04
def ENORES : Nat := 0x05
def DEFERRED : Nat := 0x06
def CLAIM_TIMEOUT : Nat := 0x07
def DOMAIN_OFF : Nat := 0x08
def DEAD : Nat := 0x09
def TIMEOUT : Nat := 0x0A
def POISONED : Nat := 0x0B
def AUTH_FAIL : Nat := 0x0C
def ESTALE : Nat := 0x0D

/-! ### Addresses (R39 to R41) -/

/-- The regions of the physical address map. -/
inductive Region where
  | ddr | hbm | cxl (k : Nat) | mmio32 | mmio64 | prs | ecam | unmapped
deriving DecidableEq, Repr

/-- The region of a physical address (R39, R44). -/
def regionOf (pa : Nat) : Region :=
  if pa < 0xC0000000 then .ddr
  else if pa < 0x100000000 then .mmio32
  else if pa < 0x400000000000 then .ddr
  else if pa < 0x4000000000000 then .unmapped
  else if pa < 0x4010000000000 then .hbm
  else if pa < 0x8000000000000 then .unmapped
  else if pa < 0xC000000000000 then .cxl ((pa - 0x8000000000000) / 0x400000000000)
  else if pa < 0xF000000000000 then .mmio64
  else if 0xFFE0010000000 ≤ pa ∧ pa < 0xFFE0020000000 then .ecam
  else if 0xFFE0000000000 ≤ pa ∧ pa < 0xFFE0020000000 then .prs
  else .unmapped

/-- The address lies in a populated part of a memory region (R40, R41, R4, R587). -/
def State.populated (s : State) (pa : Nat) : Bool :=
  match regionOf pa with
  | .ddr => decide ((if pa < 0xC0000000 then pa else pa - 0x40000000) < s.ddrUsable)
  | .hbm => decide (pa < 0x4001800000000) && s.on HUB_ID.HBM_STACKS
  | .cxl k => s.on (HUB_CXLWIN.EN k) &&
      decide (pa - 0x8000000000000 - k * 0x400000000000 < s.rd (HUB_CXLWIN.SIZE k) * 0x40000000)
  | _ => false

/-- The region kind is memory (R39). -/
def Region.isMem : Region → Bool
  | .ddr | .hbm | .cxl _ => true
  | _ => false

/-- The line lies in the HBM region, which the HMC never holds (R126). -/
def isHbmLine (line : Nat) : Bool := decide (regionOf (line * 64) = .hbm)

/-- The line lies in a CXL window. -/
def isCxlLine (line : Nat) : Bool := match regionOf (line * 64) with | .cxl _ => true | _ => false

/-! ### Agents (R90, R118) -/

/-- The state of an agent slot: 0 ACTIVE, 1 SUSPECT, 2 DEAD, 3 ABSENT (R118). -/
def State.agentState (s : State) (a : Nat) : Nat := s.rd (HUB_AGENT_STATE.SLOT a)

/-- The die at a slot is a non-caching die, which receives no snoops: DIE_TYPE 1 in its link's result (R202, R207). -/
def State.nonCaching (s : State) (a : Nat) : Bool := decide (a < 12) && s.rd (STR_CAP_RES_HI.CAP a) / 2 ^ 14 % 4 == 1

/-- The agents that answer snoops: those in ACTIVE or SUSPECT (R113). -/
def State.liveAgents (s : State) : List Nat :=
  (List.range 13).filter (fun a => decide (s.agentState a < 2) && !s.nonCaching a)

/-! ### Lines and bytes -/

/-- Merge the bytes of `new` whose enables are set into `old`. -/
def mergeBytes (be : BitVec 64) (old new : LineData) : LineData :=
  let m : LineData := (List.range 64).foldl
    (fun a i => if be.getLsbD i then a ||| ((0xFF : LineData) <<< (8 * i)) else a) 0
  (old &&& ~~~m) ||| (new &&& m)

/-- Bytes [off, off + n) of a line, as a number. -/
def lineField (d : LineData) (off n : Nat) : Nat := (d.toNat >>> (8 * off)) % 2 ^ (8 * n)

/-- The line with the n bytes at off replaced. -/
def setLineField (d : LineData) (off n v : Nat) : LineData :=
  let m : LineData := BitVec.ofNat 512 (2 ^ (8 * n) - 1) <<< (8 * off)
  (d &&& ~~~m) ||| ((BitVec.ofNat 512 (v % 2 ^ (8 * n)) <<< (8 * off)) &&& m)

/-- Byte enables of n bytes at off. -/
def beOf (off n : Nat) : BitVec 64 := BitVec.ofNat 64 ((2 ^ n - 1) <<< off)

/-- A line whose bytes are all ones, as an absorber answers (R179). -/
def onesLine : LineData := ~~~0
/-- The refusal pattern: every byte 0xC3 (R316). -/
def refusalLine : LineData := (List.range 64).foldl (fun a i => a ||| ((0xC3 : LineData) <<< (8 * i))) 0

/-! ### Messages -/

/-- A flit enters the mesh at its source stop. -/
def State.putFlit (s : State) (src dst : Nat) (l : Load) : State :=
  { s with mesh := { s.mesh with net := s.mesh.net ++ [s.mesh.flit (s.rd MESH_EPOCH.EPOCH) src dst l] } }

/-- The messages in flight. -/
def State.msgs (s : State) : List Msg :=
  s.mesh.net.filterMap (fun f => match f.load with
    | .msg m => some m
    | _ => none)

/-- The requests on their way to the memory channels. -/
def State.memNet (s : State) : List MemReq :=
  s.mesh.net.filterMap (fun f => match f.load with
    | .mem r => some r
    | _ => none)

/-- A device access: a RdOnce or WrPart to a non-memory region (R160). -/
def Msg.isDevice (m : Msg) : Bool := !(regionOf (m.line.toNat * 64)).isMem

/-- A coherent WrPart and a gathered device write are two flits (R160). -/
def Msg.twoFlits (m : Msg) : Bool := m.opc == .wrPart && (!m.isDevice || m.size == 4)

/-- A message enters the mesh, its byte enables in a flit ahead where it has two. -/
def State.post (s : State) (m : Msg) : State :=
  let s := if m.twoFlits then s.putFlit m.src.val m.dst.val (.part m) else s
  s.putFlit m.src.val m.dst.val (.msg m)

/-- A flit with this load leaves the mesh: the first one injected. -/
def State.dropFlit (s : State) (l : Load) : State :=
  { s with mesh := { s.mesh with net := s.mesh.net.eraseP (fun f => f.load == l) } }

/-- The message is a memory write of a device behind a root port (R76). -/
def Msg.fromDevice (m : Msg) : Bool :=
  (m.src.val == iowStop || m.src.val == ioeStop) && (m.opc == .wrFull || m.opc == .wrPart)

/-- No memory write of a device at this stop, or of any device there, is still to become visible (R76). -/
def State.postedDone (s : State) (st : Nat) (rid : Option (BitVec 16)) : Bool :=
  s.posted.all (fun m => m.src.val != st || rid.any (fun d => d != m.rid))

/-- The flits injected before the flit of a load that take its path: what R163 has arrive first. -/
def State.ahead (s : State) (l : Load) : List Flit :=
  let before := s.mesh.net.takeWhile (fun f => f.load != l)
  match s.mesh.net.find? (fun f => f.load == l) with
  | some f => before.filter (fun g => g.samePath f && !f.back)
  | none => []

/-- A load of the mesh cannot arrive yet: another one stands before it on its path (R163). Byte enables whose data flit
was lost hold nothing back. -/
def State.behind (s : State) (l : Load) : Bool :=
  (s.ahead l).any (fun g => match g.load with
    | .part _ => false
    | _ => true)

/-- The message arrives without the flit of its byte enables, which was lost (R160, R161). -/
def State.headless (s : State) (m : Msg) : Bool :=
  m.twoFlits && s.mesh.net.any (fun f => f.load == .msg m && !f.back) &&
    !(s.ahead (.msg m)).any (fun g => g.load == .part m)

/-- A message leaves the mesh at its destination, with what is left of two-flit writes before it; one that the model did not
see sent leaves nothing (assumption 6). -/
def State.arrive (s : State) (m : Msg) : State :=
  let parts := (s.ahead (.msg m)).filter (fun g => match g.load with
    | .part _ => true
    | _ => false)
  (parts.foldl (fun s g => s.dropFlit g.load) s).dropFlit (.msg m)

/-- The message that answers m with another opcode: it goes back to m's source, with m's TXN and attributes. -/
def Msg.reply (m : Msg) (opc : Opc) : Msg :=
  { m with opc := opc, dst := m.src, src := m.dst, sts := 0, poison := false, pt := false, be := 0, data := 0 }

/-- A response with a reserved status is one of status 1 (R92). -/
def Msg.known (m : Msg) : Msg := if m.opc.plane = .rsp ∧ 5 ≤ m.sts.toNat then { m with sts := 1 } else m

/-- A stop number as a stop. -/
def toStop (n : Nat) : Stop := Fin.ofNat 64 n

/-- The stop states of R178. -/
def State.stopState (s : State) (st : Nat) : Nat := s.rd (MESH_STOP.STATE st)

/-- The status an absorber at the stop gives: 2 DEAD, 3 DOMAIN_OFF; none while the stop delivers (R178). -/
def State.absorbSts (s : State) (st : Nat) : Option Nat :=
  match s.stopState st with
  | 1 => some 3
  | 2 => some 3
  | 3 => some 2
  | _ => none

end Sys2Proof.Machine
end

