-- ==== Sys2Proof/Machine/RegFile.lean ====
section
/-!
DEFINITION. Writing a register: what a write does to a field of each type (R6 to R10, R14), locks (R9), and the reserved
encodings and combinations that the register tables name (R8).
-/
namespace Sys2Proof.Machine

/-! ### Writing a register by its field types -/

/-- The register's value with the n bits from `lo` on replaced. -/
def mergeBits (old lo n v : Nat) : Nat := old - old / 2 ^ lo % 2 ^ n * 2 ^ lo + v % 2 ^ n * 2 ^ lo

/-- The bits of a field that a write carries: the n bits from `lo` on hold v, every other bit 0. -/
def carried (lo n v : Nat) (f : FieldD) : Nat := v % 2 ^ n * 2 ^ lo / 2 ^ f.lo % 2 ^ f.w

/-- The bits written reach a field. -/
def reaches (lo n : Nat) (f : FieldD) : Bool := decide (lo < f.lo + f.w) && decide (f.lo < lo + n)

/-- A value is no reserved encoding of a field. -/
def FieldD.allows (f : FieldD) (v : Nat) : Bool := f.ok.isEmpty || f.ok.any (fun r => decide (r.1 ≤ v) && decide (v ≤ r.2))

/-- The lock of a register is set (R9). -/
def State.lockSet (s : State) (a : Nat) (d : RegD) : Bool :=
  match d.lock with
  | some (back, bit) => s.on ⟨(a - back) * 64 + bit, 1, 0⟩
  | none => false

/-- A counter bank's unit by the place of the bank: the events it has, whether each is a count or an occupancy, and the
number of instances that SUB selects (R485). R496 names a bank of the SPL, for which R485 lists no event. -/
def bankEvents (a : Nat) : Option (List Nat × List Nat × Nat) :=
  if a / 0x1000 = 0x1000000F then some ([1], [0x10], 1)
  else if a % 0x10000 < 0xF000 ∨ 0xF020 ≤ a % 0x10000 then none
  else
    let b := a / 0x10000
    if 0x20 ≤ b ∧ b < 0x40 then some ([1, 2, 3], [0x10], 1)
    else if b = 0x40 then some ([1, 2, 3], [], 32)
    else if b = 0x50 then some ([1, 2], [0x10], 15)
    else if 0x60 ≤ b ∧ b < 0x6C then some ([1, 2], [0x10], 1)
    else if (0x70 ≤ b ∧ b < 0x80) ∨ (0x90 ≤ b ∧ b < 0x94) then some ([1, 2, 3], [0x10, 0x11], 1)
    else if b = 0x80 then some ([1], [], 1)
    else if b = 0xE0 then some ([], [], 1)
    else none

/-- The fields (by their low bits) that a write of the whole value w leaves unchanged because of a reserved encoding or
combination that a single field's list does not show: drain watermarks (R253), function windows (R351), counter selections
(R482, R485, R486), and the split ring while it runs (R496). -/
def State.keeps (s : State) (a w : Nat) : List Nat :=
  if (a / 0x100000 = 7 ∨ a / 0x100000 = 9) ∧ a % 0x10000 = 0x10 ∧ w / 2 ^ 32 % 512 ≤ w / 2 ^ 16 % 512 then [16, 32]
  else if (TQE_FNWIN.COUNT 0).addr ≤ a ∧ a < (TQE_FNWIN.COUNT 0).addr + 0x8000 then
    (if 32 < w / 2 ^ 16 % 64 ∨ 65280 < w % 65536 + w / 2 ^ 16 % 64 then [0, 16] else [])
  else if a = SPL_RING.BASE.addr ∧ s.on SPL_CTL.EN = true then [0, 12]
  else if 0x100000000 ≤ a ∧ a < 0x10000000000 ∧ 0x3100 ≤ a % 0x10000 ∧ a % 0x10000 < 0x3130 then
    (if 1 ≤ w % 256 ∧ w % 256 ≤ 10 then [] else [0])
  else
    match bankEvents a with
    | none => []
    | some (cs, os, n) =>
      let known := cs.contains (w % 256) || os.contains (w % 256)
      let e := if known then w % 256 else s.rd ⟨a * 64, 8, 0⟩
      let hurdle := w.testBit 62
      let edge := w.testBit 61
      (if w / 256 % 256 < n then [] else [8]) ++
        (if (cs.contains e && hurdle) || (edge && !hurdle) then [0, 61, 62] else if known then [] else [0])

/-- One field under a write. -/
def State.fieldWrite (s : State) (a : Nat) (locked : Bool) (keep : List Nat) (lo n v : Nat) (f : FieldD) : State :=
  let x := f.at a
  let w := mergeBits (s.rd x * 2 ^ f.lo) lo n v / 2 ^ f.lo % 2 ^ f.w
  let c := carried lo n v f
  if reaches lo n f = false then s
  else
    match f.ty with
    | .rw => if f.allows w ∧ keep.contains f.lo = false then s.wr x w else s
    | .rwl => if locked = false ∧ f.allows w = true ∧ keep.contains f.lo = false then s.wr x w else s
    | .w1c => s.wr x (s.rd x &&& (2 ^ f.w - 1 - c))
    | .w1s => s.wr x (s.rd x ||| c)
    | .cnt => if c = 0 then s.wr x 0 else s
    | .ro | .wo => s

/-- A write asks a field for something that is ignored and logged: a reserved encoding, or a change of a locked field. -/
def State.fieldLogs (s : State) (a : Nat) (locked : Bool) (keep : List Nat) (lo n v : Nat) (f : FieldD) : Bool :=
  let x := f.at a
  let w := mergeBits (s.rd x * 2 ^ f.lo) lo n v / 2 ^ f.lo % 2 ^ f.w
  reaches lo n f && (match f.ty with
    | .rw => !f.allows w || keep.contains f.lo
    | .rwl => if locked then w != s.rd x else !f.allows w || keep.contains f.lo
    | _ => false)

/-- A write of n bits from bit `lo` on of the register at a flat address (R6 to R9), and whether it is logged. -/
def State.regPut (s : State) (a : Nat) (d : RegD) (lo n v : Nat) : State × Bool :=
  let locked := s.lockSet a d
  let keep := s.keeps a (mergeBits (s.regWord a) lo n v)
  (d.fields.foldl (fun s f => s.fieldWrite a locked keep lo n v f) s,
    d.fields.any (fun f => s.fieldLogs a locked keep lo n v f))

/-- A write of a register that stands at a system address, of a unit that sends the record. -/
def State.regWrite (s : State) (a : Nat) (d : RegD) (lo n v shown : Nat) (who : Nat × Nat) : State :=
  let p := s.regPut a d lo n v
  if p.2 then p.1.logRegBy who shown else p.1

/-- The register that an access of 2^lg bytes at a flat address reaches, and the bit it starts at (R10): a 32-bit register
by 4 bytes, a 64-bit register by 8 or by either half, a 128-bit register by 8 bytes at either half (R352). -/
def regHalf (a lg : Nat) : Option (Nat × RegD × Nat) :=
  if lg ≠ 2 ∧ lg ≠ 3 then none
  else if a % 2 ^ lg ≠ 0 then none
  else
    match regAt a with
    | some d => if (lg = 2 ∧ d.bits ≤ 64) ∨ (lg = 3 ∧ 64 ≤ d.bits) then some (a, d, 0) else none
    | none =>
      if lg = 2 ∧ 4 ≤ a then
        match regAt (a - 4) with
        | some d => if d.bits = 64 then some (a - 4, d, 32) else none
        | none => none
      else if lg = 3 ∧ 8 ≤ a then
        match regAt (a - 8) with
        | some d => if d.bits = 128 then some (a - 8, d, 64) else none
        | none => none
      else none

end Sys2Proof.Machine
end

