-- ==== Sys2Proof/Machine/Mem.lean ====
section
/-!
DEFINITION. Memory as lines, with the poison mark and the key of each, and inline encryption (R236 to R239).
-/
namespace Sys2Proof.Machine

/-- What a line of memory reads as that nothing has written: zero, unpoisoned, under key 0 (assumption 4). -/
def memUnwritten : MemLine := ⟨0, false, 0⟩

/-- The stored line. -/
def State.cell (s : State) (line : Nat) : MemLine := Tbl.getD s.mem line memUnwritten

/-- Store a line; the memory keeps its canonical form. -/
def State.putCell (s : State) (line : Nat) (c : MemLine) : State :=
  { s with mem := Tbl.put s.mem line memUnwritten c }

/-- Memory is in canonical form: line addresses strictly rising, and no line listed that reads as unwritten. -/
def Memory.wf (t : Tbl MemLine) : Bool := Tbl.wf t && t.all (fun e => decide (e.2 ≠ memUnwritten))

/-! ### Inline encryption (R238, R239) -/

/-- The 16-byte blocks of a line, and the line of four blocks. -/
def lineBlock (d : LineData) (k : Nat) : BitVec 128 := d.extractLsb' (128 * k) 128
def ofBlocks (a b c d : BitVec 128) : LineData := d ++ c ++ b ++ a

theorem ofBlocks_lineBlock (d : LineData) :
    ofBlocks (lineBlock d 0) (lineBlock d 1) (lineBlock d 2) (lineBlock d 3) = d := by
  apply BitVec.eq_of_getLsbD_eq
  intro i hi
  simp only [ofBlocks, lineBlock, BitVec.getLsbD_append, BitVec.getLsbD_extractLsb']
  by_cases h1 : i < 128
  · simp [h1]
  · by_cases h2 : i - 128 < 128
    · simp [h1, h2, show 128 + (i - 128) = i by omega]
    · by_cases h3 : i - 128 - 128 < 128
      · simp [h1, h2, h3, show 256 + (i - 128 - 128) = i by omega]
      · simp [h1, h2, h3, show 384 + (i - 128 - 128 - 128) = i by omega, show i - 128 - 128 - 128 < 128 by omega]

theorem lineBlock_ofBlocks (a b c d : BitVec 128) :
    lineBlock (ofBlocks a b c d) 0 = a ∧ lineBlock (ofBlocks a b c d) 1 = b ∧
    lineBlock (ofBlocks a b c d) 2 = c ∧ lineBlock (ofBlocks a b c d) 3 = d := by
  refine ⟨?_, ?_, ?_, ?_⟩ <;> (
    apply BitVec.eq_of_getLsbD_eq
    intro i hi
    simp only [ofBlocks, lineBlock, BitVec.getLsbD_append, BitVec.getLsbD_extractLsb', hi])
  · simp [hi]
  · simp [show ¬ (128 + i < 128) by omega, hi]
  · simp [show ¬ (256 + i < 128) by omega, show ¬ (256 + i - 128 < 128) by omega, show 256 + i - 128 - 128 = i by omega, hi]
  · simp [show ¬ (384 + i < 128) by omega, show ¬ (384 + i - 128 < 128) by omega,
      show ¬ (384 + i - 128 - 128 < 128) by omega, show 384 + i - 128 - 128 - 128 = i by omega, hi]

/-- Inline encryption of a line: AES-XTS of its four blocks, each with the tweak PA[51:4] of its address (R238). -/
def xtsLine (key line : Nat) : LineData ≃ LineData where
  toFun d := ofBlocks (Config.xtsBlock key (4 * line) (lineBlock d 0)) (Config.xtsBlock key (4 * line + 1) (lineBlock d 1))
    (Config.xtsBlock key (4 * line + 2) (lineBlock d 2)) (Config.xtsBlock key (4 * line + 3) (lineBlock d 3))
  invFun d := ofBlocks ((Config.xtsBlock key (4 * line)).symm (lineBlock d 0))
    ((Config.xtsBlock key (4 * line + 1)).symm (lineBlock d 1)) ((Config.xtsBlock key (4 * line + 2)).symm (lineBlock d 2))
    ((Config.xtsBlock key (4 * line + 3)).symm (lineBlock d 3))
  left_inv d := by simp [lineBlock_ofBlocks, ofBlocks_lineBlock]
  right_inv d := by simp [lineBlock_ofBlocks, ofBlocks_lineBlock]

/-- A fresh key enters an entry of every controller's key table (R239, R328): no two keys ever loaded have the same number. -/
def State.newKey (s : State) (e : Nat) : State :=
  { s with keySeq := s.keySeq + 1, keyTab := Tbl.put s.keyTab (e % 1024) 0 (s.keySeq + 1) }

/-- The key that a key table entry holds: the entry's number with the number of the key loaded; an entry that nothing was loaded
into since the table was erased has a key of its own (R238, R239, assumption 5). -/
def State.keyId (s : State) (enc : Nat) : Nat := enc % 1024 + 1024 * Tbl.getD s.keyTab (enc % 1024) 0

/-- Data encrypted under one key, decrypted under another (R238). -/
def State.recrypt (_s : State) (line k k' : Nat) (d : LineData) : LineData :=
  if k = k' then d else (xtsLine k' line).symm (xtsLine k line d)

/-- A line as it comes out of memory decrypted under the key of entry `enc` (R238): what was written, if it was
written under the same key; otherwise what the cipher makes of it. CXL memory has no inline encryption (R320). -/
def State.memData (s : State) (line enc : Nat) : LineData :=
  let c := s.cell line
  if isCxlLine line then c.data else s.recrypt line c.key (s.keyId enc) c.data

/-- A line as the DRAM holds it, without its check bytes (R257). -/
def MemLine.stored (c : MemLine) (line : Nat) : LineData := xtsLine c.key line c.data

/-- A stored line of which no key is known. -/
def MemLine.ofStored (line : Nat) (x : LineData) (psn : Bool) : MemLine := ⟨(xtsLine 0 line).symm x, psn, 0⟩

/-- Write a line to memory under a key. -/
def State.memWriteKey (s : State) (line : Nat) (d : LineData) (psn : Bool) (key : Nat) : State :=
  s.putCell line ⟨d, psn, if isCxlLine line then 0 else key⟩

/-- Write a line to memory under the key of an entry. -/
def State.memWrite (s : State) (line : Nat) (d : LineData) (psn : Bool) (enc : Nat) : State :=
  s.memWriteKey line d psn (s.keyId enc)

end Sys2Proof.Machine
end

