-- ==== Sys2Proof/Machine/Net.lean ====
section
/-!
DEFINITION. Getting a message from a unit to its target: routes (R162, R183), credits and response buffers (R165,
R166, R168), pacers (R174 to R176), absorbers (R179), and what a stop does with an arriving answer (R171).
-/
namespace Sys2Proof.Machine

/-! ### Routes -/

/-- The stops' active route banks reach dst from src (R185). -/
def State.reachable (s : State) (src dst : Nat) : Bool := (chooseRoute s.mesh.mask src dst).isSome

/-! ### Credits and response buffers -/

/-- The key of the pool that `holder` holds toward unit `sunit` at stop `target`, for a kind of credit: 0 request
tracker, 1 write-back tracker, 2 memory read, 3 memory write, 4 device, 5 snoop (held by a home toward an agent). -/
def poolKey (holder target sunit kind : Nat) : Nat := ((holder * 64 + target) * 16 + sunit) * 8 + kind

/-- A full pool (R93, R165). -/
def poolMax (holder kind : Nat) : Nat :=
  match kind with
  | 5 => 4
  | 0 => if holder = svcStop ∨ holder = pirStop ∨ holder = splStop ∨ holder = errStop then 4 else 16
  | 1 => 4
  | 4 => 4
  | _ => if holder = xcpStop then 32 else 8

/-- The credits in a pool. -/
def State.pool (s : State) (holder target sunit kind : Nat) : Nat :=
  Tbl.getD s.mesh.pools (poolKey holder target sunit kind) (poolMax holder kind)

def State.setPool (s : State) (holder target sunit kind v : Nat) : State :=
  { s with mesh := { s.mesh with
      pools := Tbl.put s.mesh.pools (poolKey holder target sunit kind) (poolMax holder kind) v } }

/-- The kind of credit a request needs (R165). -/
def Msg.creditKind (m : Msg) : Nat :=
  if m.isDevice then 4 else if m.opc = .wbDirty ∨ m.opc = .evClean then 1 else 0

/-- A target has finished a request: it returns the credit that the request consumed, in a CRD flit (R165, R166), and a
device's memory write no longer holds back what follows it (R76). -/
def State.returnCredit (s : State) (m : Msg) : State :=
  let k := m.creditKind
  let c : Crd := ⟨m.src.val, m.dst.val, m.dunit.toNat, if k = 4 then 3 else 0,
    if k = 1 then 0 else 1, if k = 1 then 1 else 0⟩
  (State.putFlit { s with posted := s.posted.erase m } m.dst.val m.src.val (.crd c))

/-- The lowest free response buffer of a stop (R165). -/
def State.freeTxn (s : State) (st : Nat) : Option Nat :=
  (List.range 1024).find? (fun i => (Tbl.get? s.mesh.txnBusy (st * 1024 + i)).isNone)

/-- The current generation of a response buffer (R171). -/
def State.gen (s : State) (st idx : Nat) : Nat := Tbl.getD s.mesh.txnGen (st * 1024 + idx) 0

/-! ### Absorbers -/

/-- The answer an absorber gives to an arriving message (R179); none where the message is discarded. -/
def absorbAnswer (m : Msg) (sts : Nat) : Option Msg :=
  let st := BitVec.ofNat 3 sts
  match m.opc with
  | .rdShared | .rdUnique | .upgrade | .rdOnce =>
    some { m.reply .dataOnce with sts := st, poison := true, data := onesLine }
  | .wrFull | .wrPart => some { m.reply .wrAck with sts := st }
  | .maintCln | .maintInv => some { m.reply .maintAck with sts := st }
  | .wbDirty => some { m.reply .wbAckStale with sts := st }
  | .evClean => some { m.reply .evAck with sts := st }
  | .snpShared | .snpUnique | .snpInv | .snpCur | .snpCln => some { m.reply .rspI with sts := st }
  | .dataS | .dataE | .dataM | .grantE =>
    some { m.reply .compAck with dst := toStop (homeStop (homeOf m.line.toNat)), sts := st }
  | _ => none

/-- The absorbed message carried write data, which is dropped and counted (R179). -/
def Opc.dropsData : Opc → Bool
  | .wrFull | .wrPart | .wbDirty => true
  | _ => false

/-- A write of a line that the absorber at a stop dropped: WDROP, the flag, one record per write (R179). -/
def State.dropWrite (s : State) (st line : Nat) (a : Attr) (src sts : Nat) : State :=
  let s := s.wr (MESH_STOP.WDROP st) (min (s.rd (MESH_STOP.WDROP st) + 1) 0xFFFF)
  (s.raise MESH_STS.fABSW).report { rec0 .error 3 st 2 with
    addr := some (line * 64), world := a.world, enc := a.enc.toNat, mtag := a.mtag.toNat,
    src := src, sts := if sts = 2 then DEAD else DOMAIN_OFF }

/-- Count a write message that the absorber at a stop dropped. -/
def State.countDrop (s : State) (st : Nat) (m : Msg) (sts : Nat) : State :=
  s.dropWrite st m.line.toNat m.attr m.src.val sts

/-- An absorber answers at once for the unit at a stop, and returns the credit the message consumed (R179). -/
def State.absorb (s : State) (st : Nat) (m : Msg) (sts : Nat) : State :=
  let s := if m.opc.dropsData then s.countDrop st m sts else s
  let s := if m.opc.isRequest then s.returnCredit m else s
  match absorbAnswer m sts with
  | some a => s.post a
  | none => s

/-- A message leaves its source: one whose destination the routes do not reach is answered by the source stop's
absorber with STS 2 (R185). -/
def State.launch (s : State) (m : Msg) : State :=
  if s.reachable m.src.val m.dst.val then s.post m else s.absorb m.src.val m 2

/-! ### Pacers -/

/-- The pacer point at a stop (R173). -/
def pacerPoint (st : Nat) : Option Nat :=
  if st = iowStop then some 13 else if st = ioeStop then some 14 else slotOfStop st

/-- How the pacer treats a message (R174). -/
inductive Pace where
  | held (cost : Nat)
  | charged (cost : Nat)
  | free
deriving DecidableEq, Repr

/-- The table of R174. A gathered device write has size 4 (R159). -/
def Msg.pace (m : Msg) : Pace :=
  if m.opc.isRequest && m.isDevice then .charged (if m.opc = .wrPart ∧ m.size = 4 then 2 else 1)
  else match m.opc with
    | .rdShared | .rdUnique | .rdOnce | .wrFull => .held 1
    | .wrPart => .held 2
    | .maintCln | .maintInv => .held 1
    | .upgrade => .held 0
    | .wbDirty => .charged 1
    | .evClean => .charged 0
    | _ => .free

/-- The bucket's level in 1/1024 of a token; while EN is 0 it stays at BURST (R175). -/
def State.level (s : State) (p c : Nat) : Int :=
  if s.on (MESH_PCR.EN p c) then
    ((Tbl.get? s.mesh.lvl (p * 16 + c)).getD (1024 * (s.rd (MESH_PCR.BURST p c) : Int)))
  else 1024 * (s.rd (MESH_PCR.BURST p c) : Int)

/-- The LEVEL field: whole tokens, rounded toward minus infinity, in 14 bits of two's complement (R175, R187). -/
def levelField (l : Int) : Nat := ((Int.fdiv l 1024) % 16384).toNat

/-- Set a bucket's level, and the field that shows it. -/
def State.setLevel (s : State) (p c : Nat) (l : Int) : State :=
  let s := { s with mesh := { s.mesh with lvl := Tbl.set s.mesh.lvl (p * 16 + c) l } }
  s.wr (MESH_PCR.LEVEL p c) (levelField l)

/-- Deduct a cost; a charge cannot take the level below -4096 tokens (R175). -/
def State.charge (s : State) (p c cost : Nat) : State :=
  let l := s.level p c - 1024 * (cost : Int)
  if l < -4194304 then (s.setLevel p c (-4194304)).raise MESH_STS.fCLAMP else s.setLevel p c l

/-- The QOS a paced class's requests take at the point (R176). -/
def State.paceQos (s : State) (p : Nat) (m : Msg) : Msg :=
  let c := m.attr.pcls.toNat
  if m.opc.isRequest && s.on (MESH_PCR.EN p c) then
    { m with attr := { m.attr with qos := BitVec.ofNat 2 (s.rd (MESH_PCR.QOS p c)) } }
  else m

/-- The injection queue of a class at a point. -/
def State.pqueue (s : State) (p c : Nat) : List Msg := Tbl.getD s.mesh.pq (p * 16 + c) []

def State.setPqueue (s : State) (p c : Nat) (q : List Msg) : State :=
  { s with mesh := { s.mesh with pq := Tbl.put s.mesh.pq (p * 16 + c) [] q } }

/-- A message with all its credits reaches its stop's injection point: it is held, charged, or leaves at once. No request
passes an earlier one of its class that still waits (R177). -/
def State.inject (s : State) (m : Msg) : State :=
  match pacerPoint m.src.val with
  | none => s.launch m
  | some p =>
    let c := m.attr.pcls.toNat
    let s := if m.opc.isRequest then s.count bankMesh 1 p (some m.attr) else s
    match m.pace with
    | .held _ =>
      if s.on (MESH_PCR.EN p c) || !(s.pqueue p c).isEmpty then s.setPqueue p c (s.pqueue p c ++ [m]) else s.launch m
    | .charged cost => if s.on (MESH_PCR.EN p c) then (s.charge p c cost).launch (s.paceQos p m) else s.launch m
    | .free => s.launch m

/-! ### Sending -/

/-- A request takes a response buffer of its stop; none while all are taken (R165). -/
def State.takeTxn (s : State) (m : Msg) : Option (State × Msg) :=
  (s.freeTxn m.src.val).map (fun i =>
    let m' := { m with txn := BitVec.ofNat 12 (s.gen m.src.val i * 1024 + i) }
    ({ s with mesh := { s.mesh with txnBusy := Tbl.set s.mesh.txnBusy (m.src.val * 1024 + i) m' } }, m'))

/-- A request that its unit issues now is returned by its stop, which is CLOSING or OFF; an eviction still leaves (R181). -/
def State.sentBack (s : State) (m : Msg) : Bool :=
  (s.stopState m.src.val == 1 || s.stopState m.src.val == 2) && m.opc != .wbDirty && m.opc != .evClean

/-- A request takes its credit and its response buffer and is injected; none where it must wait for one (R165). One that the
stop returns takes a response buffer only, and is answered with STS 3 (R181). -/
def State.trySend (s : State) (m : Msg) : Option State :=
  if s.sentBack m then
    (s.takeTxn m).map (fun p =>
      match absorbAnswer p.2 3 with
      | some a => p.1.post a
      | none => p.1)
  else
    let k := m.creditKind
    let n := s.pool m.src.val m.dst.val m.dunit.toNat k
    if n = 0 then none
    else (s.takeTxn m).map (fun p => (p.1.setPool m.src.val m.dst.val m.dunit.toNat k (n - 1)).inject p.2)

/-- A snoop takes one of the four credits the home holds for the agent; none where it must wait (R165). -/
def State.trySnoop (s : State) (m : Msg) : Option State :=
  let n := s.pool m.src.val m.dst.val 0 5
  if n = 0 then none else some ((s.setPool m.src.val m.dst.val 0 5 (n - 1)).launch m)

/-- A unit at a stop sends a message. A request that the unit issues while its stop is CLOSING or OFF is returned
with STS 3, except an eviction (R181); one that finds no credit or response buffer waits (R165). -/
def State.send (s : State) (m : Msg) : State :=
  if m.opc.isRequest then
    match s.trySend m with
    | some s => s
    | none => { s with mesh := { s.mesh with stall := s.mesh.stall ++ [m] } }
  else if m.opc.isSnoop then
    match s.trySnoop m with
    | some s => s
    | none => { s with mesh := { s.mesh with stall := s.mesh.stall ++ [m] } }
  else s.inject m

/-! ### The hub end of a Stride link (R167, R191, R195) -/

/-- A link after reset (R191, R200). -/
def Link.init : Link :=
  { cred := (64, 64, 64), txSeq := 0, unacked := [], dieSeq := 0, dieSkip := false, dieErr := 0, dieSts := 0, rot := 0, rx := [],
    reqSeq := none, lost := [], mask := 0xFFFF, prop := none, heldMsg := none, peerSeq := 0, bad := [], matched := false,
    corr := [], test := none, results := [] }

def State.link (s : State) (t : Nat) : Link := Tbl.getD s.links t Link.init

def State.setLink (s : State) (t : Nat) (x : Link) : State := { s with links := Tbl.put s.links t Link.init x }

/-- Bits [hi:lo] of a capability record (R202). -/
def capBits (r : BitVec 128) (hi lo : Nat) : Nat := r.toNat / 2 ^ lo % 2 ^ (hi - lo + 1)

/-- A capability record in its two registers. -/
def State.capReg (s : State) (lo hi : Fld) : BitVec 128 := BitVec.ofNat 128 (s.rd lo + s.rd hi * 2 ^ 64)

/-- The result of R204; zero until the records have been exchanged. -/
def State.capRes (s : State) (t : Nat) : BitVec 128 := s.capReg (STR_CAP_RES_LO.CAP t) (STR_CAP_RES_HI.CAP t)

/-- A feature of R203 is negotiated on the link. -/
def State.linkHas (s : State) (t b : Nat) : Bool := (capBits (s.capRes t) 63 32).testBit b

/-- The channel of a message from a die: 0 REQ, 1 WB, 2 ANS (R191). -/
def upChan (m : Msg) : Nat :=
  if m.opc = .wbDirty ∨ m.opc = .evClean then 1 else if m.opc.isRequest then 0 else 2

/-- The entry store of a sink-always link has room for a request: 512 for requests, 128 for write-backs (R167). -/
def State.hubRoom (s : State) (t : Nat) (m : Msg) : Bool :=
  let ch := upChan m
  let held := (s.mesh.stall.filter (fun x => x.src.val == tcdStop t && x.opc.isRequest && upChan x == ch)).length
  decide (held < if ch = 1 then 128 else 512)

/-- The messages of a slot leave the channel buffers while there is room for them; what is left stays. -/
def State.sendSlot (s : State) (t : Nat) : List Msg → State × List Msg
  | [] => (s, [])
  | m :: l =>
    if m.opc.isRequest && s.on (STR_STATE.DL t) && !s.hubRoom t m then (s, m :: l) else (s.send m).sendSlot t l

/-- The hub end empties its channel buffers, every channel in the order of its slots (R191, R196). -/
def State.drainLink (s : State) (t : Nat) : State :=
  let p := (s.link t).rx.foldl (fun (p : State × List (Nat × List Msg)) e =>
    if p.2.any (fun k => k.1 == e.1) then (p.1, p.2 ++ [e])
    else
      let q := p.1.sendSlot t e.2
      (q.1, if q.2.isEmpty then p.2 else p.2 ++ [(e.1, q.2)])) (s, [])
  if (s.link t).rx.isEmpty then s else p.1.setLink t { p.1.link t with rx := p.2 }

/-- The waiting requests and snoops are tried again, oldest first, and then what the links hold behind them. -/
def State.retryStalled (s : State) : State :=
  let w := s.mesh.stall
  let s := w.foldl (fun s m =>
    match (if m.opc.isSnoop then s.trySnoop m else s.trySend m) with
    | some s => s
    | none => { s with mesh := { s.mesh with stall := s.mesh.stall ++ [m] } })
    { s with mesh := { s.mesh with stall := [] } }
  s.links.foldl (fun s e => s.drainLink e.1) s

/-- The dies send over their Stride link; every other unit sends at its stop. -/
def State.agentSend (s : State) (m : Msg) : State :=
  match slotOfStop m.src.val with
  | some n => if n < 12 then { s with up := s.up ++ [m] } else s.send m
  | none => s.send m

/-- Advance the generation of a response buffer (R168), with the shared lap counter and bell (R171). -/
def State.nextGen (s : State) (st idx : Nat) : State :=
  let g := s.gen st idx
  let g' := (g + 1) % 4
  let s := { s with mesh := { s.mesh with txnGen := Tbl.put s.mesh.txnGen (st * 1024 + idx) 0 g' } }
  s.bell 2 g g' MESH_GEN_LAP.LAP MESH_GEN_LAP.LAP_SAT MESH_STS.fGEN_BELL

/-- An answer reaches its stop: one of another generation, or for a free buffer, is discarded and LATE is set;
otherwise the buffer is freed and the request it answers is returned (R171). -/
def State.takeAnswer (s : State) (m : Msg) : Option Msg × State :=
  let st := m.dst.val
  let idx := m.txn.toNat % 1024
  let late := (none, (s.raise MESH_STS.fLATE))
  if m.txn.toNat / 1024 = s.gen st idx then
    match Tbl.get? s.mesh.txnBusy (st * 1024 + idx) with
    | some rq => (some rq, { s with mesh := { s.mesh with txnBusy := Tbl.erase s.mesh.txnBusy (st * 1024 + idx) } }.retryStalled)
    | none => late
  else late

/-! ### Stride links to the dies -/

/-- The channel of a message to a die: 0 RSP, 1 SNP, 2 DEV (R191). -/
def downChan (m : Msg) : Nat := if m.opc.isSnoop then 1 else if m.opc.isRequest then 2 else 0

/-- A channel's count of three. -/
def chanOf3 (c : Nat × Nat × Nat) (ch : Nat) : Nat := match ch with | 0 => c.1 | 1 => c.2.1 | _ => c.2.2

def setChan3 (c : Nat × Nat × Nat) (ch v : Nat) : Nat × Nat × Nat :=
  match ch with
  | 0 => (v, c.2.1, c.2.2)
  | 1 => (c.1, v, c.2.2)
  | _ => (c.1, c.2.1, v)

/-- A slot reaches the die end with a condition of its check bits (R194): corrected, it is taken; uncorrectable in segment 0 or
the control byte, it is discarded with every later slot until a resend, or dropped where REPLAY is not negotiated;
uncorrectable elsewhere, its message is taken with POISON. The link then, and the message as the die takes it. -/
def Link.dieEnd (x : Link) (replay : Bool) (m : Msg) : Link × Option Msg :=
  let y := { x with dieErr := 0 }
  if x.dieSkip then (y, none)
  else if x.dieErr = 2 then
    (if replay then ({ y with dieSkip := true, dieSts := x.dieSts ||| 4 }, none)
    else ({ y with dieSts := x.dieSts ||| 8 }, none))
  else
    let sts := if x.dieErr = 1 then 1 else if x.dieErr = 3 then 2 else 0
    ({ y with dieSeq := (x.dieSeq + 1) % 65536, dieSts := x.dieSts ||| sts },
      some { m with poison := m.poison || x.dieErr == 3 })

/-- A message crosses the link to its die in a slot: the hub end takes a link credit of its channel and keeps the slot for
replay (R191, R195), and the die takes it or discards it. None while the link carries no traffic, or while the hub end holds
no credit. -/
def State.crossDown (s : State) (t : Nat) (m : Msg) : Option (State × Option Msg) :=
  let x := s.link t
  let ch := downChan m
  let n := chanOf3 x.cred ch
  if s.rd (STR_STATE.STATE t) ≠ 2 ∨ n = 0 ∨ 192 ≤ x.unacked.length then none
  else
    let q := (x.txSeq + 1) % 65536
    let p := Link.dieEnd { x with cred := setChan3 x.cred ch (n - 1), txSeq := q, unacked := x.unacked ++ [(q, m)] }
      (s.linkHas t 8) m
    some (s.setLink t p.1, p.2)

/-- A delivered message reaches its unit: across the Stride link where the unit is a die. A message that the link holds
stays where it is (R197, R209); one that the die end discards or drops has left the mesh. -/
def State.handIn (s : State) (m : Msg) (k : State → Msg → State) : State :=
  match slotOfStop m.dst.val with
  | some t =>
    if t < 12 then
      match s.crossDown t m with
      | some (s, some m') => k (s.arrive m) m'
      | some (s, none) => s.arrive m
      | none => s
    else k (s.arrive m) m
  | none => k (s.arrive m) m

/-- A message arrives at its stop, once those before it on its path have (R163; assumption 67): the absorber answers it where
the stop is closing, off or dead (R178, R181, R185); answers to the unit's own earlier requests are still delivered while the
stop is closing. -/
def State.deliver (s : State) (m : Msg) (k : State → Msg → State) : State :=
  if s.behind (.msg m) then s
  else if s.headless m then s.arrive m
  else
    match s.absorbSts m.dst.val with
    | none => s.handIn m k
    | some sts =>
      if s.stopState m.dst.val = 1 ∧ m.opc.isAnswer then s.handIn m k else (s.arrive m).absorb m.dst.val m sts

end Sys2Proof.Machine
end

