-- ==== Sys2Proof/Machine/Map.lean ====
section
/-!
DEFINITION. From an address to a DRAM location: the interleave set and its fields (R221 to R224), the parity stripes
(R255, R256), and the HBM mapping (R251).
-/
namespace Sys2Proof.Machine

/-- The memory address of a DDR5 system address (R40). -/
def ddrMem (pa : Nat) : Nat := if pa < 0xC0000000 then pa else pa - 0x40000000

/-- The system line address of a DDR5 memory line address (R40). -/
def ddrSys (mla : Nat) : Nat := if mla * 64 < 0xC0000000 then mla else mla + 0x1000000

/-- Where a line lies in a channel: subchannel, logical rank, bank group, bank, row, column (R221). -/
structure Loc where
  sc : Nat
  rk : Nat
  bg : Nat
  ba : Nat
  row : Nat
  col : Nat
deriving DecidableEq, Repr

/-- The parity mode (R254). -/
def State.parMode (s : State) : Nat := s.rd XCP_CTL.MODE

/-- The group, stripe and member index of a memory line address with parity enabled (R255). -/
def State.stripeOf (s : State) (mla : Nat) : Nat × Nat × Nat :=
  if s.parMode = 2 then (mla % 2, mla / 2 / 7, mla / 2 % 7) else (0, mla / 15, mla % 15)

/-- The channels of a group (R254). -/
def State.groupMembers (s : State) (g : Nat) : List Nat :=
  if s.parMode = 2 then (List.range 8).map (fun i => 8 * g + i) else List.range 16

/-- The group of a channel. -/
def State.groupOf (s : State) (ch : Nat) : Nat := if s.parMode = 2 then ch / 8 else 0

/-- The parity channel of a stripe (R255). -/
def State.parityChan (s : State) (g stripe : Nat) : Nat :=
  if s.parMode = 2 then 8 * g + stripe % 8 else stripe % 16

/-- The channel of member j of a stripe (R255). -/
def State.memberChan (s : State) (g stripe j : Nat) : Nat :=
  if s.parMode = 2 then 8 * g + (stripe % 8 + 1 + j) % 8 else (stripe % 16 + 1 + j) % 16

/-- The memory line address of the member of a stripe that lies in a channel; none for the parity channel. -/
def State.memberMla (s : State) (g stripe ch : Nat) : Option Nat :=
  if s.parMode = 2 then
    let j := (ch % 8 + 16 - stripe % 8 - 1) % 8
    if j = 7 then none else some ((stripe * 7 + j) * 2 + g)
  else
    let j := (ch + 32 - stripe % 16 - 1) % 16
    if j = 15 then none else some (stripe * 15 + j)

/-- The width of the CH field (R221, MCH_MAP.CHW). -/
def State.chBits (s : State) : Nat := if s.parMode ≠ 0 then 0 else 4 - s.rd (MCH_MAP.CHW 0)

/-- Cut the fields of a line address from bit 0 upward in an order of widths. -/
def cutFields : List Nat → Nat → List Nat
  | [], _ => []
  | w :: ws, v => v % 2 ^ w :: cutFields ws (v / 2 ^ w)

/-- The location and CH field of a memory line address (or of a channel-local line address, with no CH field): the
order of R222, then the hash of R223. -/
def State.locate (s : State) (a : Nat) : Nat × Loc :=
  let ch := s.chBits
  let col := if s.on (MCH_MAP.COLW 0) then 6 else 7
  let rk := s.rd (MCH_MAP.RKW 0)
  let row := 16 + s.rd (MCH_MAP.ROWW 0) % 2
  let f : Nat × Loc := match s.rd (MCH_MAP.ORDER 0) with
    | 0 => match cutFields [ch, 1, 3, col, 2, rk, row] a with
      | [c, sc, bg, co, ba, r, ro] => (c, ⟨sc, r, bg, ba, ro, co⟩)
      | _ => (0, ⟨0, 0, 0, 0, 0, 0⟩)
    | 1 => match cutFields [col, ch, 1, 3, 2, rk, row] a with
      | [co, c, sc, bg, ba, r, ro] => (c, ⟨sc, r, bg, ba, ro, co⟩)
      | _ => (0, ⟨0, 0, 0, 0, 0, 0⟩)
    | 2 => match cutFields [ch, 1, 3, 2, col, rk, row] a with
      | [c, sc, bg, ba, co, r, ro] => (c, ⟨sc, r, bg, ba, ro, co⟩)
      | _ => (0, ⟨0, 0, 0, 0, 0, 0⟩)
    | _ => match cutFields [ch, 1, 3, col, 2, row, rk] a with
      | [c, sc, bg, co, ba, ro, r] => (c, ⟨sc, r, bg, ba, ro, co⟩)
      | _ => (0, ⟨0, 0, 0, 0, 0, 0⟩)
  if s.on (MCH_MAP.HASH 0) then
    let ro := f.2.row
    (f.1 ^^^ ((ro / 32) % 2 ^ ch), { f.2 with bg := f.2.bg ^^^ (ro % 8), ba := f.2.ba ^^^ ((ro / 8) % 4) })
  else f

/-- The HBM line address HLA (R251). -/
def hla (line : Nat) : Nat := line - 0x4000000000000 / 64

/-- The location of an HBM line in its stack (R251): SC holds PC[0] and RK the stack ID (R252). -/
def State.hbmLoc (s : State) (line : Nat) : Loc :=
  let a := hla line
  let k := a / 2 % 4
  let row := a / 32768 % 16384
  let bg := a / 128 % 4
  let ba := a / 512 % 4
  let h := s.on (HBC_MAP.HASH k)
  ⟨a % 2, a / 536870912 % 4, if h then bg ^^^ (row % 4) else bg, if h then ba ^^^ (row / 4 % 4) else ba, row,
    a / 2048 % 16⟩

/-- The channel of a line: MCH 0-15 for DDR5, 16 + 16 k + c for channel c of HBC k. -/
def State.chanOf (s : State) (line : Nat) : Nat :=
  if isHbmLine line then
    let a := hla line
    16 + 16 * (a / 2 % 4) + a / 8 % 16
  else
    let mla := ddrMem (line * 64) / 64
    if s.parMode ≠ 0 then
      let (g, st, j) := s.stripeOf mla
      s.memberChan g st j
    else (s.rd (MCH_MAP.CHBASE 0) + (s.locate mla).1) % 16

/-- The location of a line in its channel. -/
def State.locOf (s : State) (line : Nat) : Loc :=
  if isHbmLine line then s.hbmLoc line
  else
    let mla := ddrMem (line * 64) / 64
    if s.parMode ≠ 0 then (s.locate (s.stripeOf mla).2.1).2 else (s.locate mla).2

/-- The location of a request in its channel; a parity engine's names its channel-local line (R256, R268). -/
def State.reqLoc (s : State) (r : MemReq) : Loc :=
  match r.src with
  | .xcp _ => (s.locate r.line.toNat).2
  | _ => s.locOf r.line.toNat

/-- A bank as one number. -/
def Loc.bank (l : Loc) : Nat := ((l.sc * 8 + l.rk) * 8 + l.bg) * 4 + l.ba

end Sys2Proof.Machine
end

