-- ==== Sys2Proof/Machine/Mot.lean ====
section
/-! DEFINITION. The memory ownership table: the entry of a line (R313, R314), the slices' copies of it (R321), the check of a
transaction (R315), the key a write takes (R319), and the record of a refusal (R316, R317); with the states of channels and
parity groups on which a read of the table depends (R244, R271). -/
namespace Sys2Proof.Machine

/-! ### The states of channels and groups (R253, R277) -/

def hbcOf (ch : Nat) : Nat := (ch - 16) / 16

def frzCell (ch lo w : Nat) : Fld := ⟨(0x40000000000 + ch * 16) * 64 + lo, w, 0⟩

def frzState (ch : Nat) : Fld := if ch < 16 then MCH_FRZ.STATE ch else frzCell ch 0 3
/-- The channel is ACTIVE (R253). -/
def State.chActive (s : State) (ch : Nat) : Bool := s.rd (frzState ch) == 0

/-- The fields of a group in XCP_STATE. -/
def grpState (g : Nat) : Fld := if g = 0 then XCP_STATE.STATE0 else XCP_STATE.STATE1
def GOFF : Nat := 0
def GINIT : Nat := 1
def GNORMAL : Nat := 2
def GDEGRADED : Nat := 3
def GRESYNC : Nat := 4
def GBROKEN : Nat := 5

/-- The group works with parity. -/
def State.grpParity (s : State) (g : Nat) : Bool :=
  let st := s.rd (grpState g)
  st == GNORMAL || st == GDEGRADED || st == GRESYNC

/-! ### The memory ownership table -/

/-- Kinds of a MOT entry (R314): an entry that cannot be used is `bad` (R315). -/
inductive MotKind where
  | open_ | owned | locked | bad
deriving DecidableEq, Repr

/-- A MOT entry as the check reads it. -/
structure MotEntry where
  kind : MotKind
  world : Bool
  enc : Nat
deriving DecidableEq, Repr

/-- The index of a granule in the MOT: the first valid segment that holds it, after the lengths of the valid
segments numbered below (R313); none when the granule lies in no valid segment. -/
def State.motIndex (s : State) (gran : Nat) : Option Nat :=
  let go := (List.range 16).foldl (fun (acc : Option Nat × Nat) k =>
    match acc with
    | (some i, l) => (some i, l)
    | (none, l) =>
      if s.on (OWN_SEG.V k) then
        let b := s.rd (OWN_SEG.BASE k)
        let n := s.rd (OWN_SEG.LEN k)
        if b ≤ gran ∧ gran < b + n then (some (l + (gran - b)), l) else (none, l + n)
      else (none, l)) (none, 0)
  go.1

/-- The byte address of the MOT entry with an index. -/
def State.motAddr (s : State) (i : Nat) : Nat := s.rd OWN_TBASE.BASE * 0x200000 + 2 * i

/-- The MOT entry of a line as the table holds it: `bad` for an uncorrectable read, a reserved KIND, an owned entry of no
owner, or an address in no valid segment (R315). The table is read under the package memory key. -/
def State.motRaw (s : State) (line : Nat) : MotEntry :=
  match s.motIndex (line / 32768) with
  | none => ⟨.bad, false, 0⟩
  | some i =>
    let a := s.motAddr i
    if (s.cell (a / 64)).poison then ⟨.bad, false, 0⟩
    else
      let e := lineField (s.memData (a / 64) 0) (a % 64) 2
      let w := decide (e / 8192 % 2 = 1)
      let enc := e % 1024
      match e / 16384 with
      | 0 => ⟨.open_, w, enc⟩
      | 1 => if enc = 0 ∧ w = false then ⟨.bad, w, enc⟩ else ⟨.owned, w, enc⟩
      | 2 => ⟨.locked, w, enc⟩
      | _ => ⟨.bad, w, enc⟩

/-! ### The slices' copies of the table (R321) -/

/-- The set of a slice's MOT cache that a MOT line takes: 256 lines in eight ways (R321, assumption 81). -/
def motSet (h ml : Nat) : Nat := 32 * h + ml % 32

/-- The MOT lines that a set of a slice's MOT cache holds, the newest first. -/
def State.motWays (s : State) (k : Nat) : List Nat := Tbl.getD s.motc k []

/-- A line's channel answers a read of it: it is ACTIVE, or its group rebuilds what it has lost (R245, R271). -/
def State.motReadable (s : State) (ml : Nat) : Bool :=
  let ch := s.chanOf ml
  isCxlLine ml || s.chActive ch || (decide (ch < 16) && s.parMode != 0 && s.grpParity (s.groupOf ch))

/-- The line of the table that holds a line's entry. -/
def State.motLine (s : State) (line : Nat) : Option Nat := (s.motIndex (line / 32768)).map (fun i => s.motAddr i / 64)

/-- The MOT entry of a line as its home reads it: from the slice's cache, or from the channel (R315, R321). -/
def State.mot (s : State) (line : Nat) : MotEntry :=
  match s.motLine line with
  | none => ⟨.bad, false, 0⟩
  | some ml =>
    if (s.motWays (motSet (homeOf line) ml)).contains ml || s.motReadable ml then s.motRaw line else ⟨.bad, false, 0⟩

/-- A home reads the entry of a line: a MOT line that its channel gives enters the slice's cache, where the oldest of eight
leaves (R321, assumption 81). -/
def State.motTouch (s : State) (line : Nat) : State :=
  match (if s.on OWN_CTL.EN then s.motLine line else none) with
  | none => s
  | some ml =>
    let k := motSet (homeOf line) ml
    if (s.motWays k).contains ml ∨ s.motReadable ml = false ∨ (s.cell ml).poison = true then s
    else { s with motc := Tbl.put s.motc k [] ((ml :: s.motWays k).take 8) }

/-- A parity error in a slice's copy of a MOT line: it is discarded, and read again when it is next needed (R321). -/
def State.motParity (s : State) (h ml : Nat) : State :=
  { s with motc := Tbl.put s.motc (motSet h ml) [] ((s.motWays (motSet h ml)).erase ml) }

/-- Write the MOT entry of a granule (R327): both the table and every slice's copy, whose content is the table's. -/
def State.setMot (s : State) (gran : Nat) (kind : Nat) (w : Bool) (enc : Nat) : State :=
  match s.motIndex gran with
  | none => s
  | some i =>
    let a := s.motAddr i
    let v := kind * 16384 + (if w then 8192 else 0) + enc % 1024
    s.memWrite (a / 64) (setLineField (s.memData (a / 64) 0) (a % 64) 2 v) (s.cell (a / 64)).poison 0

/-- The check of R315: whether a transaction of this world and enclave passes for the line. -/
def State.ownPass (s : State) (line : Nat) (world : Bool) (enc : Nat) : Bool :=
  if s.on OWN_CTL.EN then
    let e := s.mot line
    match e.kind with
    | .open_ => decide (enc = 0)
    | .owned => decide (world = e.world) && decide (enc = e.enc)
    | .locked => false
    | .bad => false
  else true

/-- An entry that R315 treats as LOCKED sets MOT_BAD and sends ERR an error record. -/
def State.motBad (s : State) (line : Nat) : State :=
  (s.raise OWN_STS.fMOT_BAD).report { rec0 .error 0x0B 0 3 with addr := some (line * 64) }

/-- The ENC whose key a write to a channel takes, and whether the line must carry the poison mark because its entry
cannot be read (R319). -/
def State.writeKey (s : State) (line : Nat) : Nat × Bool :=
  if s.on OWN_CTL.EN then
    match s.motLine line with
    | none => (0, true)
    | some ml =>
      if (s.cell ml).poison ∨ ((s.motWays (motSet (homeOf line) ml)).contains ml = false ∧ s.motReadable ml = false) then (0, true)
      else
        let e := s.mot line
        match e.kind with
        | .open_ => (0, false)
        | .owned => (e.enc, false)
        | .locked => (e.enc, false)
        | .bad => (e.enc, false)
  else (0, false)

/-- The record of a refusal: its flag, OWN_LOG and the record to ERR (R317). -/
def State.refusal (s : State) (wr : Bool) (world : Bool) (enc line src mtag : Nat) : State :=
  let s := s.raise (if wr then OWN_STS.fREFUSE_WR else OWN_STS.fREFUSE_RD)
  let s := s.wr OWN_LOG.SRC src
  let s := s.wr OWN_LOG.WR wr.toNat
  let s := s.wr OWN_LOG.WORLD world.toNat
  let s := s.wr OWN_LOG.ENC enc
  let s := s.wr OWN_LOG.LINE line
  s.report { rec0 .info 0x0B 0 (if wr then 1 else 0) with
    addr := some (line * 64), world := world, enc := enc, src := src, mtag := mtag }

/-- A device access that fails its check sets REFUSE_DEV and sends an informational record (R322). -/
def State.refuseDev (s : State) (world : Bool) (enc addr src : Nat) : State :=
  (s.raise OWN_STS.fREFUSE_DEV).report { rec0 .info 0x0B 0 2 with
    addr := some addr, world := world, enc := enc, src := src }

end Sys2Proof.Machine
end

