-- ==== Sys2Proof/Machine/Hmc.lean ====
section
/-!
DEFINITION. The hub memory-side cache (R125 to R145): lookups by half state, random replacement within the way masks,
victims and fills, and the way a write or a read of a line goes through it to memory.
-/
namespace Sys2Proof.Machine

/-! ### Homes and locks -/

/-- A home slice at reset: nothing waits. -/
def Home.init : Home := ⟨[], [], [], [], 0, none, [], [], []⟩

def State.home (s : State) (h : Nat) : Home := Tbl.getD s.homes h Home.init

def State.setHome (s : State) (h : Nat) (x : Home) : State := { s with homes := Tbl.put s.homes h Home.init x }

/-- The lock of a line at its home (R96). -/
def State.lock? (s : State) (h line : Nat) : Option Lock := (s.home h).locks.find? (fun l => l.line == line)

/-- The line's lock is held. -/
def State.locked (s : State) (h line : Nat) : Bool := (s.lock? h line).isSome

/-- Put a lock in place of the line's lock, or add it. -/
def State.setLock (s : State) (h : Nat) (l : Lock) : State :=
  let x := s.home h
  let ls := if x.locks.any (fun k => k.line == l.line) then
      x.locks.map (fun k => if k.line == l.line then l else k)
    else x.locks ++ [l]
  s.setHome h { x with locks := ls }

/-- Remove the line's lock. -/
def State.dropLock (s : State) (h line : Nat) : State :=
  let x := s.home h
  s.setHome h { x with locks := x.locks.filter (fun k => k.line != line) }

/-- A directory entry that records no holder. -/
def noEntry (line : Nat) : DirEnt := ⟨line, .inv, 0, 0, false, .ok⟩

/-- A lock as a transaction takes it. -/
def Lock.new (line : Nat) (t : Txn) (p : Phase) (q : List Msg) : Lock :=
  ⟨line, t, p, [], none, false, false, false, false, noEntry line, q⟩

/-! ### Ways -/

/-- The set of a line (R125). -/
def hmcSet (line : Nat) : Nat := line % 4096

def hmcKey (h set way : Nat) : Nat := (h * 4096 + set) * 16 + way

def State.hmcWay (s : State) (h set way : Nat) : Option HmcWay := Tbl.get? s.hmc (hmcKey h set way)

/-- The state field of a slice's half (R125, R139). -/
def halfState (h : Nat) : Fld := if h < 16 then HMC_STATE.STATE_N else HMC_STATE.STATE_S

/-- The dirty-line count of a slice's half. -/
def halfDirty (h : Nat) : Fld := if h < 16 then HMC_DIRTY.DIRTY_N else HMC_DIRTY.DIRTY_S

def HOFF : Nat := 0
def HON : Nat := 1
def HDRAIN : Nat := 2
def HDRAINED : Nat := 3
def HINVAL : Nat := 4

/-- The way that holds a line of memory; a delta line is never matched (R263). -/
def State.hmcFind (s : State) (h line : Nat) : Option Nat :=
  (List.range 16).find? (fun w => match s.hmcWay h (hmcSet line) w with
    | some x => !x.delta && x.line == line
    | none => false)

/-- Write a way, or empty it, and keep the half's dirty count. -/
def State.hmcPut (s : State) (h set way : Nat) (x : Option HmcWay) : State :=
  let old := match s.hmcWay h set way with | some y => y.dirty | none => false
  let new := match x with | some y => y.dirty | none => false
  let t := match x with
    | some y => Tbl.set s.hmc (hmcKey h set way) y
    | none => Tbl.erase s.hmc (hmcKey h set way)
  let s := { s with hmc := t }
  s.wr (halfDirty h) (s.rd (halfDirty h) + new.toNat - old.toNat)

/-- Bits [15:0] of a slice's LFSR. -/
def State.lfsr16 (s : State) (h : Nat) : Nat := Tbl.getD s.lfsr h 0 % 65536

/-- One step of an LFSR (R130): shift left by one, s[31] ^ s[21] ^ s[1] ^ s[0] enters at bit 0. -/
def lfsrStep (v : Nat) : Nat :=
  (2 * v + (v / 2147483648 + v / 2097152 + v / 2 + v) % 2) % 4294967296

/-- The way at position (v x k) >> 16 among k ways (R112, R133). -/
def pickWay (v : Nat) (ways : List Nat) : Option Nat := ways[(v * ways.length) / 65536]?

/-- The ways of a mask whose lines are not locked and that no fill waits for, a delta line among them (R133, R264). -/
def State.freeWays (s : State) (h set mask : Nat) : List Nat :=
  (List.range 16).filter (fun w =>
    mask.testBit w &&
    (match s.hmcWay h set w with
      | some x => x.delta || !s.locked h x.line
      | none => true) &&
    !((s.home h).fills.any (fun f => f.set == set && f.way == w)) &&
    !(s.xcp.updates.any (fun d => d.fill.any (fun f => f.slice == h && f.set == set && f.way == w))))

/-- The way a class's line takes (R133): none when the allowed set is empty. Ways of DWAYS are in no mask (R263). -/
def State.hmcChoose (s : State) (h set mask : Nat) : Option Nat :=
  let a := s.freeWays h set mask
  match a.find? (fun w => (s.hmcWay h set w).isNone) with
  | some w => some w
  | none => pickWay (s.lfsr16 h) a

/-- The way mask of a class without the delta ways (R132, R263). -/
def State.classMask (s : State) (c : Nat) : Nat :=
  s.rd (HMC_WAYMASK.MASK c) &&& (65535 - s.rd XCP_CTL.DWAYS)

/-! ### Sending to memory -/

/-- The request is of the parity engine: it names a stripe in place of a line. -/
def MemReq.ofXcp (r : MemReq) : Bool := match r.src with
  | .xcp _ => true
  | _ => false

/-- A freeze unit at reset: empty queues, nothing listed. -/
def ChanSt.init : ChanSt :=
  { rq := [], wq := [], drain := .none, openRows := [], acts := [], drops := [], op := none, snapR := [], snapW := [],
    retries := 0, scrubAt := none, scrubBad := false, refRank := 0, sref := false, rfmOk := false, rfm := [] }

def State.chan (s : State) (c : Nat) : ChanSt := Tbl.getD s.chans c ChanSt.init

def State.setChan (s : State) (c : Nat) (x : ChanSt) : State := { s with chans := Tbl.put s.chans c ChanSt.init x }

/-- A home cannot use a stop: it is dead, or no route of the home's stop reaches it (R157, R185). -/
def State.unusable (s : State) (h st : Nat) : Bool := s.stopState st == 3 || !s.reachable (homeStop h) st

/-- The stop and unit that a channel's requests go to (R157, R156). -/
def State.chanTarget (s : State) (ch line : Nat) : Nat × Nat :=
  if ch < 16 then (mchStop ch, 1)
  else
    let k := (ch - 16) / 16
    let b := line % 2 == 1
    let h := homeOf line
    if s.unusable h (hbcStop k b) && !s.unusable h (hbcStop k (!b)) then (hbcStop k (!b), 0) else (hbcStop k b, 0)

/-- The stop of the sender of a memory request. -/
def MemSrc.stop : MemSrc → Nat
  | .home h | .victim h | .sweep h | .mark h => homeStop h.val
  | .xcp _ => xcpStop

/-- A request to a memory channel leaves while the sender holds a credit there, and waits otherwise (R165). -/
def State.memSend (s : State) (r : MemReq) : State :=
  let t := s.chanTarget r.chan.val r.line.toNat
  let k := if r.wr then 3 else 2
  let n := s.pool r.src.stop t.1 t.2 k
  if n = 0 then { s with mesh := { s.mesh with memStall := s.mesh.memStall ++ [r] } }
  else (s.setPool r.src.stop t.1 t.2 k (n - 1)).putFlit r.src.stop t.1 (.mem r)

/-- The memory requests that wait for a credit are tried again. -/
def State.retryMem (s : State) : State :=
  s.mesh.memStall.foldl (fun s r => s.memSend r) { s with mesh := { s.mesh with memStall := [] } }

/-- The root port that serves a line of CXL window k (R587). -/
def State.cxlPort (s : State) (k line : Nat) : Nat :=
  let off := line * 64 - 0x8000000000000 - k * 0x400000000000
  let gran := if s.on (HUB_CXLWIN.GRAN k) then 4096 else 256
  let ways := 2 ^ s.rd (HUB_CXLWIN.WAYS k)
  let w := off / gran % ways
  s.rd (HUB_CXLWIN.PORTS k) / 8 ^ w % 8

/-- The stop of the port that serves a CXL line. -/
def State.cxlStop (s : State) (line : Nat) : Nat :=
  match regionOf (line * 64) with
  | .cxl k => if s.cxlPort k line < 4 then iowStop else ioeStop
  | _ => iowStop

/-- The stop and the status with which a CXL line's port absorbs, if it does (R138, R179): its group's stop, or the home's own
where the group cannot be reached (R185). -/
def State.cxlAbsorb (s : State) (line : Nat) : Option (Nat × Nat) :=
  let st := s.cxlStop line
  let h := homeStop (homeOf line)
  if isCxlLine line = false then none
  else if s.reachable h st then (s.absorbSts st).map (fun v => (st, v)) else some (h, 2)

/-- The class and attributes of a write that the hub itself sends: the ENC of the line's MOT entry, and whether the line
takes the poison mark because that entry cannot be read (R319). -/
def State.hubAttr (s : State) (line : Nat) (a : Attr) : State × Attr × Bool :=
  let s := s.motTouch line
  let k := s.writeKey line
  (if k.2 then s.motBad line else s, { a with enc := BitVec.ofNat 10 k.1 }, k.2)

/-- Send a write of a line to its channel; true where it is accepted at once: a CXL line enters its port's transmit
queue, or its port absorbs it and the data is lost (R129, R138). -/
def State.chanWrite (s : State) (line : Nat) (be : BitVec 64) (d : LineData) (psn : Bool) (a : Attr)
    (src : MemSrc) : State × Bool :=
  if isCxlLine line then
    match s.cxlAbsorb line with
    | some (st, sts) =>
      let s := s.dropWrite st line a src.stop sts
      let s := match src with
        | .victim h | .sweep h => (s.raise HMC_STS.fLOSS).report { rec0 .error 2 h.val 2 with addr := some (line * 64) }
        | _ => s
      (s, true)
    | none =>
      let c := s.cell line
      (s.memWrite line (mergeBytes be c.data d) (psn || (c.poison && be != ~~~0)) 0, true)
  else
    let (s, a, bad) := s.hubAttr line a
    (s.memSend ⟨true, Fin.ofNat 80 (s.chanOf line), BitVec.ofNat 46 line, a, src, be, d, psn || bad⟩, false)

/-! ### Allocation and writes -/

/-- Every byte of a line. -/
def fullBe : BitVec 64 := ~~~0

/-- Where a write that reached the HMC stands: written, waiting for its channel, or waiting for a victim (R135). -/
inductive WrRes where
  | done | waits
deriving DecidableEq, Repr

/-- The fill that stands for a line (R135, R136). -/
def State.fill? (s : State) (h line : Nat) : Option Fill := (s.home h).fills.find? (fun f => f.line == line)

/-- Replace the fill of a line, or end it. -/
def State.setFill (s : State) (h line : Nat) (f : Option Fill) : State :=
  let x := s.home h
  s.setHome h { x with fills := match f with
    | some f => x.fills.map (fun g => if g.line == line then f else g)
    | none => x.fills.filter (fun g => g.line != line) }

/-- A way is chosen for a line (R133, R135): its content leaves the way; a dirty victim's lock is taken and the victim is sent
to its channel. The fill waits, for that write's acceptance or for its data. -/
def State.fillStart (s : State) (h set way line : Nat) (d : Option (LineData × Bool)) (dirty : Bool) (a : Attr) : State :=
  let add (s : State) (v : Option Nat) : State :=
    let x := s.home h
    s.setHome h { x with fills := x.fills ++ [⟨set, way, v, line, d, dirty⟩] }
  match s.hmcWay h set way with
  | some v =>
    let s := s.hmcPut h set way none
    if v.dirty then
      let s := s.setLock h (Lock.new v.line .victim .wr [])
      let (s, now) := s.chanWrite v.line fullBe v.data v.poison a (.victim (Fin.ofNat 32 h))
      if now then add (s.dropLock h v.line) none else add s (some v.line)
    else add s none
  | none => add s none

/-- The fill of a line is written into its way once it has its data and its victim has been accepted (R135, R136). -/
def State.fillEnd (s : State) (h line : Nat) : State × WrRes :=
  match s.fill? h line with
  | some ⟨set, way, none, _, some (d, psn), dirty⟩ =>
    ((s.setFill h line none).hmcPut h set way (some ⟨line, dirty, psn, d, false, .ok⟩), .done)
  | some _ => (s, .waits)
  | none => (s, .done)

/-- Place a line in a chosen way: at once, or once its dirty victim has been accepted (R135). -/
def State.hmcPlace (s : State) (h set way line : Nat) (d : LineData) (psn dirty : Bool) (a : Attr) :
    State × WrRes :=
  (s.fillStart h set way line (some (d, psn)) dirty a).fillEnd h line

/-- The line may be held in the HMC: not an HBM line (R126), and for a CXL line only with CXL_ALLOC (R129). -/
def State.hmcMay (s : State) (line : Nat) : Bool :=
  !isHbmLine line && (!isCxlLine line || s.on HMC_CTL.CXL_ALLOC)

/-- A write of bytes of a line at its home (R128, R143): merged with a held line while the half is ON; in DRAIN a hit
on a dirty line sends the merged line on and frees the way; otherwise allocated where `alloc` allows it, or written to
the channel. -/
def State.hmcWrite (s : State) (h line : Nat) (be : BitVec 64) (d : LineData) (psn : Bool) (a : Attr)
    (alloc : Bool) (src : MemSrc) : State × WrRes :=
  let st := s.rd (halfState h)
  let set := hmcSet line
  let s := if st = HON ∧ isHbmLine line = false then
      s.count bankHmc (if (s.hmcFind h line).isSome then 1 else 2) h (some a) else s
  let toChan (s : State) (be : BitVec 64) (d : LineData) (psn : Bool) : State × WrRes :=
    let (s, now) := s.chanWrite line be d psn a src
    (s, if now then .done else .waits)
  if isHbmLine line then toChan s be d psn
  else
    match (if st = HON ∨ st = HDRAIN then s.hmcFind h line else none) with
    | some w =>
      match s.hmcWay h set w with
      | some x =>
        let merged := mergeBytes be x.data d
        let psn' := psn || (x.poison && be != fullBe)
        if st = HON then
          (s.hmcPut h set w (some { x with data := merged, poison := psn', dirty := true }), .done)
        else if x.dirty then toChan (s.hmcPut h set w none) fullBe merged psn'
        else toChan s be d psn
      | none => toChan s be d psn
    | none =>
      -- a fill of the line that still waits for its victim takes the write (R136)
      match s.fill? h line with
      | some f =>
        match f.data with
        | some (d0, p0) =>
          (s.setFill h line (some { f with
            data := some (mergeBytes be d0 d, psn || (p0 && be != fullBe)), dirty := true }), .waits)
        | none => toChan s be d psn
      | none =>
      if st = HON ∧ alloc = true ∧ be = fullBe ∧ s.hmcMay line = true then
        match s.hmcChoose h set (s.classMask a.pcls.toNat) with
        | some w => s.hmcPlace h set w line d psn true a
        | none => toChan (s.count bankHmc 3 h (some a)) be d psn
      else toChan s be d psn

/-- What the memory side holds for a line now: the HMC's copy, the newest queued write's, or memory's. -/
def State.memSide (s : State) (line enc : Nat) : LineData × Bool :=
  let h := homeOf line
  let st := s.rd (halfState h)
  let c := s.cell line
  let below : LineData × Bool :=
    let q := (s.chan (s.chanOf line)).wq
    match (q.reverse.find? (fun e => !e.req.ofXcp && e.req.line.toNat == line)) with
    | some e => (s.recrypt line e.key (s.keyId enc) e.req.data, e.req.poison)
    | none => (s.memData line enc, c.poison)
  match (s.fill? h line).bind (fun f => f.data) with
  | some d => d
  | none =>
    match (if st = HON ∨ st = HDRAIN then s.hmcFind h line else none) with
    | some w =>
      match s.hmcWay h (hmcSet line) w with
      | some x => if st = HON ∨ x.dirty then (x.data, x.poison) else below
      | none => below
    | none => below

/-- The poison mark on a line's memory copy, through the HMC as for a write-back (R594). -/
def State.markPoison (s : State) (line : Nat) (a : Attr) : State :=
  let h := homeOf line
  let d := (s.memSide line a.enc.toNat).1
  let s := if s.rd (halfState h) = HDRAIN then
    (match s.hmcFind h line with
      | some w => s.hmcPut h (hmcSet line) w none
      | none => s) else s
  (s.hmcWrite h line fullBe d true a (s.on HMC_CTL.ALLOC_WB) (.mark (Fin.ofNat 32 h))).1

end Sys2Proof.Machine
end

