-- ==== Sys2Proof/Machine/Home.lean ====
section
/-!
DEFINITION. The home slice: its directory (R87 to R89, R112, R113), the line locks and their queues (R96), the flows
of R98, snoop answers (R99, R100), timeouts and dead agents (R106 to R109).
-/
namespace Sys2Proof.Machine

/-! ### The directory -/

def dirSet (line : Nat) : Nat := line % 16384

def dirKey (h set way : Nat) : Nat := (h * 16384 + set) * 16 + way

def State.dirAt (s : State) (h set way : Nat) : Option DirEnt := Tbl.get? s.dir (dirKey h set way)

/-- The way whose entry names the line. -/
def State.dirFind (s : State) (h line : Nat) : Option Nat :=
  (List.range 16).find? (fun w => match s.dirAt h (dirSet line) w with
    | some e => e.line == line
    | none => false)

/-- The line's entry; a line with none has state INV (R87). -/
def State.dirEnt (s : State) (h line : Nat) : DirEnt :=
  match s.dirFind h line with
  | some w => (s.dirAt h (dirSet line) w).getD (noEntry line)
  | none => noEntry line

def DirEnt.valid (e : DirEnt) : Bool := e.st != .inv

/-- Write or free a way, and keep the slice's count of valid entries (HOME_OCC). -/
def State.dirPut (s : State) (h set way : Nat) (e : Option DirEnt) : State :=
  let old := match s.dirAt h set way with | some x => x.valid | none => false
  let new := match e with | some x => x.valid | none => false
  let t := match e with
    | some x => Tbl.set s.dir (dirKey h set way) x
    | none => Tbl.erase s.dir (dirKey h set way)
  let s := { s with dir := t }
  s.wr (HOME_OCC.VALID h) (s.rd (HOME_OCC.VALID h) + new.toNat - old.toNat)

/-- What a transaction leaves in the line's entry; an entry with no holder is freed (R98). -/
def State.dirCommit (s : State) (h : Nat) (e : DirEnt) : State :=
  match s.dirFind h e.line with
  | some w => s.dirPut h (dirSet e.line) w (if e.valid then some e else none)
  | none =>
    if e.valid then
      match (List.range 16).find? (fun w => (s.dirAt h (dirSet e.line) w).isNone) with
      | some w => s.dirPut h (dirSet e.line) w (some e)
      | none => s
    else s

/-- Write what a request leaves of a line's entry while the line's lock is held: its way stays the line's (R87). -/
def State.dirKeep (s : State) (h : Nat) (e : DirEnt) : State :=
  match s.dirFind h e.line with
  | some w => s.dirPut h (dirSet e.line) w (some e)
  | none => s.dirCommit h e

/-- The holders an entry records: the owner and the sharers. -/
def DirEnt.holders (e : DirEnt) : List Nat :=
  match e.st with
  | .inv => []
  | .sh => bitsOf e.sharers
  | .ex => [e.owner]
  | .ow => e.owner :: (bitsOf e.sharers).filter (fun n => n != e.owner)

/-- Remove an agent from an entry (R98, R106, R109). -/
def DirEnt.remove (e : DirEnt) (a : Nat) : DirEnt :=
  match e.st with
  | .inv => e
  | .ex => if e.owner = a then { e with st := .inv, owner := 0, sharers := 0 } else e
  | .sh =>
    let v := clrBit e.sharers a
    if v = 0 then { e with st := .inv, owner := 0, sharers := 0 } else { e with sharers := v }
  | .ow =>
    let v := clrBit e.sharers a
    if e.owner = a then
      if v = 0 then { e with st := .inv, owner := 0, sharers := 0 } else { e with st := .sh, owner := 0, sharers := v }
    else { e with sharers := v }

/-- Clean an entry of the dead agents (R109): true where the memory copy must take the poison mark. -/
def State.cleanEnt (s : State) (e : DirEnt) : DirEnt × Bool :=
  e.holders.foldl (fun acc a =>
    if s.agentState a = 2 then
      (acc.1.remove a, acc.2 || ((e.st = .ex ∨ e.st = .ow) && e.owner == a))
    else acc) (e, false)

/-- What a transaction leaves in the line's entry, cleaned of agents that died while it ran (R109). -/
def State.dirSettle (s : State) (h : Nat) (e : DirEnt) (a : Attr) : State :=
  let c := s.cleanEnt e
  (if c.2 then s.markPoison e.line a else s).dirCommit h c.1

/-! ### Answers of the home -/

/-- Send an answer of the home to the requester of m. -/
def State.answer (s : State) (m : Msg) (opc : Opc) (sts : Nat) (d : LineData) (psn : Bool) : State :=
  s.launch { m.reply opc with sts := BitVec.ofNat 3 sts, data := d, poison := psn }

/-- Send the snoop of a transaction to an agent. -/
def State.snoop (s : State) (h : Nat) (m : Msg) (line : Nat) (a : Nat) (o : Opc) : State :=
  (s.count (bankHome h) 2 0 (some m.attr)).send { m with
                  opc := o, dst := toStop (stopOfSlot a), src := toStop (homeStop h), dunit := 0,
                  req := m.src, line := BitVec.ofNat 46 line, sts := 0, poison := false, be := 0, data := 0 }

/-- A die whose link runs at revision 1, or whose result lacks feature b of R203 (R117; assumption 70). -/
def State.lacks (s : State) (a b : Nat) : Bool :=
  decide (a < 12) && (s.rd (STR_STATE.REV a) == 1 || (s.capRes a != 0 && !s.linkHas a b))

/-- The die never enters O: it answers SnpShared with RspSWb where R99 gives RspOFwd (R117, R203). -/
def State.noOwned (s : State) (a : Nat) : Bool := s.lacks a 0

/-- The die does not answer SnpCur: it is sent SnpShared in its place (R117, R203). -/
def State.noSnpCur (s : State) (a : Nat) : Bool := s.lacks a 1

/-- The requester's answer opcode for a write or maintenance. -/
def ackOf : Opc → Opc
  | .wbDirty => .wbAck
  | .evClean => .evAck
  | .maintCln | .maintInv => .maintAck
  | _ => .wrAck

/-- The agent slot of a message's source; 15 for a requester that is no agent. -/
def Msg.slot (m : Msg) : Nat := (slotOfStop m.src.val).getD 15

/-! ### Reads of memory for a transaction -/

/-- A CompAck ends a read or an Upgrade: the directory takes the grant. With STS 4 or an absorber's status the requester
did not install the line: it is removed, and the memory copy is marked unless the grant was served from memory (R96, R169). -/
def State.acked (s : State) (h : Nat) (l : Lock) (rq ack : Msg) : State :=
  let bad := ack.sts = 4 ∨ ack.sts = 2 ∨ ack.sts = 3
  let s := if bad ∧ l.fromMem = false then s.markPoison l.line rq.attr else s
  s.dirSettle h (if bad then l.after.remove ack.slot else l.after) rq.attr

/-- The requester has been served: its CompAck is awaited, unless it came before; true when the transaction has finished. -/
def State.served (s : State) (h : Nat) (l : Lock) (m : Msg) : State × Bool :=
  let x := s.home h
  let mine (a : Msg) : Bool := a.src == m.src && a.txn == m.txn && a.line == m.line
  match x.acks.find? mine with
  | none => (s.setLock h { l with phase := .comp }, false)
  | some a => ((s.setHome h { x with acks := x.acks.filter (fun a => !mine a) }).acked h l m a, true)

/-- Grant the line to the requester with its data: DataE where it becomes the owner, DataS otherwise (R98). -/
def State.grant (s : State) (h : Nat) (l : Lock) (m : Msg) (d : LineData) (sts : Nat) (psn mem : Bool) :
    State × Bool :=
  let s := s.answer m (if l.after.st = .ex then .dataE else .dataS) (if psn && sts == 0 then 1 else sts) d psn
  s.served h { l with wb := none, fromMem := mem } m

/-- The line of a read miss may allocate, by its request and requester (R128). -/
def State.readAlloc (s : State) (m : Msg) : Bool :=
  match m.opc with
  | .rdShared | .rdUnique | .upgrade => s.on HMC_CTL.ALLOC_RD
  | .rdOnce => s.on HMC_CTL.IO_ALLOC && (m.src.val == tqeStop || m.src.val == iowStop || m.src.val == ioeStop)
  | _ => false

/-- Data of the line has come from the HMC or memory for a read-type transaction; true when it has finished. Data with
POISON or a status that is not 0 are not allocated (R128); the fill of an allocating miss takes its data, and the requester
is answered when it is written (R136). -/
def State.memGot (s : State) (h : Nat) (l : Lock) (m : Msg) (d : LineData) (psn : Bool) (sts : Nat) (miss : Bool) :
    State × Bool :=
  let fin (s : State) : State × Bool :=
    if m.opc = .rdOnce then (s.answer m .dataOnce (if psn && sts == 0 then 1 else sts) d psn, true)
    else s.grant h l m d sts psn true
  match (if miss then s.fill? h l.line else none) with
  | none => fin s
  | some f =>
    if psn = true ∨ sts ≠ 0 then fin (s.setFill h l.line none)
    else
      match (s.setFill h l.line (some { f with data := some (d, psn) })).fillEnd h l.line with
      | (s, .done) => fin s
      | (s, .waits) => (s.setLock h { l with phase := .fill, wb := some (d, psn) }, false)

/-- A read that misses and may allocate chooses its way, and its victim leaves, while the line is fetched (R133, R136). -/
def State.missFill (s : State) (h line : Nat) (m : Msg) : State :=
  if s.rd (halfState h) = HON ∧ s.readAlloc m = true ∧ s.hmcMay line = true then
    match s.hmcChoose h (hmcSet line) (s.classMask m.attr.pcls.toNat) with
    | some w => s.fillStart h (hmcSet line) w line none false m.attr
    | none => s.count bankHmc 3 h (some m.attr)
  else s

/-- The HMC's copy of a line that a read is served from (R139, R143): a way, or a fill that waits for its victim. -/
def State.hmcHit (s : State) (h line : Nat) : Option (LineData × Bool) :=
  let st := s.rd (halfState h)
  if isHbmLine line then none
  else
    match (s.fill? h line).bind (fun f => f.data) with
    | some d => some d
    | none =>
      if st = HON ∨ st = HDRAIN then
        match (s.hmcFind h line).bind (fun w => s.hmcWay h (hmcSet line) w) with
        | some x => if st = HON ∨ x.dirty then some (x.data, x.poison) else none
        | none => none
      else none

/-- Read the line for a transaction: from the HMC on a hit, from the root port for a CXL line, else from its channel
(R128, R129, R143). -/
def State.memRead (s : State) (h : Nat) (l : Lock) (m : Msg) : State × Bool :=
  let st := s.rd (halfState h)
  let s := if st = HON ∧ isHbmLine l.line = false then
      s.count bankHmc (if (s.hmcFind h l.line).isSome then 1 else 2) h (some m.attr) else s
  match s.hmcHit h l.line with
  | some (d, p) => s.memGot h l m d p 0 false
  | none =>
    let s := s.missFill h l.line m
    if isCxlLine l.line then
      match s.cxlAbsorb l.line with
      | some (_, sts) => s.memGot h l m onesLine true sts true
      | none => s.memGot h l m (s.cell l.line).data (s.cell l.line).poison 0 true
    else
      let s := s.setLock h { l with phase := .mem }
      (s.memSend ⟨false, Fin.ofNat 80 (s.chanOf l.line), BitVec.ofNat 46 l.line, m.attr, .home (Fin.ofNat 32 h),
        0, 0, false⟩, false)

/-! ### The end of a transaction's snoops and writes -/

/-- The transaction's write has been accepted, or it needs none: the directory, and the answer (R98). True: done. -/
def State.afterWrite (s : State) (h : Nat) (l : Lock) (m : Msg) : State × Bool :=
  ((s.dirSettle h l.after m.attr).answer m (ackOf m.opc) (if l.psn then 1 else 0) 0 false, true)

/-- The HMC's part of a maintenance operation (R143, R148); waits where a dirty copy goes to its channel. -/
def State.maintHmc (s : State) (h line : Nat) (m : Msg) : State × WrRes :=
  let st := s.rd (halfState h)
  if isHbmLine line then (s, .done)
  else
    match s.fill? h line with
    | some ⟨set, way, v, _, some (d, psn), true⟩ =>
      if m.pt = false then (s, .done)
      else
        let s := s.setFill h line (if m.opc = .maintInv then none else some ⟨set, way, v, line, some (d, psn), false⟩)
        let (s, now) := s.chanWrite line fullBe d psn m.attr (.home (Fin.ofNat 32 h))
        (s, if now then .done else .waits)
    | _ =>
    match (if st = HON ∨ st = HDRAIN then s.hmcFind h line else none) with
    | some w =>
      match s.hmcWay h (hmcSet line) w with
      | some x =>
        let inv := m.opc = .maintInv ∨ st = HDRAIN
        if x.dirty ∧ (m.pt ∨ st = HDRAIN) then
          let s := s.hmcPut h (hmcSet line) w (if inv then none else some { x with dirty := false })
          let (s, now) := s.chanWrite line fullBe x.data x.poison m.attr (.home (Fin.ofNat 32 h))
          (s, if now then .done else .waits)
        else if st = HON ∧ m.pt ∧ m.opc = .maintInv then (s.hmcPut h (hmcSet line) w none, .done)
        else (s, .done)
      | none => (s, .done)
    | none => (s, .done)

/-- A WrFull from the TQE or an I/O stop may allocate with IO_ALLOC; no partial write and no die's write does (R128). -/
def State.writeAlloc (s : State) (m : Msg) : Bool :=
  decide (m.opc = .wrFull) && s.on HMC_CTL.IO_ALLOC &&
    (m.src.val == tqeStop || m.src.val == iowStop || m.src.val == ioeStop)

/-- Serve the transaction once every holder has answered and every dirty answer is accepted; true when it has
finished (R98, R100, R106). -/
def State.serve (s : State) (h : Nat) (l : Lock) (m : Msg) : State × Bool :=
  match m.opc with
  | .rdShared | .rdUnique =>
    if l.sent then s.served h l m
    else if l.psn then s.grant h l m (s.memSide l.line m.attr.enc.toNat).1 1 true false
    else s.memRead h l m
  | .upgrade =>
    let s := s.answer m .grantE (if l.psn then 1 else 0) 0 l.psn
    s.served h l m
  | .rdOnce =>
    if l.sent then (s.dirSettle h l.after m.attr, true)
    else
      let s := s.dirSettle h l.after m.attr
      if l.psn then (s.answer m .dataOnce 1 (s.memSide l.line m.attr.enc.toNat).1 true, true)
      else s.memRead h l m
  | .wrFull | .wrPart =>
    let be := if m.opc = .wrFull then fullBe else m.be
    let s := s.setLock h { l with phase := .wr, wb := none }
    let (s, r) := s.hmcWrite h l.line be m.data (m.poison || l.psn) m.attr (s.writeAlloc m) (.home (Fin.ofNat 32 h))
    if r = .done ∨ l.psn then s.afterWrite h { l with wb := none } m else (s, false)
  | .maintCln | .maintInv =>
    let s := s.setLock h { l with phase := .wr, wb := none }
    let (s, r) := s.maintHmc h l.line m
    if r = .done then s.afterWrite h { l with wb := none } m else (s, false)
  | .wbDirty =>
    let s := s.setLock h { l with phase := .wr, wb := none }
    let (s, r) := s.hmcWrite h l.line fullBe m.data m.poison m.attr (s.on HMC_CTL.ALLOC_WB) (.home (Fin.ofNat 32 h))
    if r = .done then s.afterWrite h { l with wb := none } m else (s, false)
  | _ => (s, true)

/-- Every snoop of the transaction has been answered: lost data is marked (R179), dirty data is written back, and the
transaction is served. -/
def State.snoopsDone (s : State) (h : Nat) (l : Lock) (m : Msg) : State × Bool :=
  let s := if l.lost then s.markPoison l.line m.attr else s
  let l := if l.lost then { l with psn := true, wb := none } else l
  match l.wb with
  | some (d, p) =>
    let s := s.setLock h { l with phase := .wr }
    let (s, r) := s.hmcWrite h l.line fullBe d p m.attr (s.on HMC_CTL.ALLOC_WB) (.home (Fin.ofNat 32 h))
    if r = .done then s.serve h { l with wb := none } m else (s, false)
  | none => s.serve h l m

/-! ### Taking the lock -/

/-- What a request asks of the entry it meets: the request as it is served, the snoops, the entry after it (R98). -/
def plan (e : DirEnt) (m : Msg) (r : Nat) (rev1 : Bool) : Msg × List (Nat × Opc) × DirEnt :=
  let own : DirEnt := { e with st := .ex, owner := r, sharers := 0 }
  let none' : DirEnt := { e with st := .inv, owner := 0, sharers := 0 }
  let sh (v : BitVec 16) : DirEnt := { e with st := .sh, owner := 0, sharers := v }
  let others := (bitsOf e.sharers).filter (fun n => n != r)
  let invs (l : List Nat) : List (Nat × Opc) := l.map (fun n => (n, Opc.snpInv))
  let uniq : List (Nat × Opc) := match e.st with
    | .inv => []
    | .sh => invs others
    | .ex => if e.owner = r then [] else [(e.owner, .snpUnique)]
    | .ow => (if e.owner = r then [] else [(e.owner, .snpUnique)]) ++ invs (others.filter (fun n => n != e.owner))
  match m.opc with
  | .rdShared =>
    match e.st with
    | .inv => (m, [], if r = 12 then sh (setBit 0 12) else own)
    | .sh => (m, [], sh (setBit e.sharers r))
    | .ex => if e.owner = r then (m, [], if r = 12 then sh (setBit 0 12) else own)
        else (m, [(e.owner, .snpShared)], sh (setBit (setBit 0 e.owner) r))
    | .ow => if e.owner = r then (m, [], e) else (m, [(e.owner, .snpShared)], { e with sharers := setBit e.sharers r })
  | .rdUnique => (m, uniq, own)
  | .upgrade =>
    match e.st with
    | .sh => if hasBit e.sharers r then (m, invs others, own) else ({ m with opc := .rdUnique }, uniq, own)
    | .ow => if e.owner = r then (m, invs (others.filter (fun n => n != e.owner)), own)
        else ({ m with opc := .rdUnique }, uniq, own)
    | _ => ({ m with opc := .rdUnique }, uniq, own)
  | .rdOnce =>
    match e.st with
    | .ex | .ow => (m, [(e.owner, if rev1 then .snpShared else .snpCur)], e)
    | _ => (m, [], e)
  | .wrFull | .wrPart | .maintInv => (m, invs e.holders, none')
  | .wbDirty => (m, [], match e.st with | .ow => if e.sharers = 0 then none' else sh e.sharers | _ => none')
  | .maintCln =>
    match e.st with
    | .ex => (m, [(e.owner, .snpCln)], e)
    | .ow => (m, [(e.owner, .snpCln)], sh (setBit e.sharers e.owner))
    | _ => (m, [], e)
  | _ => (m, [], e)

/-- Run a request that holds the line's lock, on an entry whose check bits are good: clean it of dead agents, then
act by R98. True when it has finished at once. -/
def State.lockGo (s : State) (h : Nat) (m : Msg) (q : List Msg) : State × Bool :=
  let line := m.line.toNat
  let r := m.slot
  let c := s.cleanEnt (s.dirEnt h line)
  let s := if c.2 then s.markPoison line m.attr else s
  let s := if c.1 = s.dirEnt h line then s else s.dirKeep h c.1
  let e := c.1
  if m.opc = .upgrade ∧ m.poison then
    -- a refused Upgrade (R96, R316)
    ((s.dirCommit h (e.remove r)).answer m .dataOnce 0 refusalLine false, true)
  else if m.opc = .wbDirty ∧ ¬ ((e.st = .ex ∨ e.st = .ow) ∧ e.owner = r) then
    ((s.raise (HOME_STS.fSTALE h)).answer m .wbAckStale 0 0 false, true)
  else if m.opc = .evClean then
    let e' := if e.st = .ow ∧ e.owner = r then e else e.remove r
    ((s.dirCommit h e').answer m .evAck 0 0 false, true)
  else
    let (m', snps, after) := plan e m r (s.noSnpCur e.owner)
    let l := { Lock.new line (.req m') .snoop q with snoops := snps, after := after }
    let s := s.setLock h l
    if snps.isEmpty then s.snoopsDone h l m'
    else (snps.foldl (fun s p => s.snoop h m' line p.1 p.2) s, false)

/-- The request will need a directory entry (R98). -/
def Opc.needsEntry : Opc → Bool
  | .rdShared | .rdUnique | .upgrade => true
  | _ => false

/-- The victim way for a new entry (R112): an unreadable entry first, then at random within the first non-empty
class; none while every way is locked or already being back-invalidated. -/
def State.dirVictim (s : State) (h set : Nat) : Option (Nat × DirEnt) :=
  let ways := (List.range 16).filterMap (fun w => (s.dirAt h set w).bind (fun e =>
    if s.locked h e.line || e.bi then none else some (w, e)))
  match ways.find? (fun p => p.2.ecc == .bad) with
  | some p => some p
  | none =>
    let c1 := if s.on (HOME_CTL.BI_KEEP_TQE h) then
      ways.filter (fun p => p.2.st == .sh && !hasBit p.2.sharers 12) else []
    let c2 := ways.filter (fun p => p.2.st == .sh)
    let cs := if c1.isEmpty then (if c2.isEmpty then ways else c2) else c1
    cs[(s.lfsr16 h * cs.length) / 65536]?

/-- Record that an unreadable entry was met (R113). -/
def State.dirErr (s : State) (h line : Nat) : State :=
  (s.raise (HOME_STS.fDECC h)).report { rec0 .corr 1 h 3 with addr := some (line * 64) }

/-- A request takes the line's lock, with the queue behind it. An unreadable entry of the line is recovered first
(R113); a request that needs an entry in a full set waits for a back-invalidation (R112). True: finished at once. -/
def State.lockRun (s : State) (h : Nat) (m : Msg) (q : List Msg) : State × Bool :=
  let line := m.line.toNat
  let set := dirSet line
  let e := s.dirEnt h line
  match e.ecc with
  | .bad =>
    let s := s.dirErr h line
    let snps := s.liveAgents.map (fun a => (a, Opc.snpInv))
    if snps.isEmpty then
      (match s.dirFind h line with | some w => s.dirPut h set w none | none => s).lockGo h m q
    else
      let s := s.setLock h { Lock.new line (.recover m) .snoop q with snoops := snps }
      (snps.foldl (fun s p => s.snoop h m line p.1 p.2) s, false)
  | _ =>
    let s := if e.ecc = .corr then
        (match s.dirFind h line with
          | some w => (s.dirPut h set w (some { e with ecc := .ok })).raise (HOME_STS.fDCOR h)
          | none => s)
      else s
    if m.opc.needsEntry ∧ (m.opc ≠ .upgrade ∨ m.poison = false) ∧ (s.dirFind h line).isNone ∧
        ((List.range 16).all (fun w => (s.dirAt h set w).isSome)) then
      let s := s.setLock h (Lock.new line (.req m) .way q)
      match s.dirVictim h set with
      | none => (s, false)
      | some (w, v) =>
        let bad := v.ecc = .bad
        let s := if bad then s.dirErr h v.line else s
        let snps := (if bad then s.liveAgents else v.holders).map (fun a => (a, Opc.snpInv))
        if snps.isEmpty then (s.dirPut h set w none).lockGo h m q
        else
          let s := (s.dirPut h set w (some { v with bi := true })).count (bankHome h) 3 0 (some m.attr)
          let s := s.setLock h { Lock.new v.line (.backInv m) .snoop [] with snoops := snps }
          (snps.foldl (fun s p => s.snoop h m v.line p.1 p.2) s, false)
    else
      -- the way is reserved for the line while its transaction runs
      let s := if m.opc.needsEntry ∧ (s.dirFind h line).isNone then
          (match (List.range 16).find? (fun w => (s.dirAt h set w).isNone) with
            | some w => s.dirPut h set w (some (noEntry line))
            | none => s)
        else s
      s.lockGo h m q

/-- Hand the lock to the queued transactions in order of admission, until one does not finish at once (R96). -/
def State.pump (h line : Nat) : List Msg → State → State
  | [], s => s.dropLock h line
  | m :: q, s =>
    match s.lockRun h m q with
    | (s, true) => State.pump h line q (s.returnCredit m)
    | (s, false) => s

/-- A transaction has finished: its credit goes back, and its line's lock passes on (R96, R165). -/
def State.release (s : State) (h line : Nat) (m : Option Msg) : State :=
  let q := match s.lock? h line with | some l => l.queue | none => []
  let s := match m with | some m => s.returnCredit m | none => s
  let s := match s.dirFind h line with
    | some w => if ((s.dirEnt h line).st = .inv ∧ (s.dirEnt h line).ecc = .ok) then s.dirPut h (dirSet line) w none else s
    | none => s
  State.pump h line q s

/-- A request that waited for a directory way tries again (R112). -/
def State.wakeWays (s : State) (h : Nat) : State :=
  ((s.home h).locks.filter (fun l => l.phase = .way)).foldl (fun s l =>
    match l.txn with
    | .req m =>
      let held := (s.home h).locks.any (fun k => match k.txn with | .backInv x => x == m | _ => false)
      if held then s else
      (match s.lock? h l.line with
        | some k => if k.phase = .way then
            (match s.lockRun h m k.queue with
              | (s, true) => s.release h l.line (some m)
              | (s, false) => s) else s
        | none => s)
    | _ => s) s

/-- End a step of the transaction on a line: release the lock if it has finished. -/
def State.finish (p : State × Bool) (h line : Nat) (m : Option Msg) : State :=
  if p.2 then (p.1.release h line m).wakeWays h else p.1

/-- A back-invalidation or recovery is complete: the entry is freed, its way goes to the line of the request that it was made
for (R112), and that request runs. -/
def State.backDone (s : State) (h : Nat) (l : Lock) : State :=
  let give (s : State) (m : Msg) : State := match s.dirFind h l.line with
    | some w => s.dirPut h (dirSet l.line) w (some (noEntry m.line.toNat))
    | none => s
  match l.txn with
  | .recover m => State.finish ((give s m).lockGo h m l.queue) h l.line (some m)
  | .backInv m =>
    let s := (give s m).release h l.line none
    (match s.lock? h m.line.toNat with
      | some k => State.finish (s.lockRun h m k.queue) h m.line.toNat (some m)
      | none => s)
  | _ => s

/-- All snoops of a lock are answered. -/
def State.lockSnooped (s : State) (h : Nat) (l : Lock) : State :=
  match l.txn with
  | .req m => State.finish (s.snoopsDone h l m) h l.line (some m)
  | .backInv m | .recover m =>
    let s := if l.lost then s.markPoison l.line m.attr else s
    (match (if l.lost then none else l.wb) with
      | some (d, p) =>
        let s := s.setLock h { l with phase := .wr }
        let (s, r) := s.hmcWrite h l.line fullBe d p m.attr (s.on HMC_CTL.ALLOC_WB) (.home (Fin.ofNat 32 h))
        if r = .done then s.backDone h l else s
      | none => s.backDone h l)
  | _ => s

/-- The write that a lock's transaction waits for has been accepted by its channel or its HMC way (R96, R135). -/
def State.writeAccepted (s : State) (h line : Nat) : State :=
  match s.lock? h line with
  | none => s
  | some l =>
    if l.phase = .wr then
      match l.txn with
      | .req m =>
        if l.wb.isSome then State.finish (s.serve h { l with wb := none } m) h line (some m)
        else State.finish (s.afterWrite h l m) h line (some m)
      | .backInv _ | .recover _ => s.backDone h l
      | .victim | .sweep => (s.release h line none).wakeWays h
    else if l.phase = .fill then
      match l.txn, l.wb with
      | .req m, some (d, p) =>
        if m.opc = .rdOnce then State.finish (s.answer m .dataOnce 0 d p, true) h line (some m)
        else State.finish (s.grant h l m d 0 p true) h line (some m)
      | _, _ => s
    else s

/-- Memory data has come back for the line's transaction (R128, R136). -/
def State.readReturned (s : State) (h line : Nat) (d : LineData) (psn : Bool) (sts : Nat) : State :=
  match s.lock? h line with
  | none => s
  | some l =>
    match l.txn with
    | .req m => if l.phase = .mem then State.finish (s.memGot h l m d psn sts true) h line (some m) else s
    | _ => s

/-- The victim of a fill has been accepted: the fill is written into the way if its data are there, the victim's lock is
released, and the write or read that waited for the fill goes on (R135 to R137). -/
def State.victimAccepted (s : State) (h victim : Nat) : State :=
  match (s.home h).fills.find? (fun f => f.victim == some victim) with
  | none => (s.release h victim none).wakeWays h
  | some f =>
    match (s.setFill h f.line (some { f with victim := none })).fillEnd h f.line with
    | (s, .done) => ((s.release h victim none).writeAccepted h f.line).wakeWays h
    | (s, .waits) => (s.release h victim none).wakeWays h

/-! ### Snoop answers -/

/-- The entry after an owner's answer to a read (R98): it shared, kept ownership, or had nothing to give. -/
def ownerAnswer (l : Lock) (m : Msg) (a : Nat) (opc : Opc) : DirEnt :=
  let r := m.slot
  let e := l.after
  match m.opc, opc with
  | .rdShared, .rspOFwd => if e.st = .ow then e else { e with st := .ow, owner := a, sharers := setBit (clrBit e.sharers a) r }
  | .rdShared, .rspI | .rdShared, .rspIWb | .rdShared, .rspIFwd =>
    let e' := e.remove a
    if e'.st = .sh ∧ clrBit e'.sharers r = 0 ∧ r ≠ 12 then { e' with st := .ex, owner := r, sharers := 0 } else e'
  | .rdShared, .rspSWb => if e.st = .ow then { e with st := .sh, owner := 0, sharers := setBit e.sharers a } else e
  | .rdShared, .rspS => if e.st = .ow then { e with st := .sh, owner := 0, sharers := setBit e.sharers a } else e
  -- an owner asked by SnpShared in the place of SnpCur becomes a sharer, or the owner of a shared line (R117, assumption 52)
  | .rdOnce, .rspSFwd | .rdOnce, .rspSWb | .rdOnce, .rspS =>
    { e with st := .sh, owner := 0, sharers := setBit e.sharers a }
  | .rdOnce, .rspOFwd => { e with st := .ow }
  | .rdOnce, .rspI | .rdOnce, .rspIWb => e.remove a
  | .maintCln, .rspI | .maintCln, .rspIWb => e.remove a
  | _, _ => e

/-- A snoop answer reaches the home. One for a snoop that has been abandoned, or is not outstanding, is late: it and its data
are discarded and LATE is set (R107); the answers of one agent come in order (R163), so the first one after a timeout is the
abandoned snoop's. An absorber's answer loses an owner's data (R179), and an answer from an evict-pending buffer removes
its agent (R103). -/
def State.snoopAnswer (s : State) (m : Msg) : State :=
  let line := m.line.toNat
  let h := homeOf line
  let a := m.slot
  let s := s.setPool m.dst.val m.src.val 0 5 (min 4 (s.pool m.dst.val m.src.val 0 5 + 1))
  let s := s.retryStalled
  let x := s.home h
  if x.late.contains (a, line) then (s.setHome h { x with late := x.late.erase (a, line) }).raise (HOME_STS.fLATE h)
  else
  match s.lock? h line with
  | none => s.raise (HOME_STS.fLATE h)
  | some l =>
    if l.snoops.any (fun p => p.1 == a) then
      let absorbed := m.sts = 2 ∨ m.sts = 3
      let opc : Opc := if absorbed then .rspI else m.opc
      let e := s.dirEnt h line
      let wasOwner := (e.st = .ex ∨ e.st = .ow) ∧ e.owner = a
      let l := { l with snoops := l.snoops.filter (fun p => p.1 != a) }
      let l := match l.txn with
        | .req rq => { l with
            after := if absorbed ∨ m.pt = true then (ownerAnswer l rq a opc).remove a else ownerAnswer l rq a opc }
        | _ => l
      let l := { l with
        lost := l.lost || (absorbed && wasOwner)
        sent := l.sent || (opc = .rspIFwd || opc = .rspSFwd || opc = .rspOFwd || opc = .rspCurFwd)
        wb := if opc = .rspIWb ∨ opc = .rspSWb ∨ opc = .rspClnWb then some (m.data, m.poison) else l.wb }
      let s := s.setLock h l
      if l.snoops.isEmpty then s.lockSnooped h l else s
    else s.raise (HOME_STS.fLATE h)

/-- The transaction owes the home a CompAck (R96). -/
def Msg.owesAck (m : Msg) : Bool := m.opc == .rdShared || m.opc == .rdUnique || m.opc == .upgrade

/-- CompAck reaches the home: the transaction ends. One that comes before the home has served its transaction (an owner's
data outran the owner's answer, or the requester's stop answered in the home's place) is kept until then. One that matches
no transaction is counted in MESH_STS.LATE (R96, R169). -/
def State.compAck (s : State) (m : Msg) : State :=
  let line := m.line.toNat
  let h := homeOf line
  match s.lock? h line with
  | none => s.raise MESH_STS.fLATE
  | some l =>
    let now : Option Msg := match l.txn with
      | .req rq => if l.phase = .comp ∧ rq.src = m.src ∧ rq.txn = m.txn then some rq else none
      | _ => none
    match now with
    | some rq => State.finish (s.acked h l rq m, true) h line (some rq)
    | none =>
      let mine (rq : Msg) : Bool := rq.owesAck && rq.src == m.src && rq.txn == m.txn
      let cur := match l.txn with
        | .req rq | .recover rq => mine rq
        | _ => false
      if cur || l.queue.any mine then
        let x := s.home h
        s.setHome h { x with acks := x.acks ++ [m] }
      else s.raise MESH_STS.fLATE

/-! ### Timeouts and dead agents -/

/-- The CompAcks that a dead agent owes for grants it has received already are taken as its absorber would send them (R179,
R109); grants still on their way meet the absorber. -/
def State.ackDead (s : State) (st : Nat) : State :=
  (List.range 32).foldl (fun s h => (s.home h).locks.foldl (fun s l =>
    match l.txn with
    | .req rq =>
      let coming := (s.msgs ++ s.up).any (fun m => m.dst == rq.src && m.line == rq.line && m.txn == rq.txn)
      if l.phase = .comp ∧ rq.src.val = st ∧ coming = false then
        s.compAck { rq with opc := .compAck, dst := toStop (homeStop h), sts := 2 }
      else s
    | _ => s) s) s

/-- An agent is declared dead (R108): its slot, its link, its stop, the fatal record, and the sweep of every slice
(R109). -/
def State.agentDead (s : State) (a : Nat) : State :=
  let s := s.wr (HUB_AGENT_STATE.SLOT a) 2
  let s := if a < 12 then
      ((s.wr (STR_STATE.STATE a) (if s.rd (STR_STATE.STATE a) = 4 then 4 else 0)).wr HUB_POP.TCD_PRESENT
        (s.rd HUB_POP.TCD_PRESENT &&& (4095 - 2 ^ a)))
    else s
  let s := s.wr (MESH_STOP.STATE (stopOfSlot a)) 3
  let s := if a < 12 then s.wr (STR_STATE.HOLD a) 0 else s
  let s := s.report { rec0 .fatal 0x13 a 0xC0 with sts := DEAD }
  let s := s.ackDead (stopOfSlot a)
  -- the answers that the agent still owed come from its absorber only where their snoop is on its way (R108)
  let coming (line : Nat) : Bool := s.msgs.any (fun m => m.opc.isSnoop && m.dst.val == stopOfSlot a && m.line.toNat == line)
  (List.range 32).foldl (fun s h =>
    let x := s.home h
    (s.setHome h { x with
      sweep := some 0, late := x.late.filter (fun p => p.1 != a || coming p.2), gone := x.gone.filter (fun p => p.1 != a) }).wr
      (HOME_CTL.SWEEP_BUSY h) 1) s

/-- Count a timeout of an agent: with three within 1 s it is dead at the third; with one or two it is SUSPECT. -/
def State.countTimeout (s : State) (a : Nat) : State :=
  let t := s.now.toNat
  let ts := ((Tbl.getD s.agentTmo a []).filter (fun x => decide (t < x + 1000000000))) ++ [t]
  let s := { s with agentTmo := Tbl.put s.agentTmo a [] ts }
  if 3 ≤ ts.length then s.agentDead a else if s.agentState a = 0 then s.wr (HUB_AGENT_STATE.SLOT a) 1 else s

/-- A snoop of a line to an agent, or its answer, is lost in the mesh: no late answer is to come. -/
def State.snoopGone (s : State) (line a : Nat) : State :=
  let h := homeOf line
  let x := s.home h
  if x.late.contains (a, line) then s.setHome h { x with late := x.late.erase (a, line) }
  else if (s.lock? h line).any (fun l => l.snoops.any (fun p => p.1 == a)) then s.setHome h { x with gone := (a, line) :: x.gone }
  else s

/-- Snoops of a line are abandoned: their answers will be late (R107). -/
def State.abandon (s : State) (h line : Nat) (out : List Nat) : State :=
  out.foldl (fun s a =>
    let x := s.home h
    if x.gone.contains (a, line) then s.setHome h { x with gone := x.gone.erase (a, line) }
    else s.setHome h { x with late := x.late ++ [(a, line)] }) s

/-- A snoop times out (R106): the transaction completes with poison, the silent agent and every agent still
unanswered are removed, and later answers are late. -/
def State.snoopTimeout (s : State) (h line a : Nat) : State :=
  match s.lock? h line with
  | none => s
  | some l =>
    match l.snoops.find? (fun p => p.1 == a) with
    | none => s
    | some p =>
      let out := l.snoops.map (fun p => p.1)
      let s := (s.abandon h line out).raise (HOME_STS.fTO h)
      let s := ((s.wr (HOME_TO_LOG.AGENT h) a).wr (HOME_TO_LOG.OPC h) p.2.code).wr (HOME_TO_LOG.LINE h) line
      let s := s.report { rec0 .error 1 h 0 with addr := some (line * 64), sts := TIMEOUT, detail := [a] }
      let s := s.countTimeout a
      let mk (m : Msg) (s : State) : State := s.markPoison line m.attr
      match l.txn with
      | .req m =>
        let after := out.foldl (fun e x => e.remove x) l.after
        let after := if m.opc = .rdUnique ∨ m.opc = .upgrade then l.after else after
        let l := { l with snoops := [], psn := true, wb := none, lost := false, after := after }
        let s := s.setLock h l
        let s := if m.opc = .wrFull ∨ m.opc = .wrPart then s else mk m s
        State.finish (s.serve h l m) h line (some m)
      | .backInv m | .recover m =>
        let l := { l with snoops := [], wb := none }
        ((mk m s).setLock h l).backDone h l
      | _ => s

end Sys2Proof.Machine
end

