-- ==== Sys2Proof/Machine/Die.lean ====
section
/-!
DEFINITION. The L3 of a compute die as an agent: the lines it holds with the copies of its cores (R82 to R84, R120 to
R123), its evict-pending buffer (R102, R103), its outstanding requests (R94), its answers to snoops (R99, R117), and
the installation of granted lines (R97).
-/
namespace Sys2Proof.Machine

/-! ### Holdings -/

/-- The key of a line in a die's tables. -/
def dieKey (t line : Nat) : Nat := t * 2 ^ 46 + line

def State.l3At (s : State) (t line : Nat) : Option L3Line := Tbl.get? s.l3 (dieKey t line)

def State.l3Put (s : State) (t line : Nat) (x : L3Line) : State := { s with l3 := Tbl.set s.l3 (dieKey t line) x }

def State.l3Drop (s : State) (t line : Nat) : State := { s with l3 := Tbl.erase s.l3 (dieKey t line) }

def State.evAt (s : State) (t line : Nat) : Option EvEnt := Tbl.get? s.evp (dieKey t line)

def State.evDrop (s : State) (t line : Nat) : State := { s with evp := Tbl.erase s.evp (dieKey t line) }

def State.outs (s : State) (t : Nat) : List OutReq := Tbl.getD s.outReq t []

def State.setOuts (s : State) (t : Nat) (l : List OutReq) : State := { s with outReq := Tbl.put s.outReq t [] l }

/-! ### The arrays of the die caches (R119, R120) -/

/-- The bank of an L3 that keeps a line (R120). -/
def l3Bank (line : Nat) : Nat := (line ^^^ line / 2 ^ 4 ^^^ line / 2 ^ 8 ^^^ line / 2 ^ 12) % 16

/-- The set of a line within its bank (R120). -/
def l3Set (line : Nat) : Nat := line % 2048

/-- The number of a die's array: array a of a core (0 L1D, 1 L1I, 2 L2) by the core's number within the die, as R550 numbers
them. -/
def coreArr (c a : Nat) : Nat := 128 * (c / 24) + 4 * (c % 24) + a

/-- The number of an L3 bank's array. -/
def bankArr (t b : Nat) : Nat := 128 * t + 96 + b

/-- The set that a line takes in an array: 64 sets in an L1, 1,024 in an L2, 2,048 in an L3 bank (R119). -/
def arrSet (k line : Nat) : Nat :=
  if 96 ≤ k % 128 then l3Set line else if k % 4 = 2 then line % 1024 else line % 64

def State.arr (s : State) (k : Nat) : Arr := Tbl.getD s.arrs k Arr.init

def State.setArr (s : State) (k : Nat) (x : Arr) : State := { s with arrs := Tbl.put s.arrs k Arr.init x }

/-- What a way of an array holds. -/
def Arr.at_ (x : Arr) (set w : Nat) : Option Nat := Tbl.get? x.ways (16 * set + w)

/-- The way that holds a line. -/
def Arr.find (x : Arr) (set line : Nat) : Option Nat := (List.range 16).find? (fun w => x.at_ set w == some line)

/-- The way that a tree of fifteen bits points to: a node's bit 1 sends the walk to its upper half (assumption 75). -/
def plruVictim (b : Nat) : Nat :=
  ((List.range 4).foldl (fun n _ => 2 * n + 1 + (b.testBit n).toNat) 0) - 15

/-- The tree after a use of a way: every node on the path points away from it. -/
def plruTouch (b w : Nat) : Nat :=
  ((List.range 4).foldl (fun (p : Nat × Nat) i =>
    let up := w.testBit (3 - i)
    let b' := if up then (if p.1.testBit p.2 then p.1 - 2 ^ p.2 else p.1)
      else if p.1.testBit p.2 then p.1 else p.1 + 2 ^ p.2
    (b', 2 * p.2 + 1 + up.toNat)) (b, 0)).1

/-- A use of a way. -/
def Arr.touch (x : Arr) (set w : Nat) : Arr :=
  { x with lru := Tbl.put x.lru set 0 (plruTouch (Tbl.getD x.lru set 0) w) }

/-- A way takes a line. -/
def Arr.put (x : Arr) (set w line : Nat) : Arr := ({ x with ways := Tbl.set x.ways (16 * set + w) line }).touch set w

/-- A way becomes invalid. -/
def Arr.drop (x : Arr) (set w : Nat) : Arr := { x with ways := Tbl.erase x.ways (16 * set + w) }

/-- The way for a new line: the lowest invalid way, or else the one that tree pseudo-LRU names, or the next one above it that
may be evicted (assumption 75). A way is valid while its line is `live`. -/
def Arr.pick (x : Arr) (set : Nat) (live may : Nat → Bool) : Option Nat :=
  match (List.range 16).find? (fun w => !(x.at_ set w).any live) with
  | some w => some w
  | none =>
    let v := plruVictim (Tbl.getD x.lru set 0)
    ((List.range 16).map (fun i => (v + i) % 16)).find? (fun w => (x.at_ set w).all may)

/-- The copy of a core in its private caches is valid: its presence bit is set (R84, R122). -/
def State.coreHas (s : State) (c line : Nat) : Bool :=
  (s.l3At (c / 24) line).any (fun x => hasBit x.pres (c % 24))

/-- A core's array (0 L1D, 1 L1I, 2 L2) holds a line, valid. -/
def State.arrHas (s : State) (c a line : Nat) : Bool :=
  s.coreHas c line && ((s.arr (coreArr c a)).find (arrSet (coreArr c a) line) line).isSome

/-- A line goes into an array, or is used there: the array's new content, and the line that it takes the way of. -/
def State.arrUse (s : State) (k line : Nat) (live may : Nat → Bool) : State × Option Nat :=
  let x := s.arr k
  let set := arrSet k line
  match x.find set line with
  | some w => (s.setArr k (x.touch set w), none)
  | none =>
    match x.pick set live may with
    | some w => (s.setArr k (x.put set w line), (x.at_ set w).filter live)
    | none => (s, none)

/-- A way that holds a line becomes invalid. -/
def State.arrDrop (s : State) (k line : Nat) : State :=
  match (s.arr k).find (arrSet k line) line with
  | some w => s.setArr k ((s.arr k).drop (arrSet k line) w)
  | none => s

/-- Clear a core's presence and exclusive copy (R122). -/
def L3Line.dropCore (x : L3Line) (local_ : Nat) : L3Line :=
  { x with pres := clrBit x.pres local_, excl := if x.excl = some local_ then none else x.excl }

/-- An L2 evicts a line: the L3 clears the core's presence bit and keeps its copy; the L1s, which the L2 includes, lose the line
too (R119, R122). -/
def State.l2Evict (s : State) (c line : Nat) : State :=
  match s.l3At (c / 24) line with
  | some x => (((s.l3Put (c / 24) line (x.dropCore (c % 24))).arrDrop (coreArr c 2) line).arrDrop (coreArr c 1) line).arrDrop
      (coreArr c 0) line
  | none => s

/-- A core's access uses a line of its L3, whose new state is x with the core's presence bit: the line goes into the core's
L2, which evicts a line for it when its set is full, and, unless a walk or a prefetch into the L2 brings it, into L1D, whose
victim stays in the L2 (R122, R123, R146, R302). An array that did not hold the line counts a miss (R482). -/
def State.coreUse (s : State) (c line : Nat) (x : L3Line) (l1 : Bool) : State :=
  let t := c / 24
  let s := if l1 && !s.arrHas c 0 line then s.ccEvent c 0x01 else s
  let s := if s.arrHas c 2 line then s else s.ccEvent c 0x03
  let s := (s.l3Put t line x).setArr (bankArr t (l3Bank line)) (match (s.arr (bankArr t (l3Bank line))).find (l3Set line) line with
    | some w => (s.arr (bankArr t (l3Bank line))).touch (l3Set line) w
    | none => s.arr (bankArr t (l3Bank line)))
  let p := s.arrUse (coreArr c 2) line (s.coreHas c) (fun _ => true)
  let s := match p.2 with
    | some v => p.1.l2Evict c v
    | none => p.1
  if l1 then (s.arrUse (coreArr c 0) line (s.coreHas c) (fun _ => true)).1 else s

/-- The die has a request to a home outstanding for the line (R94). -/
def State.outLine (s : State) (t line : Nat) : Bool :=
  (s.outs t).any (fun o => !o.msg.isDevice && o.msg.line.toNat == line)


/-- A message from a stop with nothing but its opcode, destination, line and attributes. -/
def mkMsg (opc : Opc) (src dst unit line : Nat) (a : Attr) : Msg :=
  { opc := opc, dst := toStop dst, dunit := BitVec.ofNat 2 unit, src := toStop src, req := toStop src, txn := 0,
    line := BitVec.ofNat 46 line, attr := a, sts := 0, poison := false, pt := false, size := 0, low := 0, be := 0,
    data := 0, rid := 0 }

/-- A request of a unit to the home of a line. -/
def homeReq (opc : Opc) (src line : Nat) (a : Attr) : Msg := mkMsg opc src (homeStop (homeOf line)) 0 line a

/-- A die sends a request for an access of one of its cores, and remembers it. -/
def State.dieSend (s : State) (t core op : Nat) (m : Msg) : State :=
  (s.setOuts t (s.outs t ++ [⟨m, core, op⟩])).agentSend m

/-- The die's request that an answer belongs to: the oldest of the same kind, line and place. -/
def State.takeOut (s : State) (t : Nat) (rq : Msg) : Option OutReq × State :=
  let l := s.outs t
  match l.find? (fun o => o.msg.opc = rq.opc ∧ o.msg.line = rq.line ∧ o.msg.low = rq.low ∧ o.msg.size = rq.size ∧
      o.msg.attr.world = rq.attr.world ∧ o.msg.attr.enc = rq.attr.enc) with
  | some o => (some o, s.setOuts t (l.erase o))
  | none => (none, s)

/-- A core's access meets a line whose recorded WORLD or ENC differs from its own (R318). -/
def L3Line.foreign (x : L3Line) (a : Attr) : Bool := x.attr.world != a.world || x.attr.enc != a.enc

/-! ### Obtaining a line for an access -/

/-- What an access finds: the line ready in the die, refused in the die, or requested and awaited. -/
inductive L3Res where
  | ready (x : L3Line)
  | refused
  | waits
deriving DecidableEq, Repr

/-- An access of a core needs a line, with ownership for a write (R83, R94). A refusal in the die is that of the read-type
request that the die would have sent (R316, R318). -/
def State.l3Need (s : State) (t core op line : Nat) (a : Attr) (excl : Bool) : State × L3Res :=
  if (s.evAt t line).isSome then (s, .waits)
  else
    match s.l3At t line with
    | some x =>
      if x.foreign a then
        let s := s.refusal false a.world a.enc.toNat line (tcdStop t) a.mtag.toNat
        (if core < 288 then s.ccEvent core 0x0A else s, .refused)
      else if excl = false ∨ x.st = .m ∨ x.st = .e then (s, .ready x)
      else if s.outLine t line then (s, .waits)
      else (s.dieSend t core op (homeReq .upgrade (tcdStop t) line a), .waits)
    | none =>
      if s.outLine t line then (s, .waits)
      else
        let s := if core < 288 then s.ccEvent core 4 else s
        (s.dieSend t core op (homeReq (if excl then .rdUnique else .rdShared) (tcdStop t) line a), .waits)

/-- A core reads a line of its L3: its presence bit is set, and another core's exclusive copy becomes shared. -/
def L3Line.readBy (x : L3Line) (local_ : Nat) : L3Line :=
  { x with pres := setBit x.pres local_, excl := if x.excl = some local_ then x.excl else none }

/-- A core writes a line that its TCD owns: every other core's copy goes, and E becomes M without a message (R83). -/
def L3Line.writeBy (x : L3Line) (local_ : Nat) (d : LineData) : L3Line :=
  { x with st := .m, data := d, pres := setBit 0 local_, excl := some local_ }

/-! ### Evictions -/

/-- The L3 evicts a line: the L2 copies go, and WbDirty or EvClean is sent with the line's recorded attributes; the
line waits in the evict-pending buffer (R102, R121, R318). Write-backs and eviction notices carry MTAG 0 (R492). -/
def State.l3Evict (s : State) (t line : Nat) : State :=
  match s.l3At t line with
  | none => s
  | some x =>
    if s.outLine t line ∨ (s.evAt t line).isSome then s
    else
      let dirty := x.st = .m ∨ x.st = .o
      let m : Msg := if dirty then
          { homeReq .wbDirty (tcdStop t) line { x.attr with mtag := 0 } with data := x.data, poison := x.poison }
        else homeReq .evClean (tcdStop t) line { x.attr with mtag := 0 }
      let s := s.l3Drop t line
      ({ s with evp := Tbl.set s.evp (dieKey t line) ⟨dirty, x.data, x.poison, m⟩ }).agentSend m

/-! ### Snoops (R99, R103, R117) -/

/-- The answer of an agent to the home of a snoop. -/
def State.snpAnswer (s : State) (m : Msg) (o : Opc) : State := s.agentSend (m.reply o)

/-- A snoop answer that carries dirty data to the home. -/
def State.snpDirty (s : State) (m : Msg) (o : Opc) (d : LineData) (psn : Bool) : State :=
  s.agentSend { m.reply o with data := d, poison := psn }

/-- Data forwarded to the requester of a snoop. -/
def State.forward (s : State) (m : Msg) (o : Opc) (d : LineData) (psn : Bool) : State :=
  s.agentSend { m with opc := o, dst := m.req, src := m.dst, dunit := 0, data := d, poison := psn,
                       sts := if psn then 1 else 0 }

/-- An answer from the evict-pending buffer is marked, so that the home removes the agent from the entry whatever the answer is
(R103, assumption 45). -/
def State.evictAnswer (s : State) (m : Msg) (o : Opc) (d : LineData) (psn : Bool) : State :=
  s.agentSend { m.reply o with pt := true, data := d, poison := psn }

/-- A die answers a snoop from its evict-pending buffer (R103). -/
def State.snoopEvict (s : State) (m : Msg) (e : EvEnt) : State :=
  if e.dirty then
    match m.opc with
    | .snpUnique => (s.forward m .dataM e.data e.poison).evictAnswer m .rspIFwd 0 false
    | .snpCur => (s.forward m .dataOnce e.data e.poison).evictAnswer m .rspCurFwd 0 false
    | _ => s.evictAnswer m .rspIWb e.data e.poison
  else
    match m.opc with
    | .snpCur | .snpCln => s.evictAnswer m .rspClean 0 false
    | _ => s.evictAnswer m .rspI 0 false

/-- A die that holds the line answers a snoop by its state (R99); a die without OWNED never enters O (R117, R203). -/
def State.snoopHeld (s : State) (t line : Nat) (m : Msg) (x : L3Line) : State :=
  let keep (st : Moesi) : State := s.l3Put t line { x with st := st, excl := none }
  match m.opc, x.st with
  | .snpShared, .m =>
    if s.noOwned t then (keep .s).snpDirty m .rspSWb x.data x.poison
    else ((keep .o).forward m .dataS x.data x.poison).snpAnswer m .rspOFwd
  | .snpShared, .o => ((keep .o).forward m .dataS x.data x.poison).snpAnswer m .rspOFwd
  | .snpShared, .e => ((keep .s).forward m .dataS x.data x.poison).snpAnswer m .rspSFwd
  | .snpShared, .s => s.snpAnswer m .rspS
  | .snpUnique, .m | .snpUnique, .o => ((s.l3Drop t line).forward m .dataM x.data x.poison).snpAnswer m .rspIFwd
  | .snpUnique, .e => ((s.l3Drop t line).forward m .dataE x.data x.poison).snpAnswer m .rspIFwd
  | .snpUnique, .s => (s.l3Drop t line).snpAnswer m .rspI
  | .snpInv, .m | .snpInv, .o => (s.l3Drop t line).snpDirty m .rspIWb x.data x.poison
  | .snpInv, _ => (s.l3Drop t line).snpAnswer m .rspI
  | .snpCur, .s => s.snpAnswer m .rspClean
  | .snpCur, _ => (s.forward m .dataOnce x.data x.poison).snpAnswer m .rspCurFwd
  | .snpCln, .m => (keep .e).snpDirty m .rspClnWb x.data x.poison
  | .snpCln, .o => (keep .s).snpDirty m .rspClnWb x.data x.poison
  | .snpCln, _ => s.snpAnswer m .rspClean
  | _, _ => s

/-- A snoop reaches a die's L3. -/
def State.snoopDie (s : State) (t : Nat) (m : Msg) : State :=
  let line := m.line.toNat
  match s.evAt t line with
  | some e => s.snoopEvict m e
  | none =>
    match s.l3At t line with
    | some x => s.snoopHeld t line m x
    | none =>
      match m.opc with
      | .snpCur | .snpCln => s.snpAnswer m .rspClean
      | _ => s.snpAnswer m .rspI

/-! ### Grants -/

/-- The CompAck of a grant, to the line's home (R97, R169). -/
def State.sendCompAck (s : State) (m : Msg) (sts : Nat) : State :=
  s.agentSend { m with opc := .compAck, dst := toStop (homeStop (homeOf m.line.toNat)), src := m.dst, dunit := 0,
                       sts := BitVec.ofNat 3 sts, poison := false, be := 0, data := 0 }

/-- The L3 makes room for a line: in a full set it evicts the line that tree pseudo-LRU names, but none with a request
outstanding (R94, R121); a line in the evict-pending buffer has left its way. Where no way may be taken, the line waits in
the die's fill buffer and takes none (assumption 75). -/
def State.l3Room (s : State) (t line : Nat) : State :=
  let p := s.arrUse (bankArr t (l3Bank line)) line (fun l => (s.l3At t l).isSome) (fun l => !s.outLine t l)
  match p.2 with
  | some v => p.1.l3Evict t v
  | none => p.1

/-- The L3 installs a granted line with the attributes of the request that brought it; the core it is for gets it into its
L2, and with `l1` into L1D, at once (R120, R123, R318). -/
def State.l3Install (s : State) (t : Nat) (m : Msg) (a : Attr) (core : Option Nat) (l1 : Bool) (st : Moesi) :
    State :=
  let line := m.line.toNat
  let x : L3Line := { st := st, data := m.data, poison := m.poison || m.sts = 1, pres := 0, excl := none, attr := a }
  let s := s.l3Room t line
  match core with
  | some c => s.coreUse c line { x with pres := setBit 0 (c % 24) } l1
  | none => s.l3Put t line x

/-- GrantE: S becomes E, O becomes M (R91). -/
def State.l3Grant (s : State) (t : Nat) (m : Msg) : State :=
  let line := m.line.toNat
  match s.l3At t line with
  | none => s
  | some x =>
    s.l3Put t line { x with st := if x.st = .o ∨ x.st = .m then .m else .e, poison := x.poison || m.sts = 1 }

end Sys2Proof.Machine
end

