-- ==== Sys2Proof/Machine/Translate.lean ====
section
/-!
DEFINITION. Address translation: the attributes of a core's accesses (R31, R310), stage 1 (R278 to R282), jump ranges
(R283 to R286), TLBs and walk caches (R288 to R290), walks (R302 to R304), and faults with their syndrome (R305).
-/
namespace Sys2Proof.Machine

/-! ### Cores -/

/-- A bank with nothing pending. -/
def Bank.init : Bank := ⟨0, 0, 0⟩

/-- A core before it is brought online (R571); it starts at W. -/
def CoreSt.init : CoreSt :=
  { g := [], pc := 0, lvl := .w, online := false, halted := false, haltPend := false, stepping := false, idle := 2,
    idleAt := 0, cyc := 0, qos := 1, front := [], ph := 0, win := [], tlb := [], itlb := [], dtlb := [], wc := [], jr := [], jrGot := none, walks := [],
    res := none, invs := [], outInv := 0, bankN := Bank.init, bankS := Bank.init, bankV := Bank.init, brk := [],
    retLvl := .s, retPc := 0, exc := none }

def State.core (s : State) (c : Nat) : CoreSt := Tbl.getD s.cores c CoreSt.init

def State.setCore (s : State) (c : Nat) (x : CoreSt) : State := { s with cores := Tbl.put s.cores c CoreSt.init x }

/-- Update one core. -/
def State.modCore (s : State) (c : Nat) (f : CoreSt → CoreSt) : State := s.setCore c (f (s.core c))

/-- The die of a core (R5). -/
def dieOf (c : Nat) : Nat := c / 24

/-- WVEC, system register 0x6008: where W is entered (R311). -/
def WVEC (c : Nat) : Fld := ⟨(0x100006008 + c * 0x10000) * 64, 64, 0⟩

/-- The attributes of a core's access with an enclave (R31, R310). -/
def State.coreAttr (s : State) (c enc : Nat) : Attr :=
  { world := s.on (WCTL.WORLD c)
    enc := BitVec.ofNat 10 enc
    mtag := BitVec.ofNat 16 (if s.on (VM_CTL.MTAG_SEL c) then s.rd (VM_CTL.MTAG c) else s.rd (VM_CTL.VMID c))
    pcls := BitVec.ofNat 4 (s.rd (VM_CTL.PCLS c))
    qos := (s.core c).qos }

/-- The memory type in a slot of MATTR (R51). -/
def State.mattr (s : State) (c i : Nat) : Nat :=
  match i with
  | 0 => s.rd (MATTR.SLOT0 c)
  | 1 => s.rd (MATTR.SLOT1 c)
  | 2 => s.rd (MATTR.SLOT2 c)
  | 3 => s.rd (MATTR.SLOT3 c)
  | 4 => s.rd (MATTR.SLOT4 c)
  | 5 => s.rd (MATTR.SLOT5 c)
  | 6 => s.rd (MATTR.SLOT6 c)
  | _ => s.rd (MATTR.SLOT7 c)

/-! ### Ranges -/

/-- The loaded range that a guest-physical address matches (R286). -/
def CoreSt.range (x : CoreSt) (gpa : Nat) : Option JRange :=
  x.jr.find? (fun r => decide (r.gbase ≤ gpa) && decide (gpa < r.gbase + r.len))

/-- The kinds of access of a translation (R308): 0 load, 1 store or ZERO, 2 fetch, 3 atomic; what PERM must hold. -/
def permMask (acc : Nat) : Nat := match acc with | 0 => 1 | 1 => 2 | 2 => 4 | _ => 3

/-- A translated access: its physical address, type (R52) and enclave. -/
structure Tr where
  pa : Nat
  ty : Nat
  enc : Nat
deriving DecidableEq, Repr

/-- The outcome of a translation. -/
inductive TrRes where
  | ok (t : Tr)
  | miss
  | fault (f : TrFault)
deriving DecidableEq, Repr

/-- A fault on the final access. -/
def finalFault (cause acc level : Nat) (jr : Option Nat) (faddr : Nat) : TrFault :=
  ⟨cause, acc, level, false, jr, 0, faddr⟩

/-- Stage 2 of the final access (R286, R312). -/
def State.stage2 (s : State) (c acc gpa ty1 : Nat) : TrRes :=
  if s.on (VM_CTL.S2EN c) then
    let x := s.core c
    match x.range gpa with
    | none => .fault (finalFault 0x10 acc 0 none gpa)
    | some r =>
      if permMask acc &&& r.perm ≠ permMask acc ∨ (acc = 2 ∧ x.enclave ≠ 0 ∧ r.enc = 0) then
        .fault (finalFault 0x11 acc 0 (some r.k) gpa)
      else .ok ⟨r.hbase + (gpa - r.gbase), min ty1 r.mt, r.enc⟩
  else .ok ⟨gpa, ty1, 0⟩

/-! ### TLB entries -/

/-- The page of an entry covers a virtual address. -/
def TlbEnt.covers (e : TlbEnt) (va : Nat) : Bool := va / 2 ^ e.size == e.va / 2 ^ e.size

/-- The entry is tagged for the core's VMID and ASID (R289). -/
def State.tlbTag (s : State) (c : Nat) (e : TlbEnt) : Bool :=
  e.vmid == s.rd (VM_CTL.VMID c) && (e.glob || e.asid == s.rd (TT_CTL.ASID c))

/-- The entries of the L1 TLB that an access uses: the ITLB for a fetch, else the DTLB (R288). -/
def CoreSt.l1tlb (x : CoreSt) (acc : Nat) : List TlbEnt := if acc = 2 then x.itlb else x.dtlb

/-- The TLB entry that a core's access to an address uses: of its L1 TLB, else of the L2 TLB. -/
def State.tlbFind (s : State) (c va acc : Nat) : Option TlbEnt :=
  let x := s.core c
  match (x.l1tlb acc).find? (fun e => s.tlbTag c e && e.covers va) with
  | some e => some e
  | none => x.tlb.find? (fun e => s.tlbTag c e && e.covers va)

/-- Two entries stand for the same page of the same address space. -/
def TlbEnt.same (e f : TlbEnt) : Bool :=
  e.vmid == f.vmid && e.glob == f.glob && (e.glob || e.asid == f.asid) && e.size == f.size && e.va == f.va

/-- The set of the L2 TLB that a page takes (assumption 79). -/
def TlbEnt.set (e : TlbEnt) : Nat := e.va / 2 ^ e.size % 256

/-- An entry enters an L1 TLB of n entries, and the oldest one leaves a full one (R288, assumption 79). -/
def tlbPush (n : Nat) (e : TlbEnt) (l : List TlbEnt) : List TlbEnt :=
  ({ e with locked := false } :: l.filter (fun f => !e.same f)).take n

/-- An entry enters the L2 TLB: of the twelve ways of a full set the oldest one that is not locked leaves (R288, R291). -/
def tlbPush2 (e : TlbEnt) (l : List TlbEnt) : List TlbEnt :=
  let l := l.filter (fun f => !e.same f)
  let mine := l.filter (fun f => f.set == e.set)
  if mine.length < 12 then e :: l
  else
    match (mine.filter (fun f => !f.locked)).getLast? with
    | some v => e :: l.erase v
    | none => l

/-- An entry enters the L1 TLB of an access. -/
def CoreSt.fillL1 (x : CoreSt) (acc : Nat) (e : TlbEnt) : CoreSt :=
  if acc = 2 then { x with itlb := tlbPush 48 e x.itlb } else { x with dtlb := tlbPush 64 e x.dtlb }

/-- An access has used a TLB entry: one of the L2 TLB enters the L1 TLB too. -/
def State.tlbUse (s : State) (c va acc : Nat) : State :=
  if ((s.core c).l1tlb acc).any (fun e => s.tlbTag c e && e.covers va) then s
  else
    match s.tlbFind c va acc with
    | some e => s.modCore c (fun x => x.fillL1 acc e)
    | none => s

/-- What R281 says of a leaf, for an access at a level; the cause of the fault. The permission bits are those of the
leaf: bit 0 D, 1 A, 3 XNS, 4 XNU, 5 W, 6 U. -/
def leafCheck (perm acc : Nat) (l : Lvl) : Option Nat :=
  let b (i : Nat) : Bool := perm.testBit i
  if !b 1 then some 0x03
  else if acc = 2 then
    match l with
    | .u => if b 6 && !b 4 then none else some 0x04
    | .s => if !b 6 && !b 3 then none else some 0x04
    | _ => none
  else if l = .u ∧ b 6 = false then some 0x04
  else if acc = 0 then none
  else if !b 5 then some 0x04
  else if !b 0 then some 0x05
  else none

/-- The permission bits of a stage-1 leaf, packed for `leafCheck`: entry bits 11 D, 10 A, 8 XNS, 7 XNU, 6 W, 5 U. -/
def leafPerm (e : Nat) : Nat :=
  e / 2048 % 2 + 2 * (e / 1024 % 2) + 8 * (e / 256 % 2) + 16 * (e / 128 % 2) + 32 * (e / 64 % 2) + 64 * (e / 32 % 2)

/-- Bits [63:47] of an address are all equal (R278). -/
def canonical (va : Nat) : Bool := va / 2 ^ 47 == 0 || va / 2 ^ 47 == 2 ^ 17 - 1

/-- Translate an access of a core: without stage 1 by R282; otherwise from the TLB, where a failing check is a miss
that walks again (R290). -/
def State.translate (s : State) (c va acc : Nat) : TrRes :=
  if !s.on (TT_CTL.EN c) then
    s.stage2 c acc va (if (regionOf va).isMem then 3 else 0)
  else if !canonical va then .fault (finalFault 0x06 acc 0 none ((Config.freeValue s.freeCtr).toNat % 2 ^ 52))
  else
    match s.tlbFind c va acc with
    | none => .miss
    | some e =>
      if leafCheck e.perm acc (s.core c).lvl ≠ none then .miss
      else
        let ty1 := s.mattr c e.mti
        match e.mt with
        | some mt =>
          if permMask acc &&& e.rperm ≠ permMask acc ∨ (acc = 2 ∧ (s.core c).enclave ≠ 0 ∧ e.enc = 0) then .miss
          else .ok ⟨e.pa + va % 2 ^ e.size, min ty1 mt, e.enc⟩
        | none => .ok ⟨e.pa + va % 2 ^ e.size, ty1, 0⟩

/-- The core is loading its jump ranges and makes no access that needs one (R298). -/
def State.rangesBusy (s : State) (c : Nat) : Bool := s.on (VM_CTL.S2EN c) && (s.core c).jrGot.isSome

/-- Discard the entry that a failing check came from, in every TLB that holds it (R290); a locked one is locked no more
(R308). -/
def State.tlbDiscard (s : State) (c va acc : Nat) : State :=
  match s.tlbFind c va acc with
  | some e =>
    let n := ((s.core c).tlb.filter (fun f => f.locked && e.same f)).length
    (s.modCore c (fun x => { x with
      tlb := x.tlb.filter (fun f => !e.same f), itlb := x.itlb.filter (fun f => !e.same f)
      dtlb := x.dtlb.filter (fun f => !e.same f) })).wr (TR_STS.LOCKS c) (s.rd (TR_STS.LOCKS c) - n)
  | none => s

/-! ### Faults -/

/-- The level a translation fault is reported to (R305). -/
def State.faultLvl (s : State) (c : Nat) (f : TrFault) : Lvl :=
  match (s.core c).lvl with
  | .h => .h
  | .w => .w
  | l => if s.on (VM_CTL.S2EN c) then (if f.cause < 0x10 then .s else .h)
      else (match l with | .u => .s | l => l)

/-- A core raises an exception: it is recorded with the address of its instruction, and the younger instructions that
have not executed are gone. Where the spec names the level it is reported to, the core is at that level (assumption
10). -/
def State.except (s : State) (c : Nat) (cause : Cause) (lvl : Option Lvl) (pc : Nat) : State :=
  s.modCore c (fun x => { x with
    exc := some ⟨cause, lvl, pc⟩, lvl := lvl.getD x.lvl, front := [], ph := 0, res := none })

/-- Take a translation fault: the syndrome registers of the level it is reported to (R305, R308). -/
def State.trFault (s : State) (c va pc : Nat) (f : TrFault) : State :=
  let l := s.faultLvl c f
  let fill (s : State) (sts jr jrv walk level acc cause va' addr : Fld) : State :=
    (((((((((s.wr sts f.sts).wr jr (f.jr.getD 0)).wr jrv (if f.jr.isSome then 1 else 0)).wr walk f.walk.toNat).wr
      level f.level).wr acc f.acc).wr cause f.cause).wr va' va).wr addr f.faddr)
  let s := match l with
    | .w => fill s (TR_FSYN_W.STS c) (TR_FSYN_W.JR c) (TR_FSYN_W.JRV c) (TR_FSYN_W.WALK c) (TR_FSYN_W.LEVEL c)
        (TR_FSYN_W.ACC c) (TR_FSYN_W.CAUSE c) (TR_FVA_W.VA c) (TR_FADDR_W.ADDR c)
    | .h => fill s (TR_FSYN_H.STS c) (TR_FSYN_H.JR c) (TR_FSYN_H.JRV c) (TR_FSYN_H.WALK c) (TR_FSYN_H.LEVEL c)
        (TR_FSYN_H.ACC c) (TR_FSYN_H.CAUSE c) (TR_FVA_H.VA c) (TR_FADDR_H.ADDR c)
    | _ => fill s (TR_FSYN_S.STS c) (TR_FSYN_S.JR c) (TR_FSYN_S.JRV c) (TR_FSYN_S.WALK c) (TR_FSYN_S.LEVEL c)
        (TR_FSYN_S.ACC c) (TR_FSYN_S.CAUSE c) (TR_FVA_S.VA c) (TR_FADDR_S.ADDR c)
  s.except c (.translation f.cause) (some l) pc

/-- The record of a core's consumption of poison (R503). -/
def State.poisonUsed (s : State) (c pa : Nat) (a : Attr) : State :=
  s.report { rec0 .error 0x10 c 0xC5 with
    addr := some pa, world := a.world, enc := a.enc.toNat, mtag := a.mtag.toNat, src := tcdStop (dieOf c),
    detail := [0] }

/-! ### Walks -/

/-- The index of a virtual address at a level (R278). -/
def walkIndex (va level : Nat) : Nat := va / 2 ^ (39 - 9 * level) % 512

/-- A stage-1 entry with V = 1 that R280 calls malformed. -/
def malformed (e level : Nat) : Bool :=
  let leaf := e.testBit 1
  (e / 2 ^ 52 % 128 != 0) ||
  (if leaf then
    level == 0 || (level == 2 && e / 4096 % 512 != 0) || (level == 1 && e / 4096 % 262144 != 0)
   else level == 3 || e / 4 % 1024 != 0)

/-- Where the walk reads next: the entry's address before and after range translation with its enclave and type, or the fault
that stops the walk before the read (R287, R302, R303). A table that the walk cache gave is read where the walk cache has it
(R288, R300). -/
def State.walkWhere (s : State) (c : Nat) (w : Walk) : Sum (Nat × Nat × Nat × Bool) TrFault :=
  let gpa := w.tab + 8 * walkIndex w.va w.level
  let flt (cause : Nat) (jr : Option Nat) : TrFault := ⟨cause, w.acc, w.level, true, jr, 0, gpa⟩
  match w.host with
  | some (h, enc, wb) => .inl (gpa, h + 8 * walkIndex w.va w.level, enc, wb)
  | none =>
  if s.on (VM_CTL.S2EN c) then
    match (s.core c).range gpa with
    | none => .inr (flt 0x10 none)
    | some r =>
      if r.perm % 2 = 0 then .inr (flt 0x11 (some r.k))
      else
        let hpa := r.hbase + (gpa - r.gbase)
        if r.mt < 2 ∨ (regionOf hpa).isMem = false then .inr (flt 0x12 (some r.k))
        else .inl (gpa, hpa, r.enc, r.mt == 3)
  else if (regionOf gpa).isMem = false then .inr (flt 0x12 none)
  else .inl (gpa, gpa, 0, true)

/-- The TLB entry of a finished walk (R289), or the fault of its final access. -/
def State.walkLeaf (s : State) (c : Nat) (w : Walk) (e gpaE : Nat) : Sum TlbEnt TrFault :=
  let bits := 39 - 9 * w.level
  let oa := e / 4096 % 2 ^ 40 * 4096
  let gpa := oa + w.va % 2 ^ bits
  let ent (size pa : Nat) (mt : Option Nat) (enc : Nat) (rng : Option Nat) (rperm : Nat) : TlbEnt :=
    ⟨s.rd (VM_CTL.VMID c), s.rd (TT_CTL.ASID c), e.testBit 9, size, w.va / 2 ^ size * 2 ^ size, pa, leafPerm e,
      e / 4 % 8, mt, enc, rng, rperm, false⟩
  match leafCheck (leafPerm e) w.acc w.lvl with
  | some cause => .inr (finalFault cause w.acc w.level none gpaE)
  | none =>
    if s.on (VM_CTL.S2EN c) then
      match s.stage2 c w.acc gpa 3 with
      | .ok _ =>
        (match (s.core c).range gpa with
        | some r =>
          let fits := r.gbase ≤ oa ∧ oa + 2 ^ bits ≤ r.gbase + r.len
          let size := if fits then bits else 21
          let ga := gpa / 2 ^ size * 2 ^ size
          .inl (ent size (r.hbase + (ga - r.gbase)) (some r.mt) r.enc (some r.k) r.perm)
        | none => .inr (finalFault 0x10 w.acc 0 none gpa))
      | .fault f => .inr f
      | .miss => .inr (finalFault 0x10 w.acc 0 none gpa)
    else .inl (ent bits oa none 0 none 7)

/-- What a walk needs of its data: a line's value, or the fault of a read that failed (R304). -/
def walkData (w : Walk) (gpa hpa : Nat) (g : LineData × Bool × Nat) : Sum Nat TrFault :=
  if g.2.1 = true ∨ g.2.2 ≠ 0 then
    .inr ⟨0x13, w.acc, w.level, true, none,
      (match g.2.2 with | 2 => DEAD | 3 => DOMAIN_OFF | 4 => TIMEOUT | _ => POISONED), gpa⟩
  else .inl (lineField g.1 (hpa % 64) 8)

/-- A walk's result is wanted by the waiting access: a fault is kept for it, unless the walk was speculative (R302). -/
def State.walkFault (s : State) (c : Nat) (w : Walk) (f : TrFault) : State :=
  if w.spec ∨ w.dropped then s else s.modCore c (fun x => { x with res := some (w.va, f) })

/-- A walk that has not faulted installs what it found: the leaf in the L2 TLB and the L1 TLB of its access, and the tables
it read in the walk cache, whose oldest entries leave (R288, R290, assumption 79). -/
def CoreSt.walkInstall (x : CoreSt) (w : Walk) (t : TlbEnt) : CoreSt :=
  { ({ x with tlb := tlbPush2 t x.tlb }).fillL1 w.acc t with wc := (w.wcs ++ x.wc.filter (fun e => !w.wcs.contains e)).take 64 }

/-- Use one entry that a walk has read, of the table that stands at `host` after range translation: the next level's walk, or
none when it has ended. -/
def State.walkEntry (s : State) (c : Nat) (w : Walk) (gpa host enc : Nat) (wb : Bool) (e : Nat) : State × Option Walk :=
  let flt (cause : Nat) : TrFault := ⟨cause, w.acc, w.level, true, none, 0, gpa⟩
  let w := if w.level = 0 ∨ w.host.isSome then w
    else { w with wcs := ⟨s.rd (VM_CTL.VMID c), s.rd (TT_CTL.ASID c), w.level, w.va / 2 ^ (39 - 9 * (w.level - 1)), w.tab, host, enc,
      wb⟩ :: w.wcs }
  if !e.testBit 0 then (s.walkFault c w (flt 0x01), none)
  else if malformed e w.level then (s.walkFault c w (flt 0x02), none)
  else if e.testBit 1 then
    match s.walkLeaf c w e gpa with
    | .inr f => (s.walkFault c w f, none)
    | .inl t => (if w.dropped then s else s.modCore c (fun x => x.walkInstall w t), none)
  else (s, some { w with level := w.level + 1, tab := e / 4096 % 2 ^ 40 * 4096, sent := false, got := none, host := none })

/-- The number under which a walk's requests are remembered; no access has it. -/
def walkOp : Nat := 0

/-- Go on with a walk as far as the lines it needs are there (R302). None: it has ended. -/
def State.walkGo (c : Nat) : Nat → Walk → State → State × Option Walk
  | 0, w, s => (s, some w)
  | n + 1, w, s =>
    if s.rangesBusy c then (s, some w)
    else
    match s.walkWhere c w with
    | .inr f => (s.walkFault c w f, none)
    | .inl (gpa, hpa, enc, wb) =>
      let a := s.coreAttr c enc
      let use (s : State) (g : LineData × Bool × Nat) : State × Option Walk :=
        match walkData w gpa hpa g with
        | .inr f =>
          let s := if g.2.1 ∧ w.spec = false then s.poisonUsed c hpa a else s
          (s.walkFault c w f, none)
        | .inl e =>
          match s.walkEntry c w gpa (hpa - 8 * walkIndex w.va w.level) enc wb e with
          | (s, none) => (s, none)
          | (s, some w') => State.walkGo c n w' s
      match w.got with
      | some g => use s g
      | none =>
        if w.sent then
          (match (if wb then s.l3At (dieOf c) (hpa / 64) else none) with
          | some x => if x.foreign a then (s, some w) else use s (x.data, x.poison, 0)
          | none => (s, some w))
        else if wb then
          match s.l3Need (dieOf c) c walkOp (hpa / 64) a false with
          | (s, .ready x) => use (s.coreUse c (hpa / 64) (x.readBy (c % 24)) false) (x.data, x.poison, 0)
          | (s, .refused) => use s (refusalLine, false, 0)
          | (s, .waits) => (s, some { w with sent := s.outLine (dieOf c) (hpa / 64) })
        else
          (s.dieSend (dieOf c) c walkOp (homeReq .rdOnce (tcdStop (dieOf c)) (hpa / 64) a), some { w with sent := true })

/-- Go on with every walk of a core. -/
def State.walksGo (s : State) (c : Nat) : State :=
  let ws := (s.core c).walks
  let s := s.modCore c (fun x => { x with walks := [] })
  ws.foldl (fun s w =>
    match s.walkGo c 8 w with
    | (s, some w') => s.modCore c (fun x => { x with walks := x.walks ++ [w'] })
    | (s, none) => s) s

/-- Start a walk for an address, from the deepest walk-cache entry that covers it (R289). -/
def State.walkStart (s : State) (c va acc : Nat) (spec : Bool) : State :=
  let root := if va.testBit 47 then s.rd (TT_ROOT1.BASE c) else s.rd (TT_ROOT0.BASE c)
  let hit := (s.core c).wc.filter (fun e => e.vmid == s.rd (VM_CTL.VMID c) && e.asid == s.rd (TT_CTL.ASID c) &&
    e.va == va / 2 ^ (39 - 9 * (e.level - 1)))
  let best := hit.foldl (fun (b : Nat × Nat × Option (Nat × Nat × Bool)) e =>
    if b.1 < e.level then (e.level, e.tab, some (e.host, e.enc, e.wb)) else b) (0, root * 4096, none)
  (s.modCore c (fun x => { x with
    walks := x.walks ++ [⟨va, acc, x.lvl, spec, best.1, best.2.1, false, none, false, [], best.2.2⟩] })).walksGo c

/-! ### Loading jump ranges (R283 to R285, R312, R324) -/

/-- The address of VM_DESC. -/
def State.descAddr (s : State) (c : Nat) : Nat := s.rd (VM_DESC.ADDR c) * 1024

/-- The enclave is BUILDING or RUNNING, bound to the VMID, and belongs to the world (R324). -/
def State.encBound (s : State) (e vmid : Nat) (world : Bool) : Bool :=
  match Tbl.get? s.encs e with
  | some x => x.st != .free && x.vmid == vmid && x.world == world
  | none => false

/-- Read n bytes at an offset of the descriptor's lines. -/
def descField (ls : List (LineData × Bool × Nat)) (off n : Nat) : Nat :=
  match ls[off / 64]? with
  | some l => lineField l.1 (off % 64) n
  | none => 0

/-- Two spans of guest-physical addresses overlap. -/
def JRange.overlaps (r q : JRange) : Bool :=
  decide (r.gbase < q.gbase + q.len) && decide (q.gbase < r.gbase + r.len)

/-- Entry k of a descriptor, and whether its reserved bits, size and ends are right (R284, R285). -/
def descRange (ls : List (LineData × Bool × Nat)) (k : Nat) : JRange × Bool :=
  let o := 64 + 32 * k
  let w0 := descField ls o 8
  let w1 := descField ls (o + 8) 8
  let w2 := descField ls (o + 16) 8
  let w3 := descField ls (o + 24) 8
  let size := w3 % 2 ^ 31
  let g := w1 % 2 ^ 52
  let h := w2 % 2 ^ 52
  (⟨k, w0 / 2 % 8, w0 / 16 % 4, w0 / 65536 % 1024, g, h, size * 2097152⟩,
    decide (w0 / 64 % 1024 = 0 ∧ w0 / 2 ^ 26 = 0 ∧ w1 % 2097152 = 0 ∧ w1 / 2 ^ 52 = 0 ∧ w2 % 2097152 = 0 ∧
      w2 / 2 ^ 52 = 0 ∧ w3 / 2 ^ 31 = 0 ∧ size ≠ 0 ∧ g + size * 2097152 ≤ 2 ^ 52 ∧ h + size * 2097152 ≤ 2 ^ 52))

/-- Check and load the entries of a descriptor whose lines have been read. -/
def State.jrLoad (s : State) (c : Nat) (ls : List (LineData × Bool × Nat)) : State :=
  let vmid := s.rd (VM_CTL.VMID c)
  let done (s : State) (err loaded bad : Nat) (rs : List JRange) : State :=
    (((s.wr (JR_STS.LOADERR c) err).wr (JR_STS.LOADED c) loaded).wr (JR_STS.BAD c) bad).modCore c
      (fun x => { x with jr := rs, jrGot := none })
  if ls.any (fun l => l.2.1 || l.2.2 != 0) ∨ (regionOf (s.descAddr c)).isMem = false ∨
      descField ls 2 1 ≠ 1 ∨ descField ls 0 2 ≠ vmid then done s 1 0 0 []
  else
    let world := s.on (WCTL.WORLD c)
    let step (acc : List JRange × Nat × Nat) (k : Nat) : List JRange × Nat × Nat :=
      if descField ls (64 + 32 * k) 1 % 2 = 1 then
        let (r, ok) := descRange ls k
        if ok ∧ acc.1.all (fun q => !r.overlaps q) ∧ (r.enc = 0 ∨ s.encBound r.enc vmid world = true) then
          (acc.1 ++ [r], acc.2.1 + 2 ^ k, acc.2.2)
        else (acc.1, acc.2.1, acc.2.2 + 2 ^ k)
      else acc
    let (rs, loaded, bad) := (List.range 16).foldl step ([], 0, 0)
    -- only the lowest non-zero ENC is kept (R312)
    let encs := (rs.filter (fun r => r.enc != 0)).map (fun r => r.enc)
    let low := encs.foldl min 1024
    let keep := rs.filter (fun r => r.enc == 0 || r.enc == low)
    let gone := (rs.filter (fun r => r.enc != 0 && r.enc != low)).foldl (fun v r => v + 2 ^ r.k) 0
    done s 0 (loaded - gone) (bad + gone) keep

/-- The number under which a range load's requests are remembered. -/
def jrOp : Nat := 1

/-- Go on with a range load: the ten lines of the descriptor are read as NORM-WB with ENC 0 (R285). -/
def State.jrGo (c : Nat) : Nat → State → State
  | 0, s => s
  | n + 1, s =>
    match (s.core c).jrGot with
    | none => s
    | some ls =>
      if 9 ≤ ls.length ∨ (regionOf (s.descAddr c)).isMem = false then s.jrLoad c ls
      else
        let line := s.descAddr c / 64 + ls.length
        match s.l3Need (dieOf c) c jrOp line (s.coreAttr c 0) false with
        | (s, .ready x) =>
          State.jrGo c n ((s.coreUse c line (x.readBy (c % 24)) true).modCore c
            (fun y => { y with jrGot := some (ls ++ [(x.data, x.poison, 0)]) }))
        | (s, .refused) =>
          State.jrGo c n (s.modCore c (fun y => { y with jrGot := some (ls ++ [(refusalLine, false, 0)]) }))
        | (s, .waits) => s

/-- Start loading the ranges (R285): the old ones are gone at once. -/
def State.jrStart (s : State) (c : Nat) : State :=
  State.jrGo c 12 (s.modCore c (fun x => { x with jr := [], jrGot := some [] }))

/-! ### Removing entries (R292, R298) -/

/-- The invalidation removes a TLB entry. -/
def Inval.hits (i : Inval) (e : TlbEnt) : Bool :=
  match i.fn with
  | 0x20 => e.vmid == i.vmid && (e.glob || e.asid == i.asid) && e.covers i.va
  | 0x21 => e.vmid == i.vmid && e.covers i.va
  | 0x22 => e.vmid == i.vmid && !e.glob && e.asid == i.asid
  | 0x23 | 0x38 => e.vmid == i.vmid
  | 0x24 => true
  | _ => false

/-- The invalidation removes a walk-cache entry. -/
def Inval.hitsWc (i : Inval) (e : WcEnt) : Bool :=
  let covers := i.va / 2 ^ (39 - 9 * (e.level - 1)) == e.va
  match i.fn with
  | 0x20 => i.t && e.vmid == i.vmid && e.asid == i.asid && covers
  | 0x21 => i.t && e.vmid == i.vmid && covers
  | 0x22 => e.vmid == i.vmid && e.asid == i.asid
  | 0x23 | 0x38 => e.vmid == i.vmid
  | 0x24 => true
  | _ => false

/-- The result of a walk in progress may match: it is for the core's VMID, and, where the invalidation names them, its ASID
and an address in the same 1 GiB as the walk's, the largest page (R278, R297). -/
def Inval.hitsWalk (i : Inval) (vmid asid : Nat) (w : Walk) : Bool :=
  i.fn == 0x24 ||
  (i.vmid == vmid && (i.fn != 0x22 || i.asid == asid) &&
    ((i.fn != 0x20 && i.fn != 0x21) || i.va / 2 ^ 30 == w.va / 2 ^ 30))

/-- Walks in progress are for translations that the core has left: their results are discarded (R302, R308). -/
def State.dropWalks (s : State) (c : Nat) : State :=
  s.modCore c (fun x => { x with walks := x.walks.map (fun w => { w with dropped := true }) })

/-- Remove the matching entries of a core; each locked one sets LOCK_LOST (R291). -/
def State.invalidate (s : State) (c : Nat) (i : Inval) : State :=
  let x := s.core c
  let lost := (x.tlb.filter (fun e => e.locked && i.hits e)).length
  let s := s.modCore c (fun x => { x with
    tlb := x.tlb.filter (fun e => !i.hits e), itlb := x.itlb.filter (fun e => !i.hits e)
    dtlb := x.dtlb.filter (fun e => !i.hits e), wc := x.wc.filter (fun e => !i.hitsWc e),
    walks := x.walks.map (fun w => { w with
      dropped := w.dropped || i.hitsWalk (s.rd (VM_CTL.VMID c)) (s.rd (TT_CTL.ASID c)) w }) })
  if 0 < lost then
    (List.range lost).foldl (fun s _ => s.raise (TR_STS.fLOCK_LOST c))
      (s.wr (TR_STS.LOCKS c) (s.rd (TR_STS.LOCKS c) - lost))
  else s

end Sys2Proof.Machine
end

