-- ==== Sys2Proof/Machine/Where.lean ====
section
/-!
DEFINITION. Which unit serves an address: the stop and unit of a device access (R157), the BARs of the TQE (R342,
R343), and the windows and bus ranges of the root ports (R562).
-/
namespace Sys2Proof.Machine

def FnSt.init : FnSt := ⟨false, false, false, false, false, false, [], [], 0, none, 0, []⟩

def State.fn (s : State) (f : Nat) : FnSt := Tbl.getD s.fns f FnSt.init

def State.setFn (s : State) (f : Nat) (x : FnSt) : State := { s with fns := Tbl.put s.fns f FnSt.init x }

/-- The function exists: PF0, or an enabled VF (R339). -/
def State.fnEnabled (s : State) (f : Nat) : Bool :=
  f == 0 || (s.ep.vfEn && decide (f ≤ s.ep.numVfs))

/-- Memory Space Enable of a function, for a VF the VF MSE of the SR-IOV capability (R344); D3hot behaves as 0. -/
def State.fnMse (s : State) (f : Nat) : Bool :=
  (if f = 0 then (s.fn 0).mse else s.ep.vfMse) && !(s.fn f).d3

/-- Bus Master Enable of a function; D3hot behaves as 0 (R340). -/
def State.fnBme (s : State) (f : Nat) : Bool := (s.fn f).bme && !(s.fn f).d3

/-- Where an address falls among the TQE's BARs. -/
inductive BarHit where
  | bar0 (off : Nat)
  | bar2 (off : Nat)
  | bar4 (off : Nat)
  | vf (f off : Nat)
deriving DecidableEq, Repr

/-- The size of BAR4 (R343). -/
def State.bar4Size (s : State) : Nat :=
  if s.rd TQE_CTL.BAR4_LOG2 = 0 then 0 else 2 ^ s.rd TQE_CTL.BAR4_LOG2

/-- A range lies wholly within the PCIe 64-bit MMIO region (R342). -/
def inMmio64 (b n : Nat) : Bool := decide (0xC000000000000 ≤ b) && decide (b + n ≤ 0xF000000000000)

/-- The TQE BAR that an address falls in; a BAR placed outside the 64-bit MMIO region decodes nothing (R342). -/
def State.tqeBar (s : State) (pa : Nat) : Option BarHit :=
  let e := s.ep
  let hit (b n : Nat) : Bool := decide (0 < n) && inMmio64 b n && decide (b ≤ pa) && decide (pa < b + n)
  if hit e.bar0 0x400000 then some (.bar0 (pa - e.bar0))
  else if hit e.bar2 0x10000 then some (.bar2 (pa - e.bar2))
  else if hit e.bar4 s.bar4Size then some (.bar4 (pa - e.bar4))
  else if e.vfEn && inMmio64 e.vfBar0 (e.numVfs * 0x10000) && decide (e.vfBar0 ≤ pa) &&
      decide (pa < e.vfBar0 + e.numVfs * 0x10000) then
    some (.vf ((pa - e.vfBar0) / 0x10000 + 1) ((pa - e.vfBar0) % 0x10000))
  else none

/-- The root port whose windows hold an address of a PCI Express aperture; ports are numbered 8 x device + function. -/
def State.portOf (s : State) (pa : Nat) : Option Nat :=
  (s.ports.find? (fun e =>
    (decide (e.2.memB ≤ pa) && decide (pa < e.2.memL)) || (decide (e.2.pfB ≤ pa) && decide (pa < e.2.pfL)))).map
    (fun e => e.1)

/-- The root port whose bus range holds a bus; buses 0xF0 to 0xFF are the TQE's (R562). -/
def State.busPort (s : State) (bus : Nat) : Option Nat :=
  if 0xF0 ≤ bus ∨ bus = 0 then none
  else (s.ports.find? (fun e => decide (e.2.sec ≤ bus) && decide (bus ≤ e.2.sub))).map (fun e => e.1)

/-- The offset in the PRS of an address. -/
def prsOff (pa : Nat) : Nat := pa - 0xFFE0000000000

/-- The stop and unit of a PRS offset (R157). -/
def prsStop (off : Nat) : Nat × Nat :=
  if off < 0x200000 then (svcStop, 0)
  else if off < 0x400000 then (homeStop ((off - 0x200000) / 0x10000), 0)
  else if off < 0x600000 then (svcStop, 0)
  else if off < 0x6C0000 then (tcdStop ((off - 0x600000) / 0x10000), 0)
  else if off < 0x700000 then (svcStop, 0)
  else if off < 0x800000 then (mchStop ((off - 0x700000) / 0x10000), 1)
  else if off < 0x900000 then (xcpStop, 0)
  else if off < 0x940000 then (hbcStop ((off - 0x900000) / 0x10000) false, 0)
  else if off < 0xA00000 then (svcStop, 0)
  else if off < 0xB00000 then (pirStop, 0)
  else if off < 0xC00000 then (mbxStop, 0)
  else if off < 0xD00000 then (svcStop, 1)
  else if off < 0xE00000 then (svcStop, 2)
  else if off < 0xF00000 then (splStop, 0)
  else if off < 0x1000000 then (errStop, 0)
  else if off < 0x2000000 then (svcStop, 0)
  else if off < 0x2C00000 then (tcdStop ((off - 0x2000000) / 0x100000), 0)
  else (svcStop, 0)

/-- The block of R44 that holds a PRS offset. -/
def prsBlock (off : Nat) : Nat :=
  let b := off / 0x10000
  if (0x20 ≤ b ∧ b < 0x40) ∨ (0x60 ≤ b ∧ b < 0x6C) ∨ (0x70 ≤ b ∧ b < 0x80) ∨ (0x90 ≤ b ∧ b < 0x94) then 0x1000 + b
  else off / 0x100000

/-- The target of a device access as R72 tells targets apart: a PRS block, a PCI Express function, or the home slice of a
memory line. -/
inductive DevTarget where
  | block (n : Nat)
  | fn (rid : Nat)
  | home (h : Nat)
  | none
deriving DecidableEq, Repr

def State.devTarget (s : State) (pa : Nat) : DevTarget :=
  match regionOf pa with
  | .prs => .block (prsBlock (prsOff pa))
  | .ecam => .fn ((pa - 0xFFE0010000000) / 0x1000)
  | .mmio32 | .mmio64 =>
    (match s.tqeBar pa with
    | some (.vf f _) => .fn (0xF000 + f)
    | some _ => .fn 0xF000
    | none => .fn (Config.barOwner pa))
  | .unmapped => .none
  | _ => .home (homeOf (pa / 64))

/-- The stop and unit that serve a device access to an address (R157, R70). ECAM accesses go to the I/O stop; IOW passes
those of buses 0xF0 to 0xFF on to the TQE (R339). -/
def State.devStop (s : State) (pa : Nat) : Nat × Nat :=
  match regionOf pa with
  | .prs => prsStop (prsOff pa)
  | .ecam =>
    let bus := (pa - 0xFFE0010000000) / 0x100000
    let dev := (pa - 0xFFE0010000000) / 0x8000 % 32
    if 0xF0 ≤ bus then (iowStop, 0)
    else if bus = 0 then (if 4 ≤ dev ∧ dev < 8 then (ioeStop, 0) else (iowStop, 0))
    else (match s.busPort bus with | some p => (if 32 ≤ p then (ioeStop, 0) else (iowStop, 0)) | none => (iowStop, 0))
  | .mmio32 | .mmio64 =>
    (match s.tqeBar pa with
    | some _ => (tqeStop, 0)
    | none => match s.portOf pa with
      | some p => if 32 ≤ p then (ioeStop, 0) else (iowStop, 0)
      | none => (iowStop, 0))
  | .unmapped => (svcStop, 0)
  | _ => (homeStop (homeOf (pa / 64)), 0)

end Sys2Proof.Machine
end

