-- ==== Sys2Proof/Machine/Window.lean ====
section
/-!
DEFINITION. The accesses of a core that have been issued and have not completed: what orders them (R46 to R48, R54 to
R56, R63, R64, R71 to R73), and how each is performed (R47, R53, R62, R65 to R67, R70, R149, R503).
-/
namespace Sys2Proof.Machine

/-! ### Registers and the values they wait for -/

def CoreSt.reg (x : CoreSt) (r : Nat) : Src := Tbl.getD x.g r (.val 0)

def CoreSt.setReg (x : CoreSt) (r : Nat) (v : Src) : CoreSt := { x with g := Tbl.put x.g r (.val 0) v }

/-- The value of a register, if no access still has to bind it. -/
def CoreSt.regVal (x : CoreSt) (r : Nat) : Option Nat :=
  match x.reg r with
  | .val v => some v
  | .dep _ _ => none

/-- Replace what an access binds: a source that waits for access `id` takes its value. -/
def Src.bind (x : Src) (id : Nat) (lo hi : Src) : Src :=
  match x with
  | .val v => .val v
  | .dep i h => if i = id then (if h then hi else lo) else .dep i h

/-- An access binds its value: every register and access that waited for it takes it. -/
def CoreSt.bind (x : CoreSt) (id : Nat) (lo hi : Src) : CoreSt :=
  { x with
    g := x.g.map (fun e => (e.1, e.2.bind id lo hi))
    win := x.win.map (fun o => { o with
      val := o.val.bind id lo hi, valHi := o.valHi.bind id lo hi, exp := o.exp.bind id lo hi,
      expHi := o.expHi.bind id lo hi, old := o.old.bind id lo hi, oldHi := o.oldHi.bind id lo hi }) }

/-! ### What orders accesses -/

/-- The entry is no access: a FENCE or a branch. -/
def Acc.isFence : Acc → Bool
  | .fence _ | .branch => true
  | _ => false

def Acc.reads : Acc → Bool
  | .load | .swp | .cas | .fadd | .fand | .forA | .cas128 | .harvest _ => true
  | _ => false

def Acc.writes : Acc → Bool
  | .load | .fence _ | .branch => false
  | _ => true

def Acc.atomic : Acc → Bool
  | .swp | .cas | .fadd | .fand | .forA | .cas128 | .harvest _ => true
  | _ => false

/-- A part of a device access. -/
def Seg.dev (g : Seg) : Bool := decide (g.ty < 2)

def WinOp.dev (o : WinOp) : Bool := o.segs.any (fun g => g.dev)

/-- Two parts share a byte. -/
def Seg.meets (g k : Seg) : Bool := decide (g.pa < k.pa + k.n) && decide (k.pa < g.pa + g.n)

def WinOp.meets (y o : WinOp) : Bool := y.segs.any (fun g => o.segs.any (fun k => g.meets k))

/-- The older access's bytes hold the younger part entirely, and it is a store whose data is known: a NORM-WB load takes its
value from the store buffer (R47). -/
def WinOp.feeds (y : WinOp) (k : Seg) : Bool :=
  match y.k, y.val with
  | .store, .val _ =>
    k.ty == 3 && y.segs.any (fun g => decide (g.pa ≤ k.pa) && decide (k.pa + k.n ≤ g.pa + g.n) && g.ty == 3)
  | _, _ => false

/-- A FENCE with a mask orders an earlier access before a later one (R54 to R56). Without bit 4 it orders Normal accesses only,
but SS also orders earlier Normal stores before a later DEV-S store (R76, assumption 43). -/
def fenceOrders (m : Nat) (y o : WinOp) : Bool :=
  let b (i : Nat) : Bool := m.testBit i || m.testBit 5
  if (y.dev || o.dev) && !b 4 then
    b 3 && y.k.writes && !y.dev && o.k.writes && o.segs.any (fun g => g.ty == 0)
  else (b 0 && y.k.reads && o.k.reads) || (b 1 && y.k.reads && o.k.writes) || (b 2 && y.k.writes && o.k.reads) ||
    (b 3 && y.k.writes && o.k.writes) || (b 4 && y.dev && o.dev)

/-- The earlier access y must complete before the later access o is performed, fences aside. A device access waits for every
earlier read, since one that faulted would take it back, and it is never performed speculatively or repeated (R70,
assumption 64). -/
def State.directBlock (s : State) (y o : WinOp) : Bool :=
  (y.acq && y.k.reads) || o.rel || (o.acq && y.rel) || (o.dev && y.k.reads) ||
  (y.meets o && !(o.k = .load && o.segs.all (fun k => !y.segs.any (fun g => g.meets k) || y.feeds k))) ||
  (y.dev && o.dev &&
    (o.segs.any (fun g => g.ty == 0) || y.segs.any (fun g => g.ty == 0) ||
      (y.k.writes && y.segs.any (fun g => o.segs.any (fun k => s.devTarget g.pa == s.devTarget k.pa)))))

/-- A branch that waits for its condition keeps every later write from being performed (R46). -/
def WinOp.branches (y o : WinOp) : Bool :=
  match y.k, y.val with
  | .branch, .dep _ _ => o.k.writes
  | _, _ => false

/-- Some access of the list, in program order before o, keeps o from being performed. -/
def State.blockedBy (s : State) (o : WinOp) : List WinOp → Bool
  | [] => false
  | y :: ys =>
    y.branches o || (!y.k.isFence &&
      (s.directBlock y o ||
        ys.any (fun f => match f.k with
          | .fence m => fenceOrders m y o
          | _ => false))) || State.blockedBy s o ys

/-- The accesses in program order before a numbered one. -/
def CoreSt.before (x : CoreSt) (id : Nat) : List WinOp := x.win.takeWhile (fun o => o.id != id)

/-! ### Completion -/

def CoreSt.setOp (x : CoreSt) (o : WinOp) : CoreSt :=
  { x with win := x.win.map (fun p => if p.id = o.id then o else p) }

def CoreSt.dropOp (x : CoreSt) (id : Nat) : CoreSt := { x with win := x.win.filter (fun p => p.id != id) }

/-- The head part of an access is performed, with the value a read gave. -/
def WinOp.next (o : WinOp) (v : Nat) : WinOp :=
  match o.segs with
  | g :: gs => { o with segs := gs, sent := false, got := none, acc := o.acc + v * 2 ^ (8 * g.off) }
  | [] => o

/-- A core takes back an access and everything younger: their destination registers hold what they held (R503). -/
def CoreSt.squash (x : CoreSt) (id : Nat) : CoreSt :=
  let gone := x.win.dropWhile (fun o => o.id != id)
  let x := gone.reverse.foldl (fun (x : CoreSt) o => x.bind o.id o.old o.oldHi) x
  { x with win := x.win.takeWhile (fun o => o.id != id) }

/-- An access has consumed poison (R503): the record, the fault, and its destination unchanged. -/
def State.poisonFault (s : State) (c : Nat) (o : WinOp) (pa : Nat) (a : Attr) : State :=
  ((s.poisonUsed c pa a).modCore c (fun x => x.squash o.id)).except c .poison none o.pc

/-- Set the virtual pending bits that a harvested word names (R442). -/
def Bank.harvest (b : Bank) (word v : Nat) : Bank :=
  { b with pend := (List.range 8).foldl (fun p i =>
      if v / 2 ^ (8 * i) % 256 ≠ 0 ∧ 16 ≤ 8 * word + i then setBit p (8 * word + i) else p) b.pend }

/-- Every part of an access is performed: it binds what it read and leaves the window. -/
def State.opDone (s : State) (c : Nat) (o : WinOp) : State :=
  s.modCore c (fun x =>
    let x := match o.k with
      | .harvest w => if w < 32 then { x with bankV := x.bankV.harvest w o.acc } else x
      | _ => x
    let x := if o.k.reads then x.bind o.id (.val (o.acc % 2 ^ 64)) (.val (o.acc / 2 ^ 64)) else x
    x.dropOp o.id)

/-- Put an access back with its head part performed, or complete it. -/
def State.opNext (s : State) (c : Nat) (o : WinOp) (v : Nat) : State :=
  let o := o.next v
  if o.segs.isEmpty then s.opDone c o else s.modCore c (fun x => x.setOp o)

/-! ### Performing one part -/

/-- The value of a store's bytes for a part. -/
def segBytes (v : Nat) (g : Seg) : Nat := v / 2 ^ (8 * g.off) % 2 ^ (8 * g.n)

/-- What an atomic writes, given the old value and the access's size in bits; none where it writes nothing (R62). A CAS compares
the value read, zero-extended, with the whole of its register (assumption 43). -/
def Acc.newValue (k : Acc) (bits t v exp : Nat) : Option Nat :=
  match k with
  | .swp => some (v % 2 ^ bits)
  | .cas | .cas128 => if t = exp then some (v % 2 ^ bits) else none
  | .fadd => some ((t + v) % 2 ^ bits)
  | .fand => some (t &&& (v % 2 ^ bits))
  | .forA => some ((t ||| v) % 2 ^ bits)
  | .harvest _ => some 0
  | _ => none

/-- The record of an access to an unmapped or unpopulated address (R42). -/
def State.unmapped (s : State) (pa : Nat) (a : Attr) (src core : Nat) : State :=
  s.report { rec0 .info 0x13 0 0xC6 with
    addr := some pa, world := a.world, enc := a.enc.toNat, mtag := a.mtag.toNat, src := src, detail := [core] }

/-- The message of a core's device access or NORM-NC access: RdOnce, or WrPart with its byte enables (R70, R116). -/
def State.ioMsg (s : State) (c : Nat) (o : WinOp) (g : Seg) (a : Attr) : Msg :=
  let t := if g.dev then s.devStop g.pa else (homeStop (homeOf (g.pa / 64)), 0)
  let m := mkMsg (if o.k.reads then .rdOnce else .wrPart) (tcdStop (dieOf c)) t.1 t.2 (g.pa / 64) a
  let lg : Nat := match g.n with | 1 => 0 | 2 => 1 | 4 => 2 | _ => 3
  match o.k with
  | .gather be _ =>
    if o.rd = 0 then { m with be := be, data := o.data, size := 4 }
    else { m with be := be, data := o.data, size := BitVec.ofNat 3 (o.rd - 1),
                  low := BitVec.ofNat 6 ((List.range 64).findIdx (fun i => be.getLsbD i)) }
  | _ =>
    let d := match o.val with
      | .val v => setLineField 0 (g.pa % 64) g.n (segBytes v g)
      | .dep _ _ => 0
    { m with
      size := if g.dev then BitVec.ofNat 3 lg else 0
      low := if g.dev then BitVec.ofNat 6 (g.pa % 64) else 0
      be := if o.k.reads then 0 else beOf (g.pa % 64) g.n
      data := if o.k.reads then 0 else d }

/-- A device or NORM-NC part: sent once, completed by its answer. -/
def State.tryIo (s : State) (c : Nat) (o : WinOp) (g : Seg) (a : Attr) : State :=
  match o.got with
  | some (d, psn, _) =>
    if o.k.reads then
      if psn then s.poisonFault c o g.pa a else s.opNext c o (lineField d (g.pa % 64) g.n)
    else s.opNext c o 0
  | none =>
    let ready := match o.k, o.val with
      | .gather _ go, _ => go
      | .store, .dep _ _ => false
      | _, _ => true
    let t := dieOf c
    let line := g.pa / 64
    -- one request of the die for a line at a time, and none while its eviction is pending (R94)
    let held := !g.dev && (s.outLine t line || (s.evAt t line).isSome)
    if o.sent ∨ ready = false ∨ held = true then s
    else (s.modCore c (fun x => x.setOp { o with sent := true })).dieSend (dieOf c) c o.id (s.ioMsg c o g a)

/-- A load of NORM-WB memory: from an older store of the core that has not become visible, or from the line. -/
def State.tryLoad (s : State) (c : Nat) (o : WinOp) (g : Seg) (a : Attr) (older : List WinOp) : State :=
  let src := (older.filter (fun y => y.segs.any (fun k => k.meets g))).getLast?
  match src with
  | some y =>
    (match y.val, y.segs.find? (fun k => k.meets g) with
    | .val v, some k => s.opNext c o (segBytes v k / 2 ^ (8 * (g.pa - k.pa)) % 2 ^ (8 * g.n))
    | _, _ => s)
  | none =>
    match o.got with
    | some (d, psn, _) =>
      if psn then s.poisonFault c o g.pa a else s.opNext c o (lineField d (g.pa % 64) g.n)
    | none =>
      let line := g.pa / 64
      match s.l3Need (dieOf c) c o.id line a false with
      | (s, .ready x) =>
        if x.poison then s.poisonFault c o g.pa a
        else (s.coreUse c line (x.readBy (c % 24)) true).opNext c o (lineField x.data (g.pa % 64) g.n)
      | (s, .refused) => s.opNext c o (lineField refusalLine 0 g.n)
      | (s, .waits) => s.modCore c (fun x => x.setOp { o with sent := true })

/-- A write to a line that the die owns: a store, an atomic or ZERO, performed in the core's L1 (R47, R67, R149). -/
def State.tryWrite (s : State) (c : Nat) (o : WinOp) (g : Seg) (a : Attr) (v exp : Nat) : State :=
  let line := g.pa / 64
  match o.got with
  | some (d, psn, _) =>
    if o.k.reads then
      if psn then s.poisonFault c o g.pa a else s.opNext c o (lineField d (g.pa % 64) g.n)
    else s.opNext c o 0
  | none =>
    match s.l3Need (dieOf c) c o.id line a true with
    | (s, .refused) => s.opNext c o (if o.k.reads then lineField refusalLine 0 g.n else 0)
    | (s, .waits) => s.modCore c (fun x => x.setOp { o with sent := true })
    | (s, .ready x) =>
      match o.k with
      | .zero => (s.coreUse c line { x.writeBy (c % 24) 0 with poison := false } true).opNext c o 0
      | .store =>
        (s.coreUse c line (x.writeBy (c % 24) (setLineField x.data (g.pa % 64) g.n (segBytes v g))) true).opNext c o 0
      | k =>
        if x.poison then s.poisonFault c o g.pa a
        else
          let t := lineField x.data (g.pa % 64) g.n
          let x' := match k.newValue (8 * g.n) t v exp with
            | some n => x.writeBy (c % 24) (setLineField x.data (g.pa % 64) g.n n)
            | none => { x with pres := setBit 0 (c % 24), excl := some (c % 24) }
          (s.coreUse c line x' true).opNext c o t

/-- A cache maintenance operation by address: it waits for the die's own request for the line (R150), then goes to the
home, and completes with MaintAck (R148). -/
def State.tryMaint (s : State) (c : Nat) (o : WinOp) (g : Seg) (a : Attr) (inv pt : Bool) : State :=
  let line := g.pa / 64
  match o.got with
  | some _ => s.opNext c o 0
  | none =>
    if o.sent ∨ s.outLine (dieOf c) line ∨ (s.evAt (dieOf c) line).isSome then s
    else
      (s.modCore c (fun x => x.setOp { o with sent := true })).dieSend (dieOf c) c o.id
        { homeReq (if inv then .maintInv else .maintCln) (tcdStop (dieOf c)) line a with pt := pt }

/-- Perform the head part of an unblocked access as far as it can be. -/
def State.tryHead (s : State) (c : Nat) (o : WinOp) (older : List WinOp) : State :=
  match o.segs with
  | [] => s.opDone c o
  | g :: _ =>
    let a := { o.attr with enc := BitVec.ofNat 10 g.enc }
    if regionOf g.pa = .unmapped then
      (s.unmapped g.pa a (tcdStop (dieOf c)) c).opNext c o 0
    else if g.ty < 2 then s.tryIo c o g a
    else
      match o.k with
      | .clean pt => s.tryMaint c o g a false pt
      | .clinv pt => s.tryMaint c o g a true pt
      | .load => if g.ty = 2 then s.tryIo c o g a else s.tryLoad c o g a older
      | .store =>
        (match o.val with
        | .val v => if g.ty = 2 then s.tryIo c o g a else s.tryWrite c o g a v 0
        | .dep _ _ => s)
      | .zero => s.tryWrite c o g a 0 0
      | .gather _ _ | .fence _ | .branch => s
      | _ =>
        match o.val, o.valHi, o.exp, o.expHi with
        | .val v, .val vh, .val e, .val eh => s.tryWrite c o g a (v + 2 ^ 64 * vh) (e + 2 ^ 64 * eh)
        | _, _, _, _ => s

/-- Try one access of the window: a FENCE leaves once everything before it has completed. -/
def State.tryOp (s : State) (c id : Nat) : State :=
  let x := s.core c
  match x.win.find? (fun o => o.id == id) with
  | none => s
  | some o =>
    let older := x.before id
    match o.k with
    | .fence _ => if older.all (fun y => y.k.isFence) then s.modCore c (fun x => x.dropOp id) else s
    | .branch =>
      (match o.val with
      | .val _ => s.modCore c (fun x => x.dropOp id)
      | .dep _ _ => s)
    | _ => if s.blockedBy o older then s else s.tryHead c o older

/-- The atomics of a core that have not been performed. -/
def State.atomics (s : State) (c : Nat) : Nat := ((s.core c).win.filter (fun o => o.k.atomic)).length

/-- Try every access of a core once, oldest first; an access of two parts is tried for each. The core's turn at its L3 ends
with the first atomic that is performed (R69): the flag. -/
def State.tryTurn (s : State) (c : Nat) : State × Bool :=
  ((s.core c).win.map (fun o => o.id)).foldl (fun p id =>
    if p.2 then p
    else
      let t := (p.1.tryOp c id).tryOp c id
      (t, decide (t.atomics c < p.1.atomics c))) (s, false)

/-- A turn of a core at its L3. -/
def State.tryWin (s : State) (c : Nat) : State := (s.tryTurn c).1

/-! ### What a core waits for -/

/-- Every earlier access has completed (R57). -/
def CoreSt.quiet (x : CoreSt) : Bool := x.win.all (fun o => o.k.isFence)

/-- Every earlier store is visible (R47, R294). -/
def CoreSt.storesDone (x : CoreSt) : Bool := x.win.all (fun o => !o.k.writes)

/-- The FENCE has nothing left to wait for: bit 5 waits for everything, bit 6 for Normal stores and for every load (R57,
R58). -/
def CoreSt.fenceReady (x : CoreSt) (m : Nat) : Bool :=
  if m.testBit 5 then x.quiet
  else if m.testBit 6 then x.win.all (fun o => o.k.isFence || (o.dev && !o.k.reads))
  else true

/-- Gathered writes are issued at the next FENCE or device access elsewhere (R73). -/
def CoreSt.ungather (x : CoreSt) : CoreSt :=
  { x with win := x.win.map (fun o => match o.k with
      | .gather be _ => { o with k := .gather be true }
      | _ => o) }

end Sys2Proof.Machine
end

