-- ==== Sys2Proof/Machine/Cpu.lean ====
section
/-!
DEFINITION. How a core executes the instructions whose commands name it: in program order, each as soon as what it
waits for is there. Decoding checks (R54, R62, R66, R70, R146, R292, R311), translation of its address, and its entry
into the window; waits (R57 to R60, R294, R297, R308) stop the instructions behind it.
-/
namespace Sys2Proof.Machine

/-! ### Issuing accesses -/

/-- Cut an access of n bytes at a virtual address into the parts that lie within one line. -/
def cutLines (va n : Nat) : List (Nat × Nat × Nat) :=
  if va % 64 + n ≤ 64 then [(va, n, 0)]
  else let k := 64 - va % 64; [(va, k, 0), (va + k, n - k, k)]

/-- Translate the parts of an access: all of them, or the first address that misses or faults. -/
def State.trSegs (s : State) (c acc : Nat) : List (Nat × Nat × Nat) → Sum (List Seg) (Nat × TrRes)
  | [] => .inl []
  | (va, n, off) :: ps =>
    match s.translate c (va % 2 ^ 64) acc with
    | .ok t =>
      (match State.trSegs s c acc ps with
      | .inl gs => .inl (⟨t.pa, n, off, t.enc, t.ty⟩ :: gs)
      | .inr r => .inr r)
    | r => .inr (va % 2 ^ 64, r)

/-- An access as it enters the window, with no operand. -/
def State.newOp (s : State) (c : Nat) (k : Acc) (segs : List Seg) : WinOp :=
  { id := s.opSeq, k := k, segs := segs, attr := s.coreAttr c 0, rd := 0, val := .val 0, valHi := .val 0,
    exp := .val 0, expHi := .val 0, acq := false, rel := false, acc := 0, old := .val 0, oldHi := .val 0,
    sent := false, got := none, data := 0, pc := (s.core c).pc }

/-- Put an access into the window, after those it follows, and try the window. -/
def State.issue (s : State) (c : Nat) (o : WinOp) : State :=
  { (s.modCore c (fun x => { x with win := x.win ++ [o] })) with opSeq := s.opSeq + 1 }.tryWin c

/-- The head instruction is executed: the next one follows 4 bytes on; a single step halts the core again (R544). -/
def State.retire (s : State) (c : Nat) : State :=
  let s1 := s.ccIns c
  s1.modCore c (fun x => { x with
    front := x.front.tail, pc := (x.pc + 4) % 2 ^ 64, ph := 0, halted := x.halted || x.stepping, stepping := false })

/-- The head instruction raises an exception (R54, R62, R66, R70, R146, R292). -/
def State.raiseExc (s : State) (c : Nat) (cause : Cause) : State := s.except c cause none (s.core c).pc

/-- Whether the head instruction has been dealt with, so that the next may execute. -/
abbrev Front := State × Bool

/-- An access of the head instruction must be translated: a miss waits for a walk, whose fault is then taken; nothing is
translated while the core loads its ranges (R298). -/
def State.withTr (s : State) (c acc : Nat) (parts : List (Nat × Nat × Nat)) (k : State → List Seg → Front) : Front :=
  if s.rangesBusy c then (s, false)
  else
    match s.trSegs c acc parts with
    | .inl gs => k (parts.foldl (fun s p => s.tlbUse c (p.1 % 2 ^ 64) acc) s) gs
    | .inr (va, .fault f) => ({ s with freeCtr := s.freeCtr + 1 }.trFault c va (s.core c).pc f, false)
    | .inr (va, _) =>
      match (s.core c).res with
      | some (v, f) =>
        if v = va then ((s.tlbDiscard c va acc).trFault c va (s.core c).pc f, false) else (s.tlbDiscard c va acc, false)
      | none => (s.tlbDiscard c va acc, false)

/-- A part of a Normal type lies in a non-memory region (R43). -/
def badNormal (gs : List Seg) : Bool :=
  gs.any (fun g => decide (2 ≤ g.ty) && !(regionOf g.pa).isMem && regionOf g.pa != .unmapped)

/-- A device access is elsewhere than an open gathered write: that write is issued now (R73). -/
def State.ungather (s : State) (c : Nat) : State := s.modCore c (fun x => x.ungather)

/-- The gathered write that a DEV-R store may join: the last access of the window, not yet sent, same block (R73). -/
def CoreSt.joins (x : CoreSt) (pa : Nat) : Option WinOp :=
  match x.win.getLast? with
  | some o =>
    (match o.k, o.segs with
    | .gather _ false, g :: _ => if g.pa / 64 = pa / 64 ∧ o.sent = false then some o else none
    | _, _ => none)
  | none => none

/-- A load of n bytes into a register; an element of a vector load never reaches a device (R70). -/
def State.doLoad (s : State) (c rd va n : Nat) (acq vec : Bool) : Front :=
  s.withTr c 0 (cutLines va n) (fun s gs =>
    if badNormal gs then (s.raiseExc c .nonMemory, false)
    else if gs.any (fun g => g.dev) ∧ (vec = true ∨ va % n ≠ 0) then (s.raiseExc c .deviceForm, false)
    else
      let s := if gs.any (fun g => g.dev) then (s.ungather c).tryWin c else s
      let o := { s.newOp c .load gs with rd := rd, acq := acq, old := (s.core c).reg rd }
      let s := s.modCore c (fun x => x.setReg rd (.dep o.id false))
      ((s.retire c).issue c o, true))

/-- A store of n bytes; an element of a vector store never reaches a device (R70). -/
def State.doStore (s : State) (c : Nat) (v : Src) (va n : Nat) (rel gather vec : Bool) : Front :=
  s.withTr c 1 (cutLines va n) (fun s gs =>
    if badNormal gs then (s.raiseExc c .nonMemory, false)
    else if gs.any (fun g => g.dev) ∧ (vec = true ∨ va % n ≠ 0) then (s.raiseExc c .deviceForm, false)
    else
      match gather, gs, v with
      | true, [⟨pa, _, _, enc, 1⟩], .val w =>
        let be := beOf (pa % 64) n
        let d := setLineField 0 (pa % 64) n w
        (match (s.core c).joins pa with
        | some o =>
          let o' := match o.k with
            | .gather b go => { o with k := .gather (b ||| be) go, data := mergeBytes be o.data d, rd := 0 }
            | _ => o
          ((s.modCore c (fun x => x.setOp o')).retire c, true)
        | none =>
          let s := (s.ungather c).tryWin c
          let lg : Nat := match n with | 1 => 0 | 2 => 1 | 4 => 2 | _ => 3
          let o := { s.newOp c (.gather be false) [⟨pa / 64 * 64, 64, 0, enc, 1⟩] with data := d, rd := lg + 1 }
          ((s.retire c).issue c o, true))
      | _, _, _ =>
        let s := if gs.any (fun g => g.dev) then (s.ungather c).tryWin c else s
        ((s.retire c).issue c { s.newOp c .store gs with val := v, rel := rel }, true))

/-! ### FENCE (R54 to R58) -/

/-- FENCE: an undefined form, no effect, an order of the window's accesses, or a wait. -/
def State.doFence (s : State) (c ga gb imm : Nat) : Front :=
  if ga ≠ 0 ∨ gb ≠ 0 ∨ 128 ≤ imm then (s.raiseExc c .undefInstr, false)
  else if imm = 0 then (s.retire c, true)
  else
    let s := (s.ungather c).tryWin c
    if (s.core c).fenceReady imm then
      let s := s.retire c
      (if imm.testBit 5 then s else s.issue c (s.newOp c (.fence imm) []), true)
    else (s.modCore c (fun x => { x with ph := 1 }), false)

/-! ### Ordered loads, stores and atomics (R61 to R66) -/

/-- The form of an ordered access or atomic is one that R62 allows. -/
def ordOk (op ga gc size order mbz : Nat) : Bool :=
  decide (op < 8) && mbz == 0 &&
  (if op = 7 then size == 2 && ga % 2 == 0 && gc % 2 == 0 else decide (size < 2)) &&
  (if op = 0 then gc == 0 && (order == 0 || order == 1)
   else if op = 1 then ga == 0 && (order == 0 || order == 2) else true)

/-- The atomic that an operation code names. -/
def ordAcc (op : Nat) : Acc :=
  match op with
  | 2 => .swp
  | 3 => .cas
  | 4 => .fadd
  | 5 => .fand
  | 6 => .forA
  | _ => .cas128

def State.doOrd (s : State) (c op ga gb gc size order mbz : Nat) : Front :=
  if ordOk op ga gc size order mbz = false then (s.raiseExc c .undefInstr, false)
  else
    let x := s.core c
    match x.regVal gb with
    | none => (s, false)
    | some va =>
      let n := 4 * 2 ^ size
      let acq := order.testBit 0
      let rel := order.testBit 1
      if va % n ≠ 0 then (s.raiseExc c .align, false)
      else if op = 0 then s.doLoad c ga va n acq false
      else if op = 1 then s.doStore c (x.reg gc) va n rel false false
      else
        s.withTr c 3 [(va, n, 0)] (fun s gs =>
          if gs.any (fun g => g.ty != 3) then (s.raiseExc c .atomicType, false)
          else if badNormal gs then (s.raiseExc c .nonMemory, false)
          else
            let o := { s.newOp c (ordAcc op) gs with
              rd := ga, val := x.reg gc, exp := x.reg ga, acq := acq, rel := rel, old := x.reg ga }
            let o := if op = 7 then
                { o with valHi := x.reg (gc + 1), expHi := x.reg (ga + 1), oldHi := x.reg (ga + 1) } else o
            let s := s.modCore c (fun y => y.setReg ga (.dep o.id false))
            let s := if op = 7 then s.modCore c (fun y => y.setReg (ga + 1) (.dep o.id true)) else s
            ((s.retire c).issue c o, true))

/-! ### Cache maintenance (R146 to R149) -/

/-- A software or hardware prefetch: issued only for NORM-WB memory that the TLB translates, and dropped otherwise
(R124, R147); `inCore` takes the line into the core's L2, and `l1` into L1D too (R123, R146). -/
def State.prefetch (s : State) (c va : Nat) (own inCore l1 : Bool) : State :=
  match (if s.rangesBusy c then .miss else s.translate c va 0) with
  | .ok t =>
    let die := dieOf c
    let line := t.pa / 64
    if t.ty ≠ 3 ∨ (regionOf t.pa).isMem = false ∨ s.outLine die line ∨ (s.evAt die line).isSome ∨
        s.pool (tcdStop die) (homeStop (homeOf line)) 0 0 = 0 then s
    else
      let a := s.coreAttr c t.enc
      let core := if inCore then c else 288
      let op := if l1 then jrOp else walkOp
      match s.l3At die line with
      | none => s.dieSend die core op (homeReq (if own then .rdUnique else .rdShared) (tcdStop die) line a)
      | some x =>
        if x.foreign a then s
        else if own ∧ (x.st = .s ∨ x.st = .o) then s.dieSend die core op (homeReq .upgrade (tcdStop die) line a)
        else if inCore then s.coreUse c line (x.readBy (c % 24)) l1 else s
  | _ => s

/-- A cache maintenance instruction (R146, R147). PRF with the reserved level 3 raises an undefined-instruction exception
(assumption 54). -/
def State.doMaint (s : State) (c fn ga gb imm : Nat) : Front :=
  let ok := ga == 0 && (match fn with
    | 0x10 | 0x11 => decide (imm < 2)
    | 0x12 => imm == 0
    | 0x14 => decide (imm < 8) && imm % 4 != 3
    | _ => false)
  if ok = false then (s.raiseExc c .undefInstr, false)
  else
    match (s.core c).regVal gb with
    | none => (s, false)
    | some va =>
      if fn = 0x14 then ((s.prefetch c va (imm.testBit 2) (decide (imm % 4 < 2)) (imm % 4 == 0)).retire c, true)
      else
        s.withTr c (if fn = 0x12 then 1 else 0) [(va / 64 * 64, 64, 0)] (fun s gs =>
          if gs.any (fun g => g.dev) then (s.raiseExc c .maintType, false)
          else if badNormal gs then (s.raiseExc c .nonMemory, false)
          else
            let k : Acc := match fn with
              | 0x10 => .clean (imm.testBit 0)
              | 0x11 => .clinv (imm.testBit 0)
              | _ => .zero
            ((s.retire c).issue c (s.newOp c k gs), true))

/-! ### Translation invalidation and locking (R291 to R298) -/

/-- The form of an invalidation or locking instruction at a level is defined (R292, R293). -/
def tlbOk (fn ga gb imm : Nat) (l : Lvl) : Bool :=
  l != .u &&
  (match fn with
  | 0x02 => ga == 0 && gb == 0 && imm == 0
  | 0x20 | 0x21 => decide (imm < 4)
  | 0x22 | 0x23 => gb == 0 && (imm == 0 || imm == 2)
  | 0x24 => (l == .h || l == .w) && ga == 0 && gb == 0 && (imm == 0 || imm == 2)
  | 0x28 | 0x29 => imm == 0
  | 0x38 => (l == .h || l == .w) && gb == 0 && (imm == 0 || imm == 2)
  | _ => false)

/-- The invalidation that an instruction names: at S the current VMID is used (R293). -/
def State.mkInval (s : State) (c fn a b imm : Nat) : Inval :=
  let lo := a % 65536
  let hi := a / 65536 % 65536
  let v := if fn = 0x38 then lo else hi
  { fn := fn, asid := lo, vmid := if (s.core c).lvl = .s then s.rd (VM_CTL.VMID c) else v, va := b,
    t := imm.testBit 0 }

/-- TLBLOCK and TLBUNLOCK (R291): the result of the translation goes into the L2 TLB and is locked; without stage 1 there is
no entry to lock (assumption 79). -/
def State.doLock (s : State) (c ga va : Nat) (lock : Bool) : Front :=
  let n := s.rd (TR_STS.LOCKS c)
  let fin (s : State) (v : Nat) : Front := ((s.modCore c (fun x => x.setReg ga (.val v))).retire c, true)
  if lock then
    s.withTr c 0 [(va, 1, 0)] (fun s _ =>
      match s.tlbFind c va 0 with
      | some e =>
        if (s.core c).tlb.any (fun f => f.locked && e.same f) then fin s OK
        else if 8 ≤ n then fin s ENORES
        else fin ((s.modCore c (fun x => { x with tlb := tlbPush2 { e with locked := true } x.tlb })).wr (TR_STS.LOCKS c) (n + 1)) OK
      | none => fin s OK)
  else
    match (s.core c).tlb.find? (fun e => e.locked && s.tlbTag c e && e.covers va) with
    | some e => fin ((s.modCore c (fun x => { x with
        tlb := x.tlb.map (fun f => if f = e then { f with locked := false } else f) })).wr (TR_STS.LOCKS c) (n - 1)) OK
    | none => fin s OK

def State.doTlb (s : State) (c fn ga gb imm : Nat) : Front :=
  let x := s.core c
  if tlbOk fn ga gb imm x.lvl = false then (s.raiseExc c .undefInstr, false)
  else if fn = 0x02 then
    if x.outInv = 0 ∧ (x.fenceReady 0x40) then (s.retire c, true)
    else (s.modCore c (fun x => { x with ph := 1 }), false)
  else
    match (if fn = 0x28 ∨ fn = 0x29 then some 0 else x.regVal ga), x.regVal gb with
    | some a, some b =>
      if fn = 0x28 ∨ fn = 0x29 then s.doLock c ga b (fn == 0x28)
      else
        let i := s.mkInval c fn a b imm
        if x.ph = 0 then
          if x.storesDone = false then (s, false)
          else if imm.testBit 1 then
            let s := s.invalidate c i
            if fn = 0x38 ∧ s.on (VM_CTL.S2EN c) ∧ s.rd (VM_CTL.VMID c) = i.vmid then
              ((s.modCore c (fun x => { x with ph := 1 })).jrStart c, false)
            else (s.retire c, true)
          else if 8 ≤ x.outInv then (s, false)
          else
            (({ s with invq := s.invq ++ [(c, i)] }.modCore c (fun x => { x with outInv := x.outInv + 1 })).retire c,
              true)
        else if x.jrGot.isNone then (s.retire c, true)
        else (s, false)
    | _, _ => (s, false)

/-! ### Register writes with fences, and world calls (R60, R285, R296, R308, R311) -/

/-- A write of VM_CTL: fenced, the VMID reported, the ranges loaded when S2EN is set. -/
def State.doVmCtl (s : State) (c v : Nat) : Front :=
  let x := s.core c
  if x.lvl ≠ .h ∧ x.lvl ≠ .w then (s.raiseExc c .undefInstr, false)
  else
    match x.ph with
    | 0 =>
      if x.quiet then
        let s := ((((s.wr (VM_CTL.PCLS c) (v / 2 ^ 48)).wr (VM_CTL.MTAG c) (v / 2 ^ 32)).wr
          (VM_CTL.MTAG_SEL c) (v / 2 ^ 17)).wr (VM_CTL.S2EN c) (v / 2 ^ 16)).wr (VM_CTL.VMID c) v
        ((s.dropWalks c).modCore c (fun x => { x with ph := 1 }), true)
      else ((s.ungather c).tryWin c, false)
    | 1 =>
      if (Tbl.getD s.vmpv (v % 65536) 0).testBit (dieOf c) then
        if s.on (VM_CTL.S2EN c) then ((s.modCore c (fun x => { x with ph := 2 })).jrStart c, true)
        else (s.retire c, true)
      else (s, false)
    | _ => if x.jrGot.isNone then (s.retire c, true) else (s, false)

/-- A write of TT_CTL (0), TT_ROOT0 (1) or TT_ROOT1 (2): fenced before and after (R308). -/
def State.doTtReg (s : State) (c r v : Nat) : Front :=
  let x := s.core c
  if x.lvl = .u then (s.raiseExc c .undefInstr, false)
  else if x.quiet then
    (match r with
    | 0 => (((s.dropWalks c).wr (TT_CTL.ASID c) (v / 2 ^ 32)).wr (TT_CTL.EN c) v).retire c
    | 1 => ((s.dropWalks c).wr (TT_ROOT0.BASE c) (v / 2 ^ 12)).retire c
    | _ => ((s.dropWalks c).wr (TT_ROOT1.BASE c) (v / 2 ^ 12)).retire c, true)
  else ((s.ungather c).tryWin c, false)

/-- The level that RET_LVL codes (R311). -/
def lvlOf (v : Nat) : Lvl := match v with | 0 => .u | 1 => .s | 2 => .h | _ => .w

/-- The code of a level in RET_LVL. -/
def lvlCode : Lvl → Nat
  | .u => 0
  | .s => 1
  | .h => 2
  | .w => 3

/-- A core that was halted in the Normal world halts again when it returns there (R544). -/
def State.rehalt (s : State) (c : Nat) : State :=
  if (s.core c).haltPend ∧ s.on (WCTL.WORLD c) = false then
    s.modCore c (fun x => { x with halted := true, haltPend := false })
  else s

def State.doWcall (s : State) (c gb imm : Nat) : Front :=
  let x := s.core c
  if x.lvl = .u ∨ gb ≠ 0 ∨ imm ≠ 0 then (s.raiseExc c .undefInstr, false)
  else if x.quiet = false then ((s.ungather c).tryWin c, false)
  else if x.lvl = .w then
    let s := s.retire c
    let s := (s.wr (WCTL.WORLD c) (s.rd (WCTL.RET_WORLD c))).modCore c (fun y => { y with
      lvl := lvlOf (s.rd (WCTL.RET_LVL c)), pc := x.retPc })
    (s.rehalt c, true)
  else
    let s := s.retire c
    (((s.wr (WCTL.WORLD c) 1).wr (WCTL.RET_LVL c) (lvlCode x.lvl)).modCore c (fun y => { y with
      lvl := .w, retLvl := x.lvl, retPc := y.pc, pc := s.rd (WVEC c) }), true)

/-! ### Interrupt registers (R437 to R439, R442) -/

/-- The bank that INT_STATE, INT_ACK and INT_EOI reach (R438): 0 Normal, 1 Secure, 2 virtual. -/
def State.bankSel (s : State) (c : Nat) : Nat :=
  match (s.core c).lvl with
  | .w => 1
  | .h => 0
  | _ => if s.on (WCTL.WORLD c) then 1 else if s.on (VM_CTL.S2EN c) then 2 else 0

def CoreSt.bank (x : CoreSt) (b : Nat) : Bank := match b with | 0 => x.bankN | 1 => x.bankS | _ => x.bankV

def CoreSt.setBank (x : CoreSt) (b : Nat) (v : Bank) : CoreSt :=
  match b with
  | 0 => { x with bankN := v }
  | 1 => { x with bankS := v }
  | _ => { x with bankV := v }

/-- The number of the highest set bit below n. -/
def topBit {w : Nat} (v : BitVec w) : Option Nat := ((List.range w).reverse).find? (fun i => v.getLsbD i)

/-- The highest deliverable vector of a bank (R437). -/
def Bank.deliverable (b : Bank) : Option Nat :=
  match topBit b.pend with
  | none => none
  | some v =>
    let top : Bool := match topBit b.isr with
      | some k => decide (k < v / 16)
      | none => true
    if top && decide (b.pri.toNat < v / 16) then some v else none

/-- Read INT_ACK (R437). -/
def Bank.ack (b : Bank) : Bank × Nat :=
  match b.deliverable with
  | some v => ({ b with pend := clrBit b.pend v, isr := setBit b.isr (v / 16) }, 256 + v)
  | none => (b, 0)

/-- Write INT_EOI (R437). -/
def Bank.eoi (b : Bank) : Bank :=
  match topBit b.isr with
  | some k => { b with isr := clrBit b.isr k }
  | none => b

/-- The harvest of the posted virtual interrupts: a swap of each word (R442). -/
def State.harvest (s : State) (c : Nat) : State :=
  let base := s.rd (VIP_CTL.VIPD c) * 512
  (32 :: List.range 32).foldl (fun s w =>
    s.issue c (s.newOp c (.harvest w) [⟨if w = 32 then base + 0x100 else base + 8 * w, 8, 0, 0, 3⟩])) s

/-- The virtual pending bits written back to the descriptor: a store of 0x01 to each byte, then to ON (R442). -/
def State.unharvest (s : State) (c : Nat) : State :=
  let base := s.rd (VIP_CTL.VIPD c) * 512
  let s := (bitsOf (s.core c).bankV.pend).foldl (fun s v =>
    s.issue c { s.newOp c .store [⟨base + v, 1, 0, 0, 2⟩] with val := .val 1 }) s
  let s := s.issue c { s.newOp c .store [⟨base + 0x100, 1, 0, 0, 2⟩] with val := .val 1, rel := true }
  s.modCore c (fun x => { x with bankV := { x.bankV with pend := 0 } })

def State.doVipCtl (s : State) (c v : Nat) : Front :=
  let x := s.core c
  if x.lvl ≠ .h ∧ x.lvl ≠ .w then (s.raiseExc c .undefInstr, false)
  else if x.ph = 0 then
    let was := s.on (VIP_CTL.EN c)
    let put (s : State) : State :=
      ((s.wr (VIP_CTL.VIPD c) (v / 512)).wr (VIP_CTL.NV c) (v / 2)).wr (VIP_CTL.EN c) v
    if was = false ∧ v % 2 = 1 then (((put s).harvest c).modCore c (fun x => { x with ph := 1 }), true)
    else if was = true ∧ v % 2 = 0 then ((put (s.unharvest c)).modCore c (fun x => { x with ph := 1 }), true)
    else ((put s).retire c, true)
  else if x.storesDone then (s.retire c, true)
  else (s, false)

/-- The store by which the PIR sends a physical interrupt (R436): of size 4, with QOS 3, to the interrupt block of the core's
TCD. The spec does not place that block in the TCD's range: each core has a line of it here, and the data is the vector
(assumption 82). -/
def intMsg (c vec : Nat) (world : Bool) : Msg :=
  { mkMsg .wrPart pirStop (tcdStop (dieOf c)) 0 ((0xFFE0002000000 + 0x100000 * dieOf c) / 64 + c % 24) ⟨world, 0, 0, 0, 3⟩ with
    size := 2, be := 0xF, data := BitVec.ofNat 512 vec }

/-- The PIR sends a physical interrupt to a core (R436): its store goes out, and the PIR waits for the answer (R443). -/
def State.sendInt (s : State) (c vec : Nat) (world : Bool) (o : IntFrom) : State :=
  State.send { s with ints := s.ints ++ [⟨c, vec, world, o, false⟩] } (intMsg c vec world)

/-- The core's die is present and reachable (R443). -/
def State.coreThere (s : State) (c : Nat) : Bool :=
  decide (c < 288) && (s.rd HUB_POP.TCD_PRESENT).testBit (dieOf c) && (s.absorbSts (tcdStop (dieOf c))).isNone &&
    decide (c % 4 < s.rd HUB_POP.CORES_PER_CLUSTER)

/-- An interrupt can be sent to the core: it is not absent, offline, or of an isolated die (R443, R462). -/
def State.coreTarget (s : State) (c : Nat) : Bool := s.coreThere c && (s.core c).online

def State.doIpi (s : State) (c v : Nat) : Front :=
  let x := s.core c
  if x.lvl = .u then (s.raiseExc c .undefInstr, false)
  else if x.lvl = .s ∧ s.on (VM_CTL.S2EN c) then (s.except c .vipi (some .h) x.pc, false)
  else if x.storesDone = false then (s, false)
  else
    let vec := v / 65536 % 256
    let world := s.on (WCTL.WORLD c)
    let dst := v % 512
    let s := if vec < 16 then s.raise PIR_STS.fBADTGT
      else if v.testBit 24 then
        (List.range 288).foldl (fun s d => if d ≠ c ∧ s.coreTarget d then s.sendInt d vec world .core else s) s
      else if s.coreTarget dst then s.sendInt dst vec world .core
      else s.raise PIR_STS.fBADTGT
    (s.retire c, true)

/-- WAIT_FOR_INTERRUPT: the core enters IDLE1 (R470), unless an interrupt is pending for it. -/
def State.doWfi (s : State) (c : Nat) : Front :=
  let x := s.core c
  let s := s.retire c
  if x.bankN.pend = 0 ∧ x.bankS.pend = 0 ∧ x.bankV.pend = 0 then
    (s.modCore c (fun x => { x with idle := 1, idleAt := s.now.toNat }), true)
  else (s, true)

/-! ### Writing system registers (R51, R124, R308, R311, R454, R484) -/

/-- The lowest privilege level that may write a system register, as a number; none where the spec gives none. -/
def sysLevel (num : Nat) : Option Nat :=
  match num / 0x100 with
  | 0x10 | 0x20 | 0x30 | 0x31 | 0x32 => some 1
  | 0x11 => some 2
  | 0x12 => some 3
  | 0x40 => some (if num < 0x4040 then 1 else 2)
  | 0x60 => some 3
  | _ => none

/-- A write of INT_STATE or VINT_STATE: threshold and classes in service of a bank (R437, R454). -/
def Bank.stateWrite (b : Bank) (v : Nat) : Bank :=
  { b with pri := BitVec.ofNat 4 (v / 65536), isr := BitVec.ofNat 16 v }

/-- A write of a system register. Below its level, and for a number that names no register, it raises an
undefined-instruction exception (R308, R454, R484). -/
def State.doSysW (s : State) (c num v : Nat) : Front :=
  let x := s.core c
  let a := 0x100000000 + c * 0x10000 + num
  match sysLevel num with
  | none => (s.raiseExc c .undefInstr, false)
  | some l =>
    if lvlCode x.lvl < l then (s.raiseExc c .undefInstr, false)
    else
      match num with
      | 0x1000 => s.doTtReg c 0 v
      | 0x1008 => s.doTtReg c 1 v
      | 0x1010 => s.doTtReg c 2 v
      | 0x1100 => s.doVmCtl c v
      | 0x4000 => ((s.modCore c (fun x => x.setBank (s.bankSel c) ((x.bank (s.bankSel c)).stateWrite v))).retire c, true)
      | 0x4010 => ((s.modCore c (fun x => x.setBank (s.bankSel c) ((x.bank (s.bankSel c)).eoi))).retire c, true)
      | 0x4020 => s.doIpi c v
      | 0x4040 => s.doVipCtl c v
      | 0x4048 => ((s.modCore c (fun x => { x with bankV := x.bankV.stateWrite v })).retire c, true)
      | 0x6008 => ((s.wr (WVEC c) v).retire c, true)
      | _ =>
        match regAt a with
        | none => (s.raiseExc c .undefInstr, false)
        | some d =>
          let p := s.regPut a d 0 64 v
          let s := if p.2 then p.1.report (rec0 .info 0x10 c 0xC7) else p.1
          (s.retire c, true)

/-! ### The front of a core -/

/-- A conditional branch on a register that an access has still to bind stands in the window until it is bound, unless it
stands there already (R46). -/
def State.branchOn (s : State) (c br : Nat) : State :=
  match (s.core c).reg br with
  | .val _ => s
  | d =>
    if (s.core c).win.any (fun o => o.k == .branch && o.val == d) then s
    else { (s.modCore c (fun x => { x with win := x.win ++ [{ s.newOp c .branch [] with val := d }] })) with
      opSeq := s.opSeq + 1 }

/-- Execute the head instruction as far as it goes. -/
def State.frontStep (s : State) (c : Nat) : Front :=
  let x := s.core c
  match x.front with
  | [] => (s, false)
  | i :: _ =>
    match i with
    | .load rd rb off lg vec =>
      (match x.regVal rb with
      | some b => s.doLoad c rd ((b + off) % 2 ^ 64) (2 ^ lg) false vec
      | none => (s, false))
    | .store rs rb off lg vec br =>
      (match x.regVal rb with
      | some b =>
        (s.branchOn c br).doStore c (x.reg rs) ((b + off) % 2 ^ 64) (2 ^ lg) false true vec
      | none => (s, false))
    | .fence ga gb imm => if x.ph = 0 then s.doFence c ga gb imm else (s, false)
    | .ord op ga gb gc size order mbz => s.doOrd c op ga gb gc size order mbz
    | .maint fn ga gb imm => s.doMaint c fn ga gb imm
    | .tlb fn ga gb imm => if fn = 0x02 ∧ x.ph ≠ 0 then (s, false) else s.doTlb c fn ga gb imm
    | .vmCtl v => s.doVmCtl c v
    | .ttReg r v => s.doTtReg c r v
    | .sysW num v => s.doSysW c num v
    | .wcall _ gb imm => s.doWcall c gb imm
    | .ipi v => s.doIpi c v
    | .eoi _ =>
      if x.lvl = .u then (s.raiseExc c .undefInstr, false)
      else ((s.modCore c (fun x => x.setBank (s.bankSel c) ((x.bank (s.bankSel c)).eoi))).retire c, true)
    | .ackRead rd =>
      if x.lvl = .u then (s.raiseExc c .undefInstr, false)
      else
        let b := s.bankSel c
        ((s.modCore c (fun x => (x.setBank b (x.bank b).ack.1).setReg rd (.val (x.bank b).ack.2))).retire c, true)
    | .vipCtl v => s.doVipCtl c v
    | .wfi => s.doWfi c

/-- The core executes: online, clocked and not halted. -/
def CoreSt.runs (x : CoreSt) : Bool := x.online && !x.halted && x.idle == 0

/-- The core executes instructions. -/
def State.coreRuns (s : State) (c : Nat) : Bool := (s.core c).runs && s.coresRun

/-- The instruction is an atomic. -/
def CInstr.atomic : CInstr → Bool
  | .ord op .. => decide (2 ≤ op)
  | _ => false

/-- Execute instructions of a core while they can be; an atomic waits for the core's next turn once one has been performed
in this one (R69). -/
def State.coreRun (c : Nat) : Nat → Bool → State → State
  | 0, _, s => s
  | n + 1, did, s =>
    let at_ := (s.core c).front.head?.any CInstr.atomic
    if s.coreRuns c && !(did && at_) then
      match s.frontStep c with
      | (s, true) => State.coreRun c n (did || at_) s
      | (s, false) => s
    else s

/-- How many instructions one event may let a core execute: no more than wait in its front, each in at most four
phases. -/
def CoreSt.fuel (x : CoreSt) : Nat := 4 * x.front.length + 4

/-- Something a core may have waited for has happened. -/
def State.poke (s : State) (c : Nat) : State :=
  let s := (s.walksGo c)
  let s := State.jrGo c 12 s
  let p := s.tryTurn c
  State.coreRun c (p.1.core c).fuel p.2 p.1

/-- Something that the cores of a die may have waited for has happened: those with anything waiting have their turn, in
rotation from one core further each time (R69). -/
def State.pokeDie (s : State) (t : Nat) : State :=
  let r := Tbl.getD s.l3rr t 0
  (List.range 24).foldl (fun s k =>
    let c := 24 * t + (r + k) % 24
    let x := s.core c
    if x.win.isEmpty && x.front.isEmpty && x.walks.isEmpty && x.jrGot.isNone then s else s.poke c)
    { s with l3rr := Tbl.put s.l3rr t 0 ((r + 1) % 24) }

/-- An instruction of a core: it executes in program order. A core that does not run executes nothing. -/
def State.coreInstr (s : State) (c : Core) (i : CInstr) : State :=
  if s.coreRuns c.val then
    (s.modCore c.val (fun x => { x with front := x.front ++ [i] })).poke c.val
  else s

end Sys2Proof.Machine
end

