-- ==== Sys2Proof/Machine/Agents.lean ====
section
/-!
DEFINITION. Messages at their agents: grants, data and acknowledgements at a die (R96, R97, R102, R169, R316), the
doorbell lines of the TQE (R114, R115), and the admission of a home slice (R95, R96, R316).
-/
namespace Sys2Proof.Machine

/-! ### Answers at a die -/

/-- Hand an answer to one access of a core (R74, R316). -/
def State.handOp (s : State) (c op : Nat) (g : LineData × Bool × Nat) : State :=
  s.modCore c (fun x => { x with win := x.win.map (fun o => if o.id = op then { o with got := some g } else o) })

/-- The access waits for the line with these attributes. -/
def WinOp.wants (o : WinOp) (line : Nat) (a : Attr) : Bool :=
  o.sent && o.attr.world == a.world &&
  (match o.k, o.segs with
  | .clean _, _ | .clinv _, _ => false
  | _, g :: _ => g.pa / 64 == line && g.ty == 3 && g.enc == a.enc.toNat
  | _, [] => false)

/-- Hand data without an installed line to every access of a core that waits for the line, to its walks and to its
range load (R169, R316). -/
def State.handCore (s : State) (c line : Nat) (a : Attr) (g : LineData × Bool × Nat) : State :=
  let s := s.modCore c (fun x => { x with
    win := x.win.map (fun o => if o.wants line a then { o with got := some g } else o) })
  let s := { s with cores := (if (s.core c).walks.isEmpty then s.cores else
    (s.modCore c (fun x => { x with walks := x.walks.map (fun w =>
      match s.walkWhere c w with
      | .inl (_, hpa, _, _) => if w.sent ∧ hpa / 64 = line then { w with got := some g } else w
      | .inr _ => w) })).cores) }
  match (s.core c).jrGot with
  | some ls =>
    if line = s.descAddr c / 64 + ls.length then s.modCore c (fun x => { x with jrGot := some (ls ++ [g]) }) else s
  | none => s

def State.handDie (s : State) (t line : Nat) (a : Attr) (g : LineData × Bool × Nat) : State :=
  (List.range 24).foldl (fun s k => s.handCore (24 * t + k) line a g) s

/-- A grant or data reaches a die for its request rq (R97, R123, R169). With STS 4 nothing is installed; a copy that an
Upgrade was to promote stays as it is (assumption 56). -/
def State.dieGrant (s : State) (t : Nat) (m rq : Msg) (st : Moesi) (up : Bool) : State :=
  let p := s.takeOut t rq
  let s := p.2
  let core := match p.1 with
    | some o => if o.core < 288 then some o.core else none
    | none => none
  let l1 := p.1.any (fun o => o.op != walkOp)
  if m.sts = 4 then
    ((s.handDie t m.line.toNat rq.attr (onesLine, true, 4)).sendCompAck m 4).pokeDie t
  else
    let s := if up then s.l3Grant t m else s.l3Install t m rq.attr core l1 st
    (s.sendCompAck m 0).pokeDie t

/-- DataOnce reaches a die for its request rq: nothing is installed; a refused Upgrade drops the copy (R96, R316). -/
def State.dieOnce (s : State) (t : Nat) (m rq : Msg) : State :=
  let p := s.takeOut t rq
  let s := p.2
  let g : LineData × Bool × Nat := (m.data, m.poison, m.sts.toNat)
  let s := match p.1 with
    | some o => if o.core < 288 ∧ m.sts = 0 ∧ m.data = refusalLine then s.ccEvent o.core 0x0A else s
    | none => s
  match rq.opc with
  | .rdShared | .rdUnique =>
    (s.handDie t m.line.toNat rq.attr g).pokeDie t
  | .upgrade =>
    let s := if m.sts = 0 then s.l3Drop t m.line.toNat else s
    (s.handDie t m.line.toNat rq.attr g).pokeDie t
  | _ =>
    match p.1 with
    | some o =>
      let s := if o.op = walkOp then s.handCore o.core m.line.toNat rq.attr g else s.handOp o.core o.op g
      s.poke o.core
    | none => s

/-- WrAck or MaintAck reaches a die for its request rq. -/
def State.dieAck (s : State) (t : Nat) (m rq : Msg) : State :=
  let p := s.takeOut t rq
  match p.1 with
  | some o => ((p.2).handOp o.core o.op (0, m.poison, m.sts.toNat)).pokeDie t
  | none => p.2

/-! ### The doorbell lines of the TQE (R114, R115, R379) -/

def State.setWatch (s : State) (line : Nat) (w : Watch) : State := { s with watch := Tbl.set s.watch line w }

/-- The TQE has no request outstanding for a line, and no eviction of it pending (R94, R102). -/
def State.tqeFree (s : State) (line : Nat) : Bool :=
  let of (m : Msg) : Bool := m.src.val == tqeStop && m.line.toNat == line && m.opc.isRequest && !m.isDevice
  (s.evAt 12 line).isNone && !s.mesh.txnBusy.any (fun e => of e.2) && !s.mesh.stall.any of

/-- A doorbell event: the line is read again with RdShared, or once the read in progress has ended, or once Bus Master
Enable of its function is 1 (R358, R379, R381), or once the TQE may send a request for it (R94). -/
def State.bellRead (s : State) (line : Nat) : State :=
  match Tbl.get? s.watch line with
  | none => s
  | some w =>
    if w.reading ∨ s.fnBme w.fn = false ∨ s.tqeFree line = false then s.setWatch line { w with rung := true }
    else (s.setWatch line { w with rung := false, reading := true }).send (homeReq .rdShared tqeStop line w.attr)

/-- A doorbell event that waited for the TQE's other request of its line. -/
def State.bellAgain (s : State) (line : Nat) : State :=
  match Tbl.get? s.watch line with
  | some w => if w.rung then s.bellRead line else s
  | none => s

/-- The TQE gives up a doorbell line with EvClean, and keeps its address until EvAck (R102, R379). -/
def State.tqeEvict (s : State) (line : Nat) (a : Attr) : State :=
  let m := homeReq .evClean tqeStop line a
  State.send { s with evp := Tbl.set s.evp (dieKey 12 line) ⟨false, 0, false, m⟩ } m

/-- A snoop reaches the TQE, which holds lines in S only: it is answered by the state that the TQE holds the line in (R99,
R103); it takes the line out of its S copies and counts as a doorbell event (R115). -/
def State.snoopTqe (s : State) (m : Msg) : State :=
  let line := m.line.toNat
  match s.evAt 12 line with
  | some e => s.snoopEvict m e
  | none =>
    let w := Tbl.get? s.watch line
    let s := s.snpAnswer m (match m.opc with
      | .snpCur | .snpCln => .rspClean
      | .snpShared => if w.any (fun w => w.armed) then .rspS else .rspI
      | _ => .rspI)
    match w with
    | none => s
    | some w => (s.setWatch line { w with armed := false }).bellRead line

/-- The data of a doorbell read has come: a fence read waits for it no longer (R353). -/
def State.fenceGot (s : State) (line : Nat) : State :=
  { s with fence := s.fence.map (fun (x : Fence) => { x with lines := x.lines.erase line }) }

/-- The data of a doorbell read that the TQE no longer wants is dropped; it is counted where its generation is old, or
where it is marked for discard (R358, R360). -/
def State.strayRead (s : State) (line : Nat) : Option State :=
  match s.strays.find? (fun x => x.line == line) with
  | some x =>
    let t : State := { s with strays := s.strays.erase x }
    some (if x.fgen ≠ (s.fn x.fn).fgen then t.raise TQE_STS.fSTALECPL
      else if x.discard then t.raise TQE_STS.fBMEDISC else t)
  | none => none

/-- A doorbell read returns: its data is kept for the octet's evaluation, or discarded (R358). -/
def State.bellData (s : State) (m : Msg) (held : Bool) : State :=
  let line := m.line.toNat
  let s := s.fenceGot line
  match s.strayRead line with
  | some s => s
  | none =>
    match Tbl.get? s.watch line with
    | none => s
    | some w =>
      if w.discard then
        ((s.setWatch line { w with reading := false, discard := false, armed := held }).raise
          TQE_STS.fBMEDISC).bellRead line
      else s.setWatch line { w with armed := held, got := some (m.data, m.poison, m.sts.toNat) }

/-- DataS of a doorbell line reaches the TQE: it is held in S (R114). -/
def State.tqeShared (s : State) (m : Msg) : State :=
  (s.bellData m (m.sts != 4)).sendCompAck m (if m.sts = 4 then 4 else 0)

/-! ### Peer traffic (R350, R353, R355) -/

/-- Earlier posted pieces of the same requester have been performed (R355). -/
def State.pieceFree (s : State) (p : Piece) : Bool :=
  s.pieces.all (fun q => decide (p.id ≤ q.id) || q.rid != p.rid || q.out.opc == .rdOnce)

/-- Issue the pieces that may go. -/
def State.piecesGo (s : State) : State :=
  s.pieces.foldl (fun s p =>
    if p.sent = false ∧ s.pieceFree p = true ∧ s.fnBme 0 = true ∧ s.tqeFree p.out.line.toNat = true then
      State.send { s with pieces := s.pieces.map (fun (q : Piece) => if q.id = p.id then { q with sent := true } else q) } p.out
    else s) s

/-- An answer reaches the TQE for a piece: the root port is answered, unless the piece is discarded (R350, R358,
R360). -/
def State.pieceDone (s : State) (m : Msg) (p : Piece) : State :=
  let s : State := { s with pieces := s.pieces.filter (fun (q : Piece) => q.id != p.id) }
  let s :=
    if p.fgen ≠ (s.fn 0).fgen then s.raise TQE_STS.fSTALECPL
    else if p.discard then s.raise TQE_STS.fBMEDISC
    else if p.out.opc = .rdOnce then
      s.launch { p.orig.reply .dataOnce with data := m.data, poison := m.poison, sts := m.sts }
    else s.launch { p.orig.reply .wrAck with sts := m.sts }
  s.piecesGo

/-- The oldest issued piece that an answer belongs to. -/
def State.pieceFor (s : State) (m rq : Msg) : Option Piece :=
  s.pieces.find? (fun p => p.sent && p.out.opc == rq.opc && p.out.line == m.line)

/-- DataOnce reaches the TQE: for a piece, or for a doorbell read that is refused or has failed (R316, R379). -/
def State.tqeOnce (s : State) (m rq : Msg) : State :=
  match rq.opc with
  | .rdShared => s.bellData m false
  | .rdOnce =>
    (match s.pieceFor m rq with
    | some p => s.pieceDone m p
    | none => s)
  | _ => s

/-- WrAck reaches the TQE, for a piece. -/
def State.tqeAck (s : State) (m rq : Msg) : State :=
  match s.pieceFor m rq with
  | some p => s.pieceDone m p
  | none => s

/-! ### Any answer at its stop -/

/-- A final answer is taken at the stop of its requester (R171): the answer as it is read (R92), the agent and its request. -/
def State.answered (s : State) (m : Msg) (k : State → Msg → Nat → Msg → State) : State :=
  match s.takeAnswer m with
  | (none, s) => s
  | (some rq, s) =>
    match slotOfStop m.dst.val with
    | some a => if a = 12 then ((k s m.known a rq).bellAgain m.line.toNat).piecesGo else k s m.known a rq
    | none => s

/-- DataS, DataE or DataM is taken by its requester: the answer to a RdOnce where a revision-1 owner gave it (R117). -/
def State.dataTake (s : State) (m : Msg) (st : Moesi) : State :=
  s.answered m (fun s m a rq =>
    if a = 12 then (if rq.opc = .rdShared then s.tqeShared m else s.tqeOnce m rq)
    else if rq.opc = .rdOnce then s.dieOnce a m rq
    else s.dieGrant a m rq st false)

/-- GrantE is taken by its requester. -/
def State.grantTake (s : State) (m : Msg) : State :=
  s.answered m (fun s m a rq => if a = 12 then s else s.dieGrant a m rq .e true)

/-- DataOnce is taken by its requester. -/
def State.onceTake (s : State) (m : Msg) : State :=
  s.answered m (fun s m a rq => if a = 12 then s.tqeOnce m rq else s.dieOnce a m rq)

/-- WrAck or MaintAck is taken by its requester. -/
def State.ackTake (s : State) (m : Msg) : State :=
  s.answered m (fun s m a rq => if a = 12 then s.tqeAck m rq else s.dieAck a m rq)

/-- WbAck, WbAckStale or EvAck is taken by its agent, which frees its evict-pending buffer (R102, R104). -/
def State.evictTake (s : State) (m : Msg) : State :=
  s.answered m (fun s m a _ => if a = 12 then s.evDrop 12 m.line.toNat else (s.evDrop a m.line.toNat).pokeDie a)

/-- A snoop is taken by an agent. -/
def State.snoopTake (s : State) (m : Msg) : State :=
  match slotOfStop m.dst.val with
  | some 12 => s.snoopTqe m
  | some t => s.snoopDie t m
  | none => s

/-- A message that an agent takes, by its opcode. -/
def State.agentTake (s : State) (m : Msg) : State :=
  match m.opc with
  | .snpShared | .snpUnique | .snpInv | .snpCur | .snpCln => s.snoopTake m
  | .dataS => s.dataTake m .s
  | .dataE => s.dataTake m .e
  | .dataM => s.dataTake m .m
  | .grantE => s.grantTake m
  | .dataOnce => s.onceTake m
  | .wrAck | .maintAck => s.ackTake m
  | .wbAck | .wbAckStale | .evAck => s.evictTake m
  | _ => s

/-- A message for an agent reaches its stop. -/
def State.agentArrive (s : State) (m : Msg) : State := s.deliver m State.agentTake

/-- A snoop answer or CompAck reaches a home. -/
def State.homeRsp (s : State) (m : Msg) : State :=
  s.deliver m (fun s m => if m.opc = .compAck then s.compAck m.known else s.snoopAnswer m.known)

/-! ### Requests at a home (R93, R95) -/

/-- A coherent request to a non-memory region is refused without an access to the device; the core that made it takes a
data fault (R43). -/
def State.nonMem (s : State) (m : Msg) : State :=
  let s := s.returnCredit m
  let idx := m.txn.toNat % 1024
  let s := { s with mesh := { s.mesh with txnBusy := Tbl.erase s.mesh.txnBusy (m.src.val * 1024 + idx) } }
  match slotOfStop m.src.val with
  | some t =>
    if t = 12 then s
    else
      let p := s.takeOut t m
      (match p.1 with
      | some o =>
        (match ((p.2).core o.core).win.find? (fun w => w.id == o.op) with
        | some w => ((p.2).modCore o.core (fun x => x.squash w.id)).except o.core .nonMemory none w.pc
        | none => p.2)
      | none => p.2)
  | none => s

/-- A request reaches its home and waits for admission; a WbDirty or EvClean waits among the write-backs (R95). -/
def State.homeArrive (s : State) (m : Msg) : State :=
  s.deliver m (fun s m =>
    if m.isDevice then s.nonMem m
    else
      match homeOfStop m.dst.val with
      | none => s
      | some h =>
        let x := s.home h
        if m.opc = .wbDirty ∨ m.opc = .evClean then s.setHome h { x with wbq := x.wbq ++ [m] }
        else
          { s.setHome h { x with rqq := x.rqq ++ [m] } with
            posted := if m.fromDevice then s.posted ++ [m] else s.posted })

/-- A waiting request may be admitted: a device's memory write is admitted once every earlier one of the device has become
visible (R76, assumption 65). -/
def State.mayAdmit (s : State) (m : Msg) : Bool :=
  !m.fromDevice || !s.posted.contains m || s.posted.find? (fun x => x.src == m.src && x.rid == m.rid) == some m

/-- The arbitration position of a request (R95). -/
def arbPos (m : Msg) : Nat :=
  match slotOfStop m.src.val with
  | some a => a
  | none => if m.src.val = iowStop then 13 else if m.src.val = ioeStop then 14 else 15

/-- The first waiting message, going round from a position. -/
def pickRound (q : List Msg) (start n : Nat) : Option Msg :=
  ((List.range n).map (fun i => (start + i) % n)).findSome? (fun p => q.find? (fun m => arbPos m == p))

/-- The answer to a request that touches nothing: a refusal (R316) or an access to unpopulated memory (R42). -/
def State.answerBare (s : State) (m : Msg) (d : LineData) : State :=
  let s := s.returnCredit m
  match m.opc with
  | .wrFull | .wrPart | .maintCln | .maintInv => s.answer m (ackOf m.opc) 0 0 false
  | _ => s.answer m .dataOnce 0 d false

/-- A request is a write or maintenance, for OWN_LOG (R317). -/
def Opc.isWrite : Opc → Bool
  | .wrFull | .wrPart | .maintCln | .maintInv => true
  | _ => false

/-- Bytes that a request moves for metering (R492): a line for reads and whole-line writes, write-backs (under their MTAG 0)
among them, the enabled bytes of a WrPart. -/
def Msg.meterBytes (m : Msg) : Nat :=
  match m.opc with
  | .rdShared | .rdUnique | .rdOnce | .wrFull | .wbDirty => 64
  | .wrPart => (bitsOf m.be).length
  | _ => 0

/-- MEM_BYTES of the interval grow at admission (R492, R495); a die without MTAG is marked (R206). -/
def State.meterMem (s : State) (m : Msg) : State :=
  let n := m.meterBytes
  if n = 0 then s
  else
    let g := m.attr.mtag.toNat
    let t1 := match slotOfStop m.src.val with
      | some a => decide (a < 12) && s.on (STR_STATE.MTAG0 a)
      | none => false
    { s with spl := { s.spl with mem := Tbl.put s.spl.mem g 0 (Tbl.getD s.spl.mem g 0 + n), t1 := s.spl.t1 || t1 } }

/-- The core that made a request of its die, for the record of R42; 0xFFFF where no core did. -/
def State.coreOf (s : State) (m : Msg) : Nat :=
  match slotOfStop m.src.val with
  | some t =>
    (match (s.outs t).find? (fun o => o.msg.opc = m.opc ∧ o.msg.line = m.line ∧ o.msg.low = m.low ∧
        o.msg.size = m.size) with
    | some o => if o.core < 288 then o.core else 0xFFFF
    | none => 0xFFFF)
  | none => 0xFFFF

/-- A message that no unit can act on is dropped and logged with its source (R91). -/
def State.dropMsg (s : State) (unit inst : Nat) (m : Msg) : State :=
  s.report { rec0 .error unit inst 0xC8 with src := m.src.val, addr := some (m.line.toNat * 64) }

/-- Admit one message to the line locks (R96): its check (R315, R316), then the lock or the line's queue. -/
def State.admitMsg (s : State) (h : Nat) (m : Msg) : State :=
  let line := m.line.toNat
  let s := (s.count (bankHome h) 1 0 (some m.attr)).meterMem m
  let take (s : State) (m : Msg) : State :=
    match s.lock? h line with
    | some l => s.setLock h { l with queue := l.queue ++ [m] }
    | none => State.finish (s.lockRun h m []) h line (some m)
  if m.opc = .wbDirty ∨ m.opc = .evClean then take s m
  else if s.populated (line * 64) = false then
    (s.unmapped (line * 64) m.attr m.src.val (s.coreOf m)).answerBare m 0
  else
  let s := s.motTouch line
  if s.ownPass line m.attr.world m.attr.enc.toNat then take s m
  else
    let s := if (s.mot line).kind = .bad then s.motBad line else s
    let s := s.refusal m.opc.isWrite m.attr.world m.attr.enc.toNat line m.src.val m.attr.mtag.toNat
    if m.opc = .upgrade then take s { m with poison := true } else s.answerBare m refusalLine

/-- One admission of a slice (R95), with the condition in which the directory's entry of the line is read. -/
def State.homeAdmit (s : State) (h : Nat) (ecc : Ecc) : State :=
  let x := s.home h
  let met (s : State) (m : Msg) : State :=
    let line := m.line.toNat
    match s.dirFind h line with
    | some w => if ecc = .ok then s else s.dirPut h (dirSet line) w (some { s.dirEnt h line with ecc := ecc })
    | none => s
  match pickRound x.wbq x.wbPtr 13 with
  | some m =>
    let s := s.setHome h { x with wbq := x.wbq.erase m, wbPtr := (arbPos m + 1) % 13 }
    if m.opc.isRequest then (met s m).admitMsg h m else s.dropMsg 1 h m
  | none =>
    match pickRound (x.rqq.filter (fun m => s.mayAdmit m)) (s.rd (HOME_CTL.RR_PTR h)) 16 with
    | some m =>
      let s := s.setHome h { x with rqq := x.rqq.erase m }
      let s := s.wr (HOME_CTL.RR_PTR h) ((arbPos m + 1) % 16)
      if m.opc.isRequest then (met s m).admitMsg h m else s.dropMsg 1 h m
    | none => s

/-- The sweep of one set of a slice for dead agents (R109). -/
def State.sweepSet (s : State) (h : Nat) : State :=
  match (s.home h).sweep with
  | none => s
  | some i =>
    let s := (List.range 16).foldl (fun s w =>
      match s.dirAt h i w with
      | none => s
      | some e =>
        let c := s.cleanEnt e
        let a : Attr := ⟨false, 0, 0, 0, 0⟩
        let s := if c.2 then s.markPoison e.line a else s
        if c.1 = e then s
        else s.dirPut h i w (if c.1.valid || s.locked h e.line then some c.1 else none)) s
    if i + 1 < 16384 then s.setHome h { s.home h with sweep := some (i + 1) }
    else (s.setHome h { s.home h with sweep := none }).wr (HOME_CTL.SWEEP_BUSY h) 0

end Sys2Proof.Machine
end

