-- ==== Sys2Proof/Machine/Chan.lean ====
section
/-!
DEFINITION. A memory channel: its registers (R253, R252), its queues (R225 to R230), its answers, its freeze and the
drop list (R243 to R249), and what a lost channel means for its parity group (R254, R271, R275).
-/
namespace Sys2Proof.Machine

/-! ### Registers of a freeze unit

Channels 0 to 15 are MCH0 to MCH15; 16 + 16 k + c is HBM3 channel c of HBC k. An HBM channel's state stands in cells of
its own, and HBC_FRZ shows those of the channel that HBC_CMD named last (R252). -/

def frzCause (ch : Nat) : Fld := if ch < 16 then MCH_FRZ.CAUSE ch else frzCell ch 4 2
def frzDrops (ch : Nat) : Fld := if ch < 16 then MCH_FRZ.DROPS ch else frzCell ch 8 13
def frzBusy (ch : Nat) : Fld := if ch < 16 then MCH_FRZ.BUSY ch else frzCell ch 22 1
def frzOvf (ch : Nat) : Fld := if ch < 16 then MCH_FRZ.DROP_OVF ch else frzCell ch 23 1
def frzSts (ch : Nat) : Fld := if ch < 16 then MCH_FRZ.LAST_STS ch else HBC_FRZ.LAST_STS (hbcOf ch)

/-- HBC_FRZ follows the channels of its stack (R252). -/
def State.frzShow (s : State) (ch : Nat) : State :=
  if ch < 16 then s
  else
    let k := hbcOf ch
    let c := 16 + 16 * k + s.rd (HBC_CMD.CHAN k)
    let s := s.wr (HBC_FRZ.STATE k) (s.rd (frzState c))
    let s := s.wr (HBC_FRZ.CAUSE k) (s.rd (frzCause c))
    let s := s.wr (HBC_FRZ.DROPS k) (s.rd (frzDrops c))
    let s := s.wr (HBC_FRZ.BUSY k) (s.rd (frzBusy c))
    let s := s.wr (HBC_FRZ.DROP_OVF k) (s.rd (frzOvf c))
    s.wr (HBC_FRZ.CHANS k)
      ((List.range 16).foldl (fun v i => if s.rd (frzState (16 + 16 * k + i)) = 0 then v else v + 2 ^ i) 0)

/-- Write a state field of a freeze unit. -/
def State.setFrz (s : State) (ch : Nat) (f : Nat → Fld) (v : Nat) : State := (s.wr (f ch) v).frzShow ch

def chCECC (ch : Nat) : Flag := if ch < 16 then MCH_STS.fCECC ch else HBC_STS.fCECC (hbcOf ch)
def chUECC (ch : Nat) : Flag := if ch < 16 then MCH_STS.fUECC ch else HBC_STS.fUECC (hbcOf ch)
def chCAPAR (ch : Nat) : Flag := if ch < 16 then MCH_STS.fCAPAR ch else HBC_STS.fCAPAR (hbcOf ch)
def chWCRC (ch : Nat) : Flag := if ch < 16 then MCH_STS.fWCRC ch else HBC_STS.fWCRC (hbcOf ch)
def chRDIST (ch : Nat) : Flag := if ch < 16 then MCH_STS.fRDIST ch else HBC_STS.fRDIST (hbcOf ch)
def chPSNRD (ch : Nat) : Flag := if ch < 16 then MCH_STS.fPSNRD ch else HBC_STS.fPSNRD (hbcOf ch)
def chFREEZE (ch : Nat) : Flag := if ch < 16 then MCH_STS.fFREEZE ch else HBC_STS.fFREEZE (hbcOf ch)
def chWDROP (ch : Nat) : Flag := if ch < 16 then MCH_STS.fWDROP ch else HBC_STS.fWDROP (hbcOf ch)

def wqHi (ch : Nat) : Fld := if ch < 16 then MCH_SCHED.WQ_HI ch else HBC_SCHED.WQ_HI (hbcOf ch)
def wqLo (ch : Nat) : Fld := if ch < 16 then MCH_SCHED.WQ_LO ch else HBC_SCHED.WQ_LO (hbcOf ch)
def rdAge (ch : Nat) : Fld := if ch < 16 then MCH_SCHED.RD_AGE ch else HBC_SCHED.RD_AGE (hbcOf ch)
def rdEn (ch : Nat) : Fld := if ch < 16 then MCH_RFSH.RD_EN ch else HBC_RFSH.RD_EN (hbcOf ch)
def rdThr (ch : Nat) : Fld := if ch < 16 then MCH_RFSH.RD_THR ch else HBC_RFSH.RD_THR (hbcOf ch)
def rfHot (ch : Nat) : Fld := if ch < 16 then MCH_RFSH.HOT ch else HBC_RFSH.HOT (hbcOf ch)
def scrubH (ch : Nat) : Fld := if ch < 16 then MCH_CTL.SCRUB_H ch else HBC_CTL.SCRUB_H (hbcOf ch)

/-- The counter bank of a channel's controller. -/
def chBank (ch : Nat) : Nat := if ch < 16 then bankMch ch else bankHbc (hbcOf ch)

/-- The unit and instance of a channel's records (R507). -/
def chUnit (ch : Nat) : Nat × Nat := if ch < 16 then (5, ch) else (6, hbcOf ch)

/-- A corrected error of a channel: CECC and a record of severity CORR, with no address for a parity line (R235, R243, R497;
assumption 36). -/
def State.chCorr (s : State) (ch : Nat) (line : Option Nat) : State :=
  let u := chUnit ch
  (s.raise (chCECC ch)).report { rec0 .corr u.1 u.2 0 with addr := line.map (fun l => l * 64) }

/-! ### Answers and credits -/

/-- A controller returns the credit of a request in a CRD flit (R165, R166). -/
def State.memCredit (s : State) (r : MemReq) : State :=
  let t := s.chanTarget r.chan.val r.line.toNat
  s.putFlit t.1 r.src.stop (.crd ⟨r.src.stop, t.1, t.2, if r.wr then 2 else 1, 1, 0⟩)

/-- A read is answered to its sender. -/
def State.memAnswer (s : State) (r : MemReq) (d : LineData) (psn : Bool) (sts : Nat) : State :=
  let s := s.memCredit r
  match r.src with
  | .home h => s.readReturned h.val r.line.toNat d psn sts
  | _ => s

/-- A write is accepted (R219): what waits for it goes on (R96, R135). -/
def State.memAccept (s : State) (r : MemReq) : State :=
  let s := s.memCredit r
  match r.src with
  | .home h => s.writeAccepted h.val r.line.toNat
  | .sweep h => s.writeAccepted h.val r.line.toNat
  | .victim h => s.victimAccepted h.val r.line.toNat
  | _ => s

/-- A write of the queue as a request that nothing waits for any more. -/
def WrEnt.asReq (e : WrEnt) : MemReq := { e.req with src := match e.req.src with
  | .home h | .victim h | .sweep h | .mark h => .mark h
  | .xcp m => .xcp m }

/-- A dropped write sets WDROP with its record and enters the drop list, which holds 4,096 lines (R245, the example of
R514). -/
def State.discardWrite (s : State) (ch : Nat) (r : MemReq) : State :=
  let x := s.chan ch
  let u := chUnit ch
  let s := (s.raise (chWDROP ch)).report { rec0 .error u.1 u.2 7 with
    addr := some (r.line.toNat * 64), world := r.attr.world, enc := r.attr.enc.toNat }
  let e := (r.line.toNat, r.attr.enc.toNat)
  if x.drops.contains e then s
  else if x.drops.length < 4096 then
    (s.setChan ch { x with drops := x.drops ++ [e] }).setFrz ch frzDrops (x.drops.length + 1)
  else s.setFrz ch frzOvf 1

/-- A channel that does no DRAM access answers a request without parity (R245). -/
def State.frozenBare (s : State) (ch : Nat) (r : MemReq) (accept : Bool) : State :=
  if r.wr then
    let s := s.discardWrite ch r
    if accept then s.memAccept r else s
  else s.memAnswer r onesLine true 1

/-! ### Parity groups -/

/-- The lost channel of a group in XCP_STATE. -/
def grpLost (g : Nat) : Fld := if g = 0 then XCP_STATE.LOST_CH0 else XCP_STATE.LOST_CH1

/-- The resync map of a group (R272). -/
def Xcp.map (x : Xcp) (g : Nat) : BitVec 2097152 := if g = 0 then x.map0 else x.map1

def State.setMap (s : State) (g : Nat) (m : BitVec 2097152) (remain : Nat) : State :=
  let s := { s with xcp := if g = 0 then { s.xcp with map0 := m } else { s.xcp with map1 := m } }
  s.wr (XCP_RS.REMAIN g) remain

/-- A stripe's block is marked. -/
def State.marked (s : State) (g stripe : Nat) : Bool := (s.xcp.map g).getLsbD (stripe / 4096)

/-- The next stripe of the block under resync. -/
def Xcp.cur (x : Xcp) (g : Nat) : Nat := if g = 0 then x.cur0 else x.cur1

def State.setCur (s : State) (g v : Nat) : State :=
  { s with xcp := if g = 0 then { s.xcp with cur0 := v } else { s.xcp with cur1 := v } }

/-- Mark a stripe for resync (R272). A mark that falls on a stripe of the block under resync that was done already makes
resync do the block again (R273, assumption 77). -/
def State.mark (s : State) (g stripe : Nat) : State :=
  if s.marked g stripe then
    (if s.rd (XCP_RS.CURSOR g) = stripe / 4096 ∧ stripe % 4096 < s.xcp.cur g then s.setCur g 0 else s)
  else s.setMap g (setBit (s.xcp.map g) (stripe / 4096)) (s.rd (XCP_RS.REMAIN g) + 1)

/-- The group's resync rebuilds parity members, with no lost channel (R276). -/
def Xcp.parOnly (x : Xcp) (g : Nat) : Bool := if g = 0 then x.par0 else x.par1

def State.setParOnly (s : State) (g : Nat) (b : Bool) : State :=
  { s with xcp := if g = 0 then { s.xcp with par0 := b } else { s.xcp with par1 := b } }

/-- The member of a stripe in a channel is lost: the channel is the group's lost channel in DEGRADED, or in RESYNC in a
block still marked (R271, R273). -/
def State.lostFor (s : State) (ch g stripe : Nat) : Bool :=
  let st := s.rd (grpState g)
  decide (ch < 16) && s.rd (grpLost g) == ch &&
    (st == GDEGRADED || (st == GRESYNC && !s.xcp.parOnly g && s.marked g stripe))

/-- The word of a queued request in MCH_CAP_QDATA and a capture: valid, QOS, ENC and PA[51:6]; the parity engine's request
shows the line of its member, or the channel-local line of a parity line (R253, R268). -/
def State.queueWord (s : State) (r : MemReq) : Nat :=
  let line := match r.src with
    | .xcp g => ((s.memberMla g.toNat r.line.toNat r.chan.val).map ddrSys).getD r.line.toNat
    | _ => r.line.toNat
  2 ^ 63 + r.attr.qos.toNat * 2 ^ 58 + r.attr.enc.toNat * 2 ^ 48 + line

/-- The group and stripe of a DDR5 line with parity enabled. -/
def State.lineStripe (s : State) (line : Nat) : Nat × Nat :=
  let p := s.stripeOf (ddrMem (line * 64) / 64)
  (p.1, p.2.1)

/-- The line of a stripe's data member in a channel. -/
def State.memberLine (s : State) (g stripe ch : Nat) : Option Nat :=
  (s.memberMla g stripe ch).map ddrSys

/-- The channels that hold the data members of a stripe. -/
def State.dataChans (s : State) (g stripe : Nat) : List Nat :=
  (s.groupMembers g).filter (fun ch => (s.memberMla g stripe ch).isSome)

/-- A stripe's parity line as it reads before anything was written to the stripe (R257). -/
def State.parityBase (s : State) (g stripe : Nat) : LineData :=
  (s.dataChans g stripe).foldl (fun a ch => match s.memberLine g stripe ch with
    | some l => a ^^^ memUnwritten.stored l
    | none => a) 0

def parKey (g stripe : Nat) : Nat := g * 2 ^ 40 + stripe

/-- The parity line of a stripe. -/
def State.parityLine (s : State) (g stripe : Nat) : ParLine :=
  Tbl.getD s.parity (parKey g stripe) ⟨s.parityBase g stripe, false⟩

def State.setParity (s : State) (g stripe : Nat) (x : ParLine) : State :=
  { s with parity := Tbl.put s.parity (parKey g stripe) ⟨s.parityBase g stripe, false⟩ x }

/-- The poison pass of a BROKEN group is not over (R275). -/
def Xcp.pass (x : Xcp) (g : Nat) : Bool := if g = 0 then x.pass0 else x.pass1

def State.setPass (s : State) (g : Nat) (b : Bool) : State :=
  { s with xcp := if g = 0 then { s.xcp with pass0 := b } else { s.xcp with pass1 := b } }

/-- A line of a group that is BROKEN with its poison pass not yet over reads as poison (R275). -/
def State.stale (s : State) (ch : Nat) (line : Nat) : Bool :=
  decide (ch < 16) && s.parMode != 0 &&
  (let (g, st) := s.lineStripe line
   (s.xcp.pass g && s.rd (grpLost g) == ch && s.marked g st) || s.xcp.dead.contains (g, st) &&
     s.rd (grpLost g) == ch)

/-- A request for a member that is lost goes to XCP; a write marks its stripe before it is accepted (R245, R271,
R272). -/
def State.handOver (s : State) (r : MemReq) (key : Nat) : State :=
  let s := if r.wr then
      let (g, st) := s.lineStripe r.line.toNat
      s.mark g st
    else s
  { s with xcp := { s.xcp with handed := s.xcp.handed ++ [(r, key)] } }

/-- A channel answers a request without DRAM access (R245): through XCP where its group works with parity and this is
the lost member, otherwise with poison or a drop. -/
def State.frozenAnswer (s : State) (ch : Nat) (r : MemReq) (key : Nat) (accept : Bool) : State :=
  if ch < 16 ∧ s.parMode ≠ 0 ∧ s.grpParity (s.groupOf ch) = true then s.handOver r key
  else s.frozenBare ch r accept

/-- The reads that the parity engine has sent for a group are forgotten, in the mesh and in the channels' queues, and its read
credits at the group's channels are full again (R275). -/
def State.xcpForget (s : State) (g : Nat) : State :=
  let mine (r : MemReq) : Bool := r.ofXcp && s.groupOf r.chan.val == g
  let s := { s with mesh := { s.mesh with net := s.mesh.net.filter (fun f => match f.load with
    | .mem r => !mine r
    | .crd c => !(c.dst == xcpStop && (s.groupMembers g).any (fun ch => mchStop ch == c.src) && c.kind == 1)
    | _ => true) } }
  (s.groupMembers g).foldl (fun s ch =>
    let s := s.setPool xcpStop (mchStop ch) 1 2 32
    s.setChan ch { s.chan ch with rq := (s.chan ch).rq.filter (fun e => !e.req.ofXcp) }) s

/-- A group becomes BROKEN (R275): its rebuilds end, what they served is answered as without parity, and deltas are dropped,
updates when they reach their channel. Out of a resync of a lost channel a poison pass starts; the marks stay until it has
cleared them (assumption 77). -/
def State.breakGroup (s : State) (g : Nat) : State :=
  let was := s.rd (grpState g)
  let rb := s.xcp.rebuilds.filter (fun r => r.group == g)
  let hd := s.xcp.handed.filter (fun p => s.groupOf p.1.chan.val == g)
  let s := { s with xcp := { s.xcp with
    rebuilds := s.xcp.rebuilds.filter (fun r => r.group != g)
    handed := s.xcp.handed.filter (fun p => s.groupOf p.1.chan.val != g)
    deltas := s.xcp.deltas.filter (fun d => d.group != g) } }
  let s := s.xcpForget g
  let s := s.wr (grpState g) GBROKEN
  let s := (s.setPass g (was == GRESYNC && !s.xcp.parOnly g)).setCur g 0
  let s := s.setParOnly g false
  let s := (s.raise XCP_STS.fDOUBLE).report { rec0 .error 7 g 3 with addr := none }
  let s := rb.foldl (fun s r => match r.why with
    | .read q _ => s.frozenBare q.chan.val q true
    | .write q _ => s.frozenBare q.chan.val q true
    | .parity => s) s
  hd.foldl (fun s p => s.frozenBare p.1.chan.val p.1 true) s

/-- A member of a group is FROZEN, REPAIRING or FENCED (R271, R275). -/
def State.groupLoss (s : State) (ch : Nat) : State :=
  if ch < 16 ∧ s.parMode ≠ 0 then
    let g := s.groupOf ch
    let st := s.rd (grpState g)
    if st = GNORMAL then (s.wr (grpState g) GDEGRADED).wr (grpLost g) ch
    else if st = GDEGRADED then (if s.rd (grpLost g) = ch then s else s.breakGroup g)
    else if st = GRESYNC then
      if s.rd (grpLost g) = ch ∧ s.xcp.parOnly g = false then s.wr (grpState g) GDEGRADED else s.breakGroup g
    else s
  else s

/-! ### The freeze (R243, R244, R249) -/

/-- The capture of a freeze: the failing command, its place, its line and ENC, the syndrome. -/
structure Capture where
  cause : Nat
  dcmd : Nat
  line : Option Nat
  enc : Nat
  syn : Nat
deriving DecidableEq, Repr

/-- Latch the capture registers (R244, R252). -/
def State.capture (s : State) (ch : Nat) (c : Capture) : State :=
  let l : Loc := match c.line with | some x => s.locOf x | none => ⟨0, 0, 0, 0, 0, 0⟩
  if ch < 16 then
    let s := s.wr (MCH_CAP.DCMD ch) c.dcmd
    let s := s.wr (MCH_CAP.SC ch) l.sc
    let s := s.wr (MCH_CAP.RK ch) l.rk
    let s := s.wr (MCH_CAP.BG ch) l.bg
    let s := s.wr (MCH_CAP.BA ch) l.ba
    let s := s.wr (MCH_CAP.ROW ch) l.row
    let s := s.wr (MCH_CAP.COL ch) l.col
    let s := s.wr (MCH_CAP_PA.ENC ch) c.enc
    let s := s.wr (MCH_CAP_PA.LINE ch) (c.line.getD 0)
    let s := s.wr (MCH_CAP_SYN_LO.SYN ch) c.syn
    let s := s.wr (MCH_CAP_SYN_HI.SYN ch) (c.syn / 2 ^ 64)
    s.wr (MCH_CAP_TIME.TIME ch) s.now.toNat
  else
    let k := hbcOf ch
    let s := s.wr (HBC_CAP.DCMD k) c.dcmd
    let s := s.wr (HBC_CAP.CH k) ((ch - 16) % 16)
    let s := s.wr (HBC_CAP.SC k) l.sc
    let s := s.wr (HBC_CAP.RK k) l.rk
    let s := s.wr (HBC_CAP.BG k) l.bg
    let s := s.wr (HBC_CAP.BA k) l.ba
    let s := s.wr (HBC_CAP.ROW k) l.row
    let s := s.wr (HBC_CAP.COL k) l.col
    let s := s.wr (HBC_CAP_PA.ENC k) c.enc
    let s := s.wr (HBC_CAP_PA.LINE k) (c.line.getD 0)
    let s := s.wr (HBC_CAP_SYN_LO.SYN k) c.syn
    let s := s.wr (HBC_CAP_SYN_HI.SYN k) (c.syn / 2 ^ 64)
    s.wr (HBC_CAP_TIME.TIME k) s.now.toNat

/-- Every request in the queues of a channel that does no more DRAM accesses is answered (R245); writes were accepted
before. A parity line of which an update has not been written is marked for resync (R271). -/
def State.flushQueues (s : State) (ch : Nat) : State :=
  let x := s.chan ch
  let s := s.setChan ch { x with rq := [], wq := [], drain := .none }
  let s := x.wq.foldl (fun s e =>
    match e.req.src with
    | .xcp g => if s.grpParity g.toNat then s.mark g.toNat e.req.line.toNat else s
    | _ => s.frozenAnswer ch e.asReq e.key false) s
  x.rq.foldl (fun s e => if e.req.ofXcp then s.memCredit e.req else s.frozenAnswer ch e.req 0 true) s

/-- The lines that a row restore holds, as writes queued for the channel (R248, R249). -/
def State.heldWrites (s : State) (ch : Nat) : List WrEnt :=
  match (s.chan ch).op with
  | some (.repair _ _ _ _ _ _ held) =>
    held.map (fun l =>
      let c := s.cell l.toNat
      ⟨{ wr := true, chan := Fin.ofNat 80 ch, line := l, attr := ⟨false, 0, 0, 0, 0⟩, src := .mark (Fin.ofNat 32 (homeOf l.toNat)),
         be := fullBe, data := c.data, poison := c.poison }, c.key, 0, s.now.toNat⟩)
  | _ => []

/-- A freeze condition (R243): the flag, the record, and the freeze itself unless the channel is FROZEN or FENCED
already (R249). A RESUME or REPAIR that runs ends with REFROZEN, and the lines that its row restore holds count as queued. -/
def State.freeze (s : State) (ch : Nat) (c : Capture) : State :=
  let (u, i) := chUnit ch
  let s := s.raise (chFREEZE ch)
  let st := s.rd (frzState ch)
  let busy := s.on (frzBusy ch)
  let s :=
    if st = 3 ∨ (st = 1 ∧ busy = false) then s
    else
      let x := { s.chan ch with wq := (s.chan ch).wq ++ s.heldWrites ch }
      let s := s.capture ch c
      let s := s.setChan ch { x with
        snapR := x.rq.map (fun e => e.req), snapW := x.wq.map (fun e => e.req), openRows := [], op := none, sref := true }
      let s := s.setFrz ch frzCause c.cause
      let s := s.setFrz ch frzState 1
      let s := if busy then (s.setFrz ch frzBusy 0).setFrz ch frzSts 0x40 else s
      (s.groupLoss ch).flushQueues ch
  s.report { rec0 .error u i 6 with addr := c.line.map (fun l => l * 64), enc := c.enc }

/-! ### Arrivals (R219, R225 to R230) -/

/-- The newest queued write of a line (R228). -/
def ChanSt.newest (x : ChanSt) (line : Nat) : Option WrEnt :=
  x.wq.reverse.find? (fun e => !e.req.ofXcp && e.req.line.toNat == line)

/-- The channel holds an accepted update of a stripe's parity line (R261). -/
def ChanSt.hasUpdate (x : ChanSt) (r : MemReq) : Bool := x.wq.any (fun e => e.req.src == r.src && e.req.line == r.line)

/-- The writes that share a queue with a write: those of an MCH, or of a stop of an HBC (R225, R252). -/
def State.wqLoad (s : State) (ch line : Nat) : Nat :=
  if ch < 16 then (s.chan ch).wq.length
  else ((List.range 16).map (fun i =>
    ((s.chan (16 + 16 * hbcOf ch + i)).wq.filter (fun e => e.req.line.toNat % 2 == line % 2)).length)).sum

/-- The write queue has room: 288 entries of an MCH, 256 of a stop of an HBC (R225, R252; assumption 72). -/
def State.wqRoom (s : State) (ch line : Nat) : Bool := decide (s.wqLoad ch line < if ch < 16 then 288 else 256)

/-- A write enters the write queue: it may begin a drain (R227). -/
def State.wqPush (s : State) (ch : Nat) (r : MemReq) (key : Nat) : State :=
  let x := s.chan ch
  let s := { s with opSeq := s.opSeq + 1 }
  let wq := x.wq ++ [⟨r, key, s.opSeq, s.now.toNat⟩]
  s.setChan ch { x with
    wq := wq
    drain := if s.rd (wqHi ch) ≤ wq.length then .level
      else if x.drain = .none ∧ x.rq = [] then .idle else x.drain }

/-- A read enters the read queue; `got` where the write queue answers it (R228). -/
def State.rqPush (s : State) (ch : Nat) (r : MemReq) (got : Bool) : State :=
  let x := s.chan ch
  let s := { s with opSeq := s.opSeq + 1 }
  s.setChan ch { x with
    rq := x.rq ++ [⟨r, s.opSeq, s.now.toNat, got, false⟩]
    drain := if x.drain = .idle then .none else x.drain }

/-- The outcome of the code for a DRAM read (R235): good, or corrected where the error lies within the code's guarantee (x4: one
device; x8: eight symbols); beyond it the code may correct or not. HBM has SECDED (R252). -/
def State.eccOf (s : State) (ch : Nat) (e : DramErr) : Ecc :=
  let bad := bitsOf e.sym
  let sure := decide (ch < 16) &&
    (if s.on (MCH_MAP.DEVW ch) then decide (bad.length ≤ 8) else bad.all (fun k => k / 8 == bad.headD 0 / 8))
  if bad.isEmpty then .ok else if sure then .corr else e.ecc
/-- The member of the line in this channel is lost, though the channel is ACTIVE (R273). -/
def State.chLost (s : State) (ch line : Nat) : Bool :=
  decide (ch < 16) && s.parMode != 0 &&
  (let (g, st) := s.lineStripe line
   s.lostFor ch g st)

/-- A read reaches a channel (R228): answered from the write queue, handed over, or queued. A member read of the parity engine
(R268) is answered from the write queue for a parity line only (assumption 72); one for a lost channel has no rebuild any more
(R275). -/
def State.chRead (s : State) (r : MemReq) : State :=
  let ch := r.chan.val
  let line := r.line.toNat
  let x := s.chan ch
  if r.ofXcp then (if s.chActive ch then s.rqPush ch r (x.hasUpdate r) else s.memCredit r)
  else if s.chActive ch = false then s.frozenAnswer ch r 0 true
  else if s.chLost ch line then s.handOver r 0
  else if s.stale ch line then s.memAnswer r onesLine true 1
  else
    match x.newest line with
    | some e =>
      s.memAnswer r (s.recrypt line e.key (s.keyId r.attr.enc.toNat) e.req.data) e.req.poison
        (if e.req.poison then 1 else 0)
    | none => s.rqPush ch r false

/-- The line as the channel holds it now: the newest queued write's, or the DRAM's, decrypted under an entry's key. -/
def State.chLine (s : State) (ch line enc : Nat) : LineData × Bool :=
  match (s.chan ch).newest line with
  | some e => (s.recrypt line e.key (s.keyId enc) e.req.data, e.req.poison)
  | none => (s.memData line enc, (s.cell line).poison)

/-- A write reaches a channel (R219, R230, R245): accepted into the write queue with its full line, encrypted under the
key as it stands (R238). `ecc` is the condition of the merge's read, which every write makes with parity (R260) and which may
find the poison mark (R236). -/
def State.chWrite (s : State) (r : MemReq) (ecc : Ecc) : State :=
  let ch := r.chan.val
  let line := r.line.toNat
  let key := s.keyId r.attr.enc.toNat
  if s.chActive ch = false then s.frozenAnswer ch r key true
  else if s.chLost ch line then s.handOver r key
  else
    let merges := r.be ≠ fullBe ∨ (ch < 16 ∧ s.parMode ≠ 0)
    let s := if merges ∧ ecc = .corr then s.chCorr ch (some line) else s
    let old := s.chLine ch line r.attr.enc.toNat
    let s := if merges ∧ old.2 ∧ ((s.chan ch).newest line).isNone then s.raise (chPSNRD ch) else s
    let r' := { r with
      be := fullBe
      data := mergeBytes r.be old.1 r.data
      poison := r.poison || (decide merges && ecc == .bad) || (old.2 && r.be != fullBe) }
    (s.wqPush ch r' key).memAccept r

end Sys2Proof.Machine
end

