-- ==== Sys2Proof/Machine/Xcp.lean ====
section
/-!
DEFINITION. The parity engine: deltas and parity updates (R260, R261), delta lines in the HMC (R263 to R266), rebuilds
(R267 to R271), resync (R273 to R276), and the commands of XCP_CMD (R277).
-/
namespace Sys2Proof.Machine

/-! ### Deltas -/

/-- The parity channel of a stripe is lost for it. -/
def State.parityLost (s : State) (g stripe : Nat) : Bool := s.lostFor (s.parityChan g stripe) g stripe

/-- A delta is dropped because its parity member is lost (R271). -/
def State.dropDelta (s : State) (g stripe : Nat) : State := (s.mark g stripe).raise XCP_STS.fDDROP

/-- A data write issues to the DRAM of a channel: the delta of old and new stored line goes to XCP (R260, R271). -/
def State.sendDelta (s : State) (ch line : Nat) (old new : LineData) : State :=
  if ch < 16 ∧ s.parMode ≠ 0 ∧ s.grpParity (s.groupOf ch) = true then
    let (g, st) := s.lineStripe line
    if s.parityLost g st then s.dropDelta g st
    else { s with xcp := { s.xcp with deltas := s.xcp.deltas ++ [⟨g, st, ch, old ^^^ new, true, none⟩] } }
  else s

/-- XCP holds a credit of a kind at a channel and takes it (R225, R267). -/
def State.xcpCredit (s : State) (ch kind : Nat) : Option State :=
  let n := s.pool xcpStop (mchStop ch) 1 kind
  if n = 0 then none else some (s.setPool xcpStop (mchStop ch) 1 kind (n - 1))

/-- Parity updates leave XCP in their order while it holds write credits (R267). -/
def State.updatesGo (s : State) : State :=
  let us := s.xcp.updates
  us.foldl (fun s d =>
    match (if d.sent then none else s.xcpCredit d.chan 3) with
    | some s => { s with xcp := { s.xcp with updates := s.xcp.updates ++ [{ d with sent := true }] } }
    | none => { s with xcp := { s.xcp with updates := s.xcp.updates ++ [d] } })
    { s with xcp := { s.xcp with updates := [] } }

/-- XCP or a slice sends a parity update to the parity channel; `fill` where it flushes a delta line whose way another waits for
(R261, R264). -/
def State.sendUpdateFor (s : State) (g stripe : Nat) (x : LineData) (fill : Option DeltaFill) : State :=
  State.updatesGo { s with xcp := { s.xcp with
    updates := s.xcp.updates ++ [⟨g, stripe, s.parityChan g stripe, x, false, fill⟩] } }

def State.sendUpdate (s : State) (g stripe : Nat) (x : LineData) : State := s.sendUpdateFor g stripe x none

/-- The deltas that XCP has sent for a stripe are not all acknowledged: an update is on its way, or a delta line waits for
its way (R264, R267). -/
def State.deltaOut (s : State) (g stripe : Nat) : Bool :=
  s.xcp.updates.any (fun d => (d.group == g && d.stripe == stripe) ||
    d.fill.any (fun f => f.group == g && f.stripe == stripe))

/-- A request of the parity engine to a channel, for a stripe (R261, R268, R269). -/
def xcpReq (wr : Bool) (g ch stripe : Nat) (x : LineData) : MemReq :=
  { wr := wr, chan := Fin.ofNat 80 ch, line := BitVec.ofNat 46 stripe, attr := ⟨false, 0, 0, 0, 3⟩, src := .xcp (BitVec.ofNat 1 g),
    be := fullBe, data := x, poison := false }

/-- A line that the parity engine writes to a member enters the member's write queue, unless its channel is lost. -/
def State.xcpQueue (s : State) (g ch stripe : Nat) (x : LineData) : State :=
  if s.chActive ch then s.wqPush ch (xcpReq true g ch stripe x) 0 else s

/-- The slice, set and tag of a stripe's delta line (R263). -/
def deltaSlice (g stripe : Nat) : Nat := (stripe ^^^ (16 * g)) % 32
def deltaSet (stripe : Nat) : Nat := stripe / 32 % 4096
def deltaTag (g stripe : Nat) : Nat := 2 * stripe + g

/-- The way that holds a stripe's delta line. -/
def State.deltaFind (s : State) (g stripe : Nat) : Option (Nat × HmcWay) :=
  let h := deltaSlice g stripe
  (List.range 16).findSome? (fun w => (s.hmcWay h (deltaSet stripe) w).bind (fun x =>
    if x.delta && x.line == deltaTag g stripe then some (w, x) else none))

/-- Remove a stripe's delta line. -/
def State.deltaDrop (s : State) (g stripe : Nat) : State :=
  match s.deltaFind g stripe with
  | some (w, _) => s.hmcPut (deltaSlice g stripe) (deltaSet stripe) w none
  | none => s

/-- A delta line enters a way. -/
def State.putDelta (s : State) (h set w g stripe : Nat) (x : LineData) : State :=
  s.hmcPut h set w (some ⟨deltaTag g stripe, false, false, x, true, .ok⟩)

/-- A delta is merged into the stripe's delta line that waits for its way (R264). -/
def State.mergeFill (s : State) (g stripe : Nat) (x : LineData) : State :=
  { s with xcp := { s.xcp with updates := s.xcp.updates.map (fun d => { d with fill := d.fill.map (fun f =>
      if f.group = g ∧ f.stripe = stripe then { f with x := f.x ^^^ x } else f) }) } }

/-- A delta is coalesced in the HMC, or goes to the parity channel; a delta line that it displaces is flushed, and the new
one takes the way once the parity channel has accepted the flush (R264). -/
def State.applyDelta (s : State) (g stripe : Nat) (x : LineData) : State :=
  let h := deltaSlice g stripe
  let set := deltaSet stripe
  if s.rd (halfState h) = HON ∧ s.rd XCP_CTL.DWAYS ≠ 0 then
    match s.deltaFind g stripe with
    | some (w, y) => s.hmcPut h set w (some { y with data := y.data ^^^ x })
    | none =>
      if s.xcp.updates.any (fun d => d.fill.any (fun f => f.group == g && f.stripe == stripe)) then s.mergeFill g stripe x
      else
        match s.hmcChoose h set (s.rd XCP_CTL.DWAYS) with
        | none => s.sendUpdate g stripe x
        | some w =>
          match (s.hmcWay h set w).filter (fun v => v.delta) with
          | some v => (s.hmcPut h set w none).sendUpdateFor (v.line % 2) (v.line / 2) v.data (some ⟨h, set, w, g, stripe, x⟩)
          | none => s.putDelta h set w g stripe x
  else s.sendUpdate g stripe x

/-- The flush of a delta line has been accepted: the line that waited for its way takes it (R264). -/
def State.fillDone (s : State) (fill : Option DeltaFill) : State :=
  match fill with
  | none => s
  | some f =>
    if s.grpParity f.group = false then s
    else if s.rd (halfState f.slice) = HON then s.putDelta f.slice f.set f.way f.group f.stripe f.x
    else s.sendUpdate f.group f.stripe f.x

/-- The rebuild that holds a stripe's lock (R267). -/
def State.stripeLock (s : State) (g stripe : Nat) : Option Rebuild :=
  s.xcp.rebuilds.find? (fun r => r.locked && r.group == g && r.stripe == stripe)

def State.setRebuild (s : State) (r : Rebuild) : State :=
  { s with xcp := { s.xcp with rebuilds := s.xcp.rebuilds.map (fun q =>
      if q.locked && q.group == r.group && q.stripe == r.stripe then r else q) } }

/-- A delta reaches XCP: held while its stripe is locked (R267), otherwise applied. -/
def State.takeDelta (s : State) (d : Delta) : State :=
  if s.grpParity d.group = false then s
  else if s.parityLost d.group d.stripe then s.dropDelta d.group d.stripe
  else
    match s.stripeLock d.group d.stripe with
    | some r => s.setRebuild { r with held := r.held ++ [⟨d.chan, d.x, !r.todo.contains (.chan d.chan)⟩] }
    | none => s.applyDelta d.group d.stripe d.x

/-- The oldest delta from a channel reaches XCP. -/
def State.deltaArrive (s : State) (ch : Nat) : State :=
  match s.xcp.deltas.find? (fun d => d.chan == ch) with
  | some d => { s with xcp := { s.xcp with deltas := s.xcp.deltas.erase d } }.takeDelta d
  | none => s

/-- The oldest parity update sent to a channel reaches it, once its write queue has room, and is XORed into the parity line as a
partial write is merged: a line that the merge finds uncorrectable takes the poison mark (R230, R261); the channel returns the
credit. -/
def State.updateArrive (s : State) (ch : Nat) (ecc : Ecc) : State :=
  match s.xcp.updates.find? (fun d => d.chan == ch && d.sent) with
  | some d =>
    if s.chActive ch = true ∧ s.wqRoom ch d.stripe = false then s
    else
      let s := { s with xcp := { s.xcp with updates := s.xcp.updates.erase d } }
      let s := s.putFlit (mchStop ch) xcpStop (.crd ⟨xcpStop, mchStop ch, 1, 2, 1, 0⟩)
      let s := if s.grpParity d.group = false then s
        else if s.parityLost d.group d.stripe ∨ s.chActive ch = false then s.dropDelta d.group d.stripe
        else
          let p := s.parityLine d.group d.stripe
          let s := if ecc = .corr then s.chCorr ch none else s
          (s.setParity d.group d.stripe ⟨p.data ^^^ d.x, p.poison || ecc == .bad⟩).xcpQueue d.group ch d.stripe (p.data ^^^ d.x)
      s.fillDone d.fill
  | none => s

/-! ### Rebuilds (R267, R268) -/

/-- The stored line of a data member of a stripe. -/
def State.memberStored (s : State) (g stripe ch : Nat) : LineData :=
  match s.memberLine g stripe ch with
  | some l => (s.cell l).stored l
  | none => (s.parityLine g stripe).data

/-- What a rebuild reads, in order (R268). A handed write reads no lost member: its own new line stands in its place. -/
def State.rebuildReads (s : State) (g stripe : Nat) (member : Option Nat) (without : Option Nat) : List Member :=
  match member with
  | some ch => [.delta, .chan (s.parityChan g stripe)] ++
      ((s.dataChans g stripe).filter (fun c => c != ch)).map (fun c => .chan c)
  | none => ((s.dataChans g stripe).filter (fun c => some c != without)).map (fun c => .chan c)

/-- A rebuild is put in line. -/
def State.addRebuild (s : State) (g stripe : Nat) (member : Option Nat) (without : Option Nat) (x : LineData)
    (why : RebuildFor) : State :=
  { s with xcp := { s.xcp with rebuilds := s.xcp.rebuilds ++
      [⟨g, stripe, member, false, s.rebuildReads g stripe member without,
        (s.rebuildReads g stripe member without).filter (fun m => m != .delta), x, [], why⟩] } }

/-- A handed-over read reaches XCP (R270). -/
def State.readHandover (s : State) (r : MemReq) : State :=
  match s.xcp.handed.find? (fun p => p.1 == r) with
  | none => s
  | some p =>
    let s := { s with xcp := { s.xcp with handed := s.xcp.handed.erase p } }
    let (g, st) := s.lineStripe r.line.toNat
    s.addRebuild g st (some r.chan.val) none 0 (.read r s.now.toNat)

/-- A handed-over write reaches XCP (R271): the parity member is rebuilt with the new line in the lost member's place. -/
def State.writeHandover (s : State) (r : MemReq) : State :=
  match s.xcp.handed.find? (fun p => p.1 == r) with
  | none => s
  | some p =>
    let s := { s with xcp := { s.xcp with handed := s.xcp.handed.erase p } }
    let (g, st) := s.lineStripe r.line.toNat
    if r.be = fullBe then
      s.addRebuild g st none (some r.chan.val) (xtsLine p.2 r.line.toNat r.data) (.write r p.2)
    else
      -- a partial write merges into the rebuilt line of the lost member
      s.addRebuild g st (some r.chan.val) none 0 (.write r p.2)

/-- The member reads of a locked rebuild leave XCP in their order while it holds read credits (R267), the delta line having been
read before the others (R268). -/
def State.readsOf (s : State) (r : Rebuild) : State :=
  if r.locked = false ∨ r.todo.contains .delta then s
  else
    let p := r.unsent.foldl (fun (p : State × List Member) m =>
      match m with
      | .chan ch =>
        (match p.1.xcpCredit ch 2 with
        | some s' => (s'.putFlit xcpStop (mchStop ch) (.mem (xcpReq false r.group ch r.stripe 0)), p.2)
        | none => (p.1, p.2 ++ [m]))
      | .delta => p) (s, [])
    p.1.setRebuild { r with unsent := p.2 }

/-- What waits in XCP for a credit leaves (R267). -/
def State.xcpGo (s : State) : State :=
  let s := s.updatesGo
  s.xcp.rebuilds.foldl (fun s r => s.readsOf r) s

/-- The first waiting rebuild of a stripe takes the stripe's lock and sends its member reads, once no delta or update of the
stripe is unacknowledged and an engine is free (R267). -/
def State.rebuildLock (s : State) (g stripe : Nat) : State :=
  let x := s.xcp
  if (s.stripeLock g stripe).isSome ∨ s.deltaOut g stripe ∨
      32 ≤ (x.rebuilds.filter (fun r => r.locked)).length then s.xcpGo
  else
    match x.rebuilds.find? (fun r => r.group == g && r.stripe == stripe) with
    | none => s
    | some r =>
      State.xcpGo { s with xcp := { x with rebuilds := { r with locked := true } :: x.rebuilds.erase r } }

/-- The stripe's lock is released: held deltas that must be kept are forwarded (R268). -/
def State.rebuildEnd (s : State) (r : Rebuild) : State :=
  let s := { s with xcp := { s.xcp with rebuilds := s.xcp.rebuilds.filter (fun q =>
    !(q.locked && q.group == r.group && q.stripe == r.stripe)) } }
  let keep := match r.member with
    | some _ => r.held
    | none => r.held.filter (fun d => d.late)
  keep.foldl (fun s d => s.applyDelta r.group r.stripe d.x) s

/-- The result of a data member's rebuild, with the held deltas that its reads already contain (R268). -/
def Rebuild.result (r : Rebuild) : LineData :=
  match r.member with
  | some _ => (r.held.filter (fun d => !d.late)).foldl (fun a d => a ^^^ d.x) r.acc
  | none => r.acc

/-- The line's lost member cannot be rebuilt: a delta line of its stripe was lost (R266), or its parity line carries the
poison mark (assumption 77). -/
def State.memberDead (s : State) (g stripe : Nat) : Bool :=
  s.xcp.dead.contains (g, stripe) || (s.parityLine g stripe).poison

/-- A lost line as rebuilt from its stripe, under the key of an entry. -/
def State.rebuilt (s : State) (line enc : Nat) (x : LineData) : LineData :=
  (xtsLine (s.keyId enc) line).symm x

/-- A parity member is written, and the stripe's delta line is invalidated (R268). -/
def State.putParity (s : State) (g stripe : Nat) (x : LineData) : State :=
  ((s.deltaDrop g stripe).setParity g stripe ⟨x, false⟩).xcpQueue g (s.parityChan g stripe) stripe x

/-- The mark of a lost member's line, which no rebuild clears (R502): kept with the line. -/
def State.setMarkOf (s : State) (line : Nat) (psn : Bool) : State := s.putCell line { s.cell line with poison := psn }

/-- The last member has answered: the rebuilt line goes where it is wanted (R268, R270, R271). -/
def State.rebuildDone (s : State) (r : Rebuild) : State :=
  let g := r.group
  let st := r.stripe
  match r.why with
  | .read q since =>
    let line := q.line.toNat
    let psn := (s.cell line).poison || s.memberDead g st
    let d := s.rebuilt line q.attr.enc.toNat r.result
    let s := ((s.rebuildEnd r).raise XCP_STS.fRECON).count bankXcp 1 0 (some q.attr)
    let s := s.wr XCP_LAT.MAX_NS (max (s.rd XCP_LAT.MAX_NS) (s.now.toNat - since))
    if s.memberDead g st then s.memAnswer q onesLine true 1
    else s.memAnswer q d psn (if psn then 1 else 0)
  | .write q key =>
    let line := q.line.toNat
    match r.member with
    | none =>
      let s := (s.putParity g st r.result).setMarkOf line q.poison
      let s := { s with xcp := { s.xcp with dead := s.xcp.dead.erase (g, st) } }
      ((s.rebuildEnd r).raise XCP_STS.fDWRITE).memAccept q
    | some ch =>
      let old := s.rebuilt line q.attr.enc.toNat r.result
      let d := mergeBytes q.be old q.data
      let psn := q.poison || (s.cell line).poison || s.memberDead g st
      let p := (s.parityLine g st).data ^^^ (match s.deltaFind g st with | some (_, y) => y.data | none => 0)
      let s := (s.putParity g st (p ^^^ r.result ^^^ xtsLine key line d)).setMarkOf line psn
      let _ := ch
      ((s.rebuildEnd r).raise XCP_STS.fDWRITE).memAccept q
  | .parity => (s.putParity g st r.result).rebuildEnd r

/-- A member's answer cannot arrive yet: deltas of the stripe that its channel sent earlier travel on the same route, and
a delta flushed to the parity channel is held there before its line is read (R261, R268). -/
def State.answerBehind (s : State) (g stripe : Nat) (m : Member) : Bool :=
  match m with
  | .delta => false
  | .chan ch => s.xcp.deltas.any (fun d => d.chan == ch && d.group == g && d.stripe == stripe) ||
      s.xcp.updates.any (fun d => d.chan == ch && d.group == g && d.stripe == stripe)

/-- The member read of a stripe that a channel has issued to its DRAM, or answers from its write queue. -/
def State.memberRead (s : State) (g stripe ch : Nat) : Option RdEnt :=
  (s.chan ch).rq.find? (fun e => e.issued && e.req == xcpReq false g ch stripe 0)

/-- A member read of a locked rebuild is answered (R268): the delta line's, or one that its channel has issued; an uncorrectable
one is issued once more, and then freezes its channel (R243, R270). -/
def State.memberAnswer (s : State) (g stripe : Nat) (m : Member) (e : DramErr) (syn : Nat) : State :=
  match s.stripeLock g stripe with
  | none => s
  | some r =>
    if r.todo.contains m = false ∨ s.answerBehind g stripe m then s
    else
      let got (s : State) (x : LineData) : State :=
        let r := { r with todo := r.todo.erase m, acc := r.acc ^^^ x }
        if r.todo.isEmpty then s.rebuildDone r else (s.setRebuild r).readsOf r
      match m with
      | .delta => got s (match s.deltaFind g stripe with
        | some (_, y) => y.data
        | none => 0)
      | .chan ch =>
        match s.memberRead g stripe ch with
        | none => s
        | some rd =>
          let ecc := s.eccOf ch e
          let line := s.memberLine g stripe ch
          if ecc = .bad ∧ rd.retried = false then
            s.setChan ch { s.chan ch with rq := (s.chan ch).rq.map (fun q => if q.seq = rd.seq then { q with retried := true } else q) }
          else
            let s := (s.setChan ch { s.chan ch with rq := (s.chan ch).rq.erase rd }).memCredit rd.req
            if ecc = .bad then
              let s := (s.raise (chUECC ch)).freeze ch ⟨1, 1, line, 0, syn⟩
              if s.rd (grpState g) = GBROKEN then s else s.breakGroup g
            else
              let s := if ecc = .corr ∨ rd.retried then s.chCorr ch line else s
              got s (s.memberStored g stripe ch)

/-- A delta line is uncorrectable (R266): in NORMAL the parity member is rebuilt; where the lost channel holds a data
member of the stripe, that member is lost: it takes the poison mark once the channel returns, at once in RESYNC. -/
def State.deltaBad (s : State) (g stripe : Nat) : State :=
  match s.deltaFind g stripe with
  | none => s
  | some _ =>
    let s := s.deltaDrop g stripe
    let s := (s.raise XCP_STS.fDUNCORR).report { rec0 .error 7 g 4 with detail := [stripe] }
    if s.rd (grpState g) = GNORMAL ∨ s.xcp.parOnly g then s.addRebuild g stripe none none 0 .parity
    else
      match (if s.grpParity g then s.memberLine g stripe (s.rd (grpLost g)) else none) with
      | some l => if s.rd (grpState g) = GRESYNC then s.setMarkOf l true
        else { s with xcp := { s.xcp with dead := s.xcp.dead ++ [(g, stripe)] } }
      | none => s

/-! ### Resync (R273 to R276) -/

/-- The lowest marked block of a map. -/
def lowestBit (m : BitVec 2097152) : Nat := Nat.log2 (m &&& (-m)).toNat

/-- XCP_STATE.BUSY: INIT, resync or a poison pass runs in either group (R277). -/
def State.xcpBusy (s : State) : State :=
  let b (g : Nat) : Bool :=
    let st := s.rd (grpState g)
    st == GINIT || st == GRESYNC || s.xcp.pass g
  s.wr XCP_STATE.BUSY (if b 0 || b 1 then 1 else 0)

/-- The lost channel of a group has returned (R273): its group enters RESYNC, and lines that could not be rebuilt take
the poison mark (R266). -/
def State.groupReturn (s : State) (ch : Nat) : State :=
  if ch < 16 ∧ s.parMode ≠ 0 then
    let g := s.groupOf ch
    if s.rd (grpState g) = GDEGRADED ∧ s.rd (grpLost g) = ch then
      let mine := s.xcp.dead.filter (fun p => p.1 == g)
      let s := { s with xcp := { s.xcp with dead := s.xcp.dead.filter (fun p => p.1 != g) } }
      let s : State := mine.foldl (fun s p => match s.memberLine g p.2 ch with
        | some l => s.setMarkOf l true
        | none => s) s
      let s := s.setCur g 0
      if s.xcp.map g = 0 then ((s.wr (grpState g) GNORMAL).raise XCP_STS.fRSDONE).xcpBusy
      else (s.wr (grpState g) GRESYNC).xcpBusy
    else s
  else s

/-- The next stripe of a marked block is done; the last one clears the block's bit (R273). -/
def State.resyncNext (s : State) (g blk : Nat) : State :=
  if s.xcp.cur g + 1 < 4096 then s.setCur g (s.xcp.cur g + 1)
  else
    let s := s.setMap g (clrBit (s.xcp.map g) blk) (s.rd (XCP_RS.REMAIN g) - 1)
    let s := s.setCur g 0
    if s.xcp.map g = 0 then
      if s.rd (grpState g) = GRESYNC then
        (((s.setParOnly g false).wr (grpState g) GNORMAL).raise XCP_STS.fRSDONE).xcpBusy
      else (s.setPass g false).xcpBusy
    else s

/-- The XOR of every member of a stripe but one (none: but the parity member), with the stripe's delta line. -/
def State.xorOthers (s : State) (g stripe : Nat) (ch : Option Nat) : LineData :=
  let ds := ((s.dataChans g stripe).filter (fun c => some c != ch)).foldl (fun a c => a ^^^ s.memberStored g stripe c) 0
  match ch with
  | none => ds
  | some _ => ds ^^^ (s.parityLine g stripe).data ^^^
      (match s.deltaFind g stripe with | some (_, y) => y.data | none => 0)

/-- The block that resync works on: the one it is in the middle of, else the lowest one marked (R273). -/
def State.resyncBlock (s : State) (g : Nat) : Nat :=
  let c := s.rd (XCP_RS.CURSOR g)
  if s.xcp.cur g ≠ 0 ∧ (s.xcp.map g).getLsbD c then c else lowestBit (s.xcp.map g)

/-- The member that resync rebuilds of a stripe: the lost channel's data member, or none for the parity member (R273, R276). -/
def State.resyncMember (s : State) (g stripe : Nat) : Option Nat :=
  if s.xcp.parOnly g then none
  else if (s.memberMla g stripe (s.rd (grpLost g))).isSome then some (s.rd (grpLost g)) else none

/-- Resync rebuilds a stripe's member and writes it (R268, R273): with an error in a member read, which is corrected, or freezes
its channel (R243, R275). A member that cannot be rebuilt takes the poison mark (R266). -/
def State.resyncWrite (s : State) (g stripe blk : Nat) (bad : Option Nat) (e : DramErr) : State :=
  let ch := s.resyncMember g stripe
  let reads := s.rebuildReads g stripe ch none
  let err := bad.filter (fun b => reads.contains (.chan b))
  match err, err.map (fun b => s.eccOf b e) with
  | some b, some .bad =>
    let s := (s.raise (chUECC b)).freeze b ⟨1, 1, s.memberLine g stripe b, 0, 0⟩
    if s.rd (grpState g) = GBROKEN then s else s.breakGroup g
  | _, c =>
    let s := match err, c with
      | some b, some .corr => s.chCorr b (s.memberLine g stripe b)
      | _, _ => s
    match ch.bind (s.memberLine g stripe) with
    | some l =>
      let x := s.xorOthers g stripe ch
      ((s.putCell l (MemLine.ofStored l x ((s.cell l).poison || s.memberDead g stripe))).xcpQueue g (ch.getD 0) stripe x).resyncNext
        g blk
    | none => (s.putParity g stripe (s.xorOthers g stripe none)).resyncNext g blk

/-- Rebuilds of reads pass ahead of resync, which also needs an engine and the stripe for itself (R267, R274). -/
def State.resyncHeld (s : State) (g stripe : Nat) : Bool :=
  s.xcp.rebuilds.any (fun r => match r.why with
    | .read _ _ => true
    | _ => false) ||
  decide (32 ≤ (s.xcp.rebuilds.filter (fun r => r.locked)).length) || (s.stripeLock g stripe).isSome || s.deltaOut g stripe ||
  s.xcp.deltas.any (fun d => d.group == g && d.stripe == stripe)

/-- One stripe of a resync (R273), of a parity rebuild (R276), or of the poison pass of a BROKEN group (R275); a member read may
meet an error. -/
def State.resyncStripe (s : State) (g : Nat) (bad : Option Nat) (e : DramErr) : State :=
  let st := s.rd (grpState g)
  if s.xcp.map g = 0 then s
  else
    let blk := s.resyncBlock g
    let stripe := 4096 * blk + s.xcp.cur g
    let s' := s.wr (XCP_RS.CURSOR g) blk
    if st = GBROKEN then
      (if s.xcp.pass g = false then s
      else match s'.memberLine g stripe (s.rd (grpLost g)) with
        | some l => (s'.setMarkOf l true).resyncNext g blk
        | none => s'.resyncNext g blk)
    else if st = GRESYNC then (if s.resyncHeld g stripe then s else s'.resyncWrite g stripe blk bad e)
    else s

/-! ### Commands (R259, R274, R276, R277) -/

/-- The groups of the mode. -/
def State.groups (s : State) : List Nat := if s.parMode = 2 then [0, 1] else [0]

def State.xcpCheck (s : State) (op g : Nat) : Nat :=
  match op with
  | 1 => if s.rd HUB_PKG_MODE.PKG_MODE = 2 ∧ s.groups.all (fun k => s.rd (grpState k) == GOFF) ∧ s.parMode ≠ 0 then OK
      else ESTATE
  | 2 => if s.rd (grpState g) = GBROKEN ∧ (s.groupMembers g).all (fun c => s.chActive c) ∧ s.stopState xcpStop ≠ 3
      then OK else ESTATE
  | _ => if s.rd (grpState g) = GDEGRADED then OK else ESTATE

def State.xcpAct (s : State) (op g : Nat) : State :=
  match op with
  | 1 => s.wr (grpState g) GINIT
  | 2 => ((((s.setMap g (~~~0) 2097152).setCur g 0).setParOnly g true).setPass g false).wr (grpState g) GRESYNC
  | _ => s.setMap g (~~~0) 2097152

/-- A command of XCP_CMD on the groups of a mask (R277). -/
def State.xcpCmd (s : State) (op m : Nat) : State :=
  let fin (s : State) (sts : Nat) : State :=
    let s := s.wr XCP_STATE.LAST_STS sts
    if sts = OK then s else s.logCmd 7 0 sts
  if op = 0 ∨ 3 < op ∨ m = 0 ∨ 3 < m ∨ (s.parMode ≠ 2 ∧ m.testBit 1) then fin s EINVAL
  else
    let gs := [0, 1].filter (fun g => m.testBit g)
    match (gs.map (fun g => s.xcpCheck op g)).find? (fun v => v != OK) with
    | some v => fin s v
    | none => fin (gs.foldl (fun s g => s.xcpAct op g) s).xcpBusy OK

/-- The INIT fill ends (R259): every line of every channel that is not FENCED is zero as stored; each group is NORMAL,
or DEGRADED with one FENCED member. What the fill leaves reads as memory that nothing has written (assumption 4). -/
def State.initDone (s : State) : State :=
  let gs := s.groups.filter (fun g => s.rd (grpState g) == GINIT)
  let s := gs.foldl (fun s g =>
    let lost := (s.groupMembers g).filter (fun c => !s.chActive c)
    match lost with
    | [] => s.wr (grpState g) GNORMAL
    | [c] => (s.wr (grpState g) GDEGRADED).wr (grpLost g) c
    | _ => s.breakGroup g) s
  let s := if gs.isEmpty then s else
    { s with mem := s.mem.filter (fun e => decide (regionOf (e.1 * 64) ≠ .ddr)), parity := [] }
  s.xcpBusy

/-- A write of XCP_CTL (R277): DWAYS only while both HMC halves are OFF (R263); a mode other than OFF only while the
interleave set has sixteen channels (R254); MODE is locked by LOCK. -/
def State.xcpCtlWrite (s : State) (v : Nat) : State :=
  let off := s.rd HMC_STATE.STATE_N = HOFF ∧ s.rd HMC_STATE.STATE_S = HOFF
  let dw := v / 256 % 65536
  let s' := if off then s.wr XCP_CTL.DWAYS dw
    else if dw = s.rd XCP_CTL.DWAYS then s else s.logReg (0xFFE0000000000 + XCP_CTL.DWAYS.addr)
  let rs := v / 16 % 16
  let s' := if rs = 0 then s'.logReg (0xFFE0000000000 + XCP_CTL.DWAYS.addr) else s'.wr XCP_CTL.RS_SHARE rs
  let md := v % 4
  let lk := s.on XCP_CTL.LOCK
  let s' := if lk then (if md = s.rd XCP_CTL.MODE then s' else s'.logReg (0xFFE0000000000 + XCP_CTL.DWAYS.addr))
    else if md = 3 ∨ (md ≠ 0 ∧ (List.range 16).any (fun k => s.rd (MCH_MAP.CHW k) != 0)) then
      s'.logReg (0xFFE0000000000 + XCP_CTL.DWAYS.addr)
    else s'.wr XCP_CTL.MODE md
  if v.testBit 31 ∧ lk = false then s'.wr XCP_CTL.LOCK 1 else s'

/-! ### The rows -/

def execXcpInit (m : BitVec 2) (s : State) : Host.Outcome State Fault Refusal := s.ifRuns fun s => (s.xcpCmd 1 m.toNat)

def execXcpInitDone (s : State) : Host.Outcome State Fault Refusal := s.ifRuns fun s => s.initDone

def execXcpRebuild (m : BitVec 2) (s : State) : Host.Outcome State Fault Refusal := s.ifRuns fun s => (s.xcpCmd 2 m.toNat)

def execXcpMarkAll (m : BitVec 2) (s : State) : Host.Outcome State Fault Refusal := s.ifRuns fun s => (s.xcpCmd 3 m.toNat)

def execXcpCtlWrite (v : BitVec 32) (s : State) : Host.Outcome State Fault Refusal := s.ifRuns fun s => (s.xcpCtlWrite v.toNat)

def execXcpDeltaArrive (ch : Chan) (s : State) : Host.Outcome State Fault Refusal := s.ifRuns fun s => (s.deltaArrive ch.val)

def execParityUpdateArrive (x : ParityRead) (s : State) : Host.Outcome State Fault Refusal :=
  s.ifRuns fun s => (s.updateArrive x.ch.val (s.eccOf x.ch.val x.e))

def execDeltaLineUncorrectable (g : BitVec 1) (stripe : BitVec 40) (s : State) : Host.Outcome State Fault Refusal :=
  s.ifRuns fun s => (s.deltaBad g.toNat stripe.toNat)

def execXcpReadHandover (r : MemReq) (s : State) : Host.Outcome State Fault Refusal := s.ifRuns fun s => (s.readHandover r)

def execXcpWriteHandover (r : MemReq) (s : State) : Host.Outcome State Fault Refusal := s.ifRuns fun s => (s.writeHandover r)

def execXcpRebuildLock (g : BitVec 1) (stripe : BitVec 40) (s : State) : Host.Outcome State Fault Refusal :=
  s.ifRuns fun s => (s.rebuildLock g.toNat stripe.toNat)

def execXcpMemberAnswer (g : BitVec 1) (stripe : BitVec 40) (x : MemberFound) (s : State) :
    Host.Outcome State Fault Refusal :=
  s.ifRuns fun s => (s.memberAnswer g.toNat stripe.toNat (match x.m with
    | some ch => .chan ch.toNat
    | none => .delta) x.e x.syn.toNat)

def execResyncStripe (x : ResyncRead) (s : State) : Host.Outcome State Fault Refusal :=
  s.ifRuns fun s => (s.resyncStripe x.g.toNat (x.m.map (fun ch => ch.toNat)) x.e)

end Sys2Proof.Machine
end

