-- ==== Sys2Proof/Machine/Caches.lean ====
section
/-!
DEFINITION. The commands of the caches: evictions and prefetches (R121, R122, R124), the states of the HMC's halves
(R139 to R145), its seeds and way masks (R131, R134), and errors in cache arrays (R151).
-/
namespace Sys2Proof.Machine

/-- The prefetcher of a kind is enabled and reaches from one line to another (R124): 0 the L1D's stride prefetcher, 1 the L2's
stream prefetcher, up to PF_DIST lines away (assumption 68), others the other line of an L2 miss's aligned pair. -/
def State.prefetches (s : State) (c kind near line : Nat) : Bool :=
  match kind with
  | 0 => s.on (CACHE_CTL.PF_L1 c)
  | 1 => s.on (CACHE_CTL.PF_L2 c) && decide (line ≤ near + s.rd (CACHE_CTL.PF_DIST c)) &&
      decide (near ≤ line + s.rd (CACHE_CTL.PF_DIST c))
  | _ => s.on (CACHE_CTL.PF_ADJ c) && near / 2 == line / 2 && near != line

/-- A hardware prefetch: within the page of the access that led to it, where its prefetcher is enabled (R124). -/
def State.hwPrefetch (s : State) (c : Nat) (near va : Nat) (own : Bool) (kind : Nat) : State :=
  if near / 4096 ≠ va / 4096 ∨ s.prefetches c kind (near / 64) (va / 64) = false ∨ s.coreRuns c = false then s
  else s.prefetch c va own true true

def execHwPrefetch (c : Core) (near va : BitVec 64) (own : Bool) (kind : BitVec 2) (s : State) :
    Host.Outcome State Fault Refusal :=
  s.ifRuns fun s => (s.hwPrefetch c.val near.toNat va.toNat own kind.toNat)

/-- The L3 of a die evicts a line (R121). -/
def execL3Evict (t : Tcd) (line : LineAddr) (s : State) : Host.Outcome State Fault Refusal :=
  s.ifRuns fun s => (s.l3Evict t.val line.toNat)

def execL2Evict (c : Core) (line : LineAddr) (s : State) : Host.Outcome State Fault Refusal :=
  s.ifRuns fun s => (s.l2Evict c.val line.toNat)

/-- A dirty victim is accepted (R135). -/
def execHmcVictimAccepted (h : Slice) (line : LineAddr) (s : State) : Host.Outcome State Fault Refusal :=
  s.ifRuns fun s => (match s.lock? h.val line.toNat with
    | some l => if l.txn = .victim then s.victimAccepted h.val line.toNat else s
    | none => s)

/-! ### The halves (R139 to R145) -/

/-- The slices of a half: 0 HMC-N, 1 HMC-S. -/
def halfSlices (x : Nat) : List Nat := (List.range 16).map (fun h => 16 * x + h)

/-- The halves that a mask names. -/
def halvesOf (m : Nat) : List Nat := (List.range 2).filter (fun x => m.testBit x)

/-- The status that one half gives a command: its power, then its state (R140). -/
def State.hmcCheck (s : State) (op x : Nat) : Nat :=
  let st := s.rd (halfState (16 * x))
  if s.rd (PMC_DOM.STATE (14 + x)) ≠ 2 then DOMAIN_OFF
  else if op = 1 then (if st = HOFF then OK else ESTATE)
  else if op = 2 then (if st = HON then OK else ESTATE)
  else if st = HDRAINED ∨ st = HOFF then OK else ESTATE

/-- BUSY shows a sweep or an invalidation in either half. -/
def State.hmcBusy (s : State) : State :=
  let b (x : Nat) : Bool := s.rd (halfState (16 * x)) == HDRAIN || s.rd (halfState (16 * x)) == HINVAL
  s.wr HMC_STATE.BUSY (if b 0 || b 1 then 1 else 0)

/-- The command acts on one half. -/
def State.hmcAct (s : State) (op x : Nat) : State :=
  match op with
  | 1 => s.wr (halfState (16 * x)) HON
  | 2 => { s.wr (halfState (16 * x)) HDRAIN with
      hsweep := (halfSlices x).foldl (fun t h => Tbl.set t h 0) s.hsweep }
  | _ => s.wr (halfState (16 * x)) HINVAL

/-- A command of HMC_CMD: format, then every named half is checked, then all act or none (R140, R141). -/
def State.hmcCmd (s : State) (op m : Nat) : State :=
  let fin (s : State) (sts : Nat) : State :=
    let s := s.wr HMC_STATE.LAST_STS sts
    if sts = OK then s else s.logCmd 2 0 sts
  if op = 0 ∨ 3 < op ∨ m % 4 = 0 then fin s EINVAL
  else
    match ((halvesOf m).map (fun x => s.hmcCheck op x)).find? (fun v => v != OK) with
    | some v => fin s v
    | none => fin ((halvesOf m).foldl (fun s x => s.hmcAct op x) s).hmcBusy OK

def execHmcEnable (half : BitVec 2) (s : State) : Host.Outcome State Fault Refusal := s.ifRuns fun s => (s.hmcCmd 1 half.toNat)

def execHmcDisable (half : BitVec 2) (s : State) : Host.Outcome State Fault Refusal := s.ifRuns fun s => (s.hmcCmd 2 half.toNat)

def execHmcInvalidate (half : BitVec 2) (s : State) : Host.Outcome State Fault Refusal :=
  s.ifRuns fun s => (s.hmcCmd 3 half.toNat)

/-- The attributes of a write that a sweep makes: QOS 0 (R142). -/
def sweepAttr : Attr := ⟨false, 0, 0, 0, 0⟩

/-- The line's channel is in self-refresh. -/
def State.asleep (s : State) (line : Nat) : Bool := !isCxlLine line && (s.chan (s.chanOf line)).sref

/-- The sweep of a draining slice visits one set: each dirty line is sent to its channel and marked clean; it waits for
the fills whose victim was chosen before, for a line whose lock is held, and for a channel in self-refresh (R142, R145). A
line that is written holds its lock until the write is accepted (assumption 53). -/
def State.hmcSweep (s : State) (h : Nat) : State :=
  match Tbl.get? s.hsweep h with
  | none => s
  | some set =>
    if s.rd (halfState h) ≠ HDRAIN ∨ (s.home h).fills.isEmpty = false then s
    else
      -- delta lines are flushed to their parity channels (R265)
      let deltas := (List.range 16).filterMap (fun w => (s.hmcWay h set w).bind (fun x =>
        if x.delta then some (w, x) else none))
      let s := deltas.foldl (fun s p =>
        (s.sendUpdate (p.2.line % 2) (p.2.line / 2) p.2.data).hmcPut h set p.1 none) s
      let dirty := (List.range 16).filterMap (fun w => (s.hmcWay h set w).bind (fun x =>
        if x.dirty && !x.delta then some (w, x) else none))
      if dirty.any (fun p => s.locked h p.2.line || s.asleep p.2.line) then s
      else
        let s := dirty.foldl (fun s p =>
          let s := s.setLock h (Lock.new p.2.line .sweep .wr [])
          let s := s.hmcPut h set p.1 (some { p.2 with dirty := false })
          match s.chanWrite p.2.line fullBe p.2.data p.2.poison sweepAttr (.sweep (Fin.ofNat 32 h)) with
          | (s, true) => s.release h p.2.line none
          | (s, false) => s) s
        { s with hsweep := if set + 1 < 4096 then Tbl.set s.hsweep h (set + 1) else Tbl.erase s.hsweep h }

/-- The last dirty line of a draining half has been accepted (R142). -/
def State.drained (s : State) (x : Nat) : Bool :=
  s.rd (halfState (16 * x)) == HDRAIN && s.rd (halfDirty (16 * x)) == 0 &&
  (halfSlices x).all (fun h => (s.home h).locks.all (fun l => l.txn != .sweep) && (Tbl.get? s.hsweep h).isNone)

def execHmcDrainDone (half : BitVec 2) (s : State) : Host.Outcome State Fault Refusal :=
  s.ifRuns fun s => ((halvesOf half.toNat).foldl (fun s x =>
    if s.drained x then (s.wr (halfState (16 * x)) HDRAINED).hmcBusy else s) s)

/-- Every way of a half is cleared and its dirty count is zero. -/
def State.hmcClear (s : State) (x : Nat) : State :=
  let b := x * 16 * 4096 * 16
  { s with hmc := s.hmc.filter (fun e => decide (e.1 < b) || decide (b + 16 * 4096 * 16 ≤ e.1)) }.wr
    (halfDirty (16 * x)) 0

def execHmcInvalidateDone (half : BitVec 2) (s : State) : Host.Outcome State Fault Refusal :=
  s.ifRuns fun s => ((halvesOf half.toNat).foldl (fun s x =>
    if s.rd (halfState (16 * x)) = HINVAL then ((s.hmcClear x).wr (halfState (16 * x)) HOFF).hmcBusy else s) s)

/-- A write of HMC_SEED: Secure with ENC 0 only; zero leaves the LFSR and is logged (R131, R153, R322). -/
def State.hmcSeed (s : State) (h v : Nat) (a : Attr) : State :=
  if a.world = false ∨ a.enc ≠ 0 then
    s.refuseDev a.world a.enc.toNat (0xFFE0000000000 + (HMC_SEED.SEED h).addr) 0
  else if v = 0 then s.logReg (0xFFE0000000000 + (HMC_SEED.SEED h).addr)
  else { s with lfsr := Tbl.put s.lfsr h 0 v }

def execHmcSeedWrite (h : Slice) (v : BitVec 32) (a : Attr) (s : State) : Host.Outcome State Fault Refusal :=
  s.ifRuns fun s => (s.hmcSeed h.val v.toNat a)

/-- A write of a way mask evicts nothing (R134). -/
def execHmcWaymaskWrite (cls : BitVec 4) (v : BitVec 32) (s : State) : Host.Outcome State Fault Refusal :=
  s.ifRuns fun s => (s.wr (HMC_WAYMASK.MASK cls.toNat) v.toNat)

/-! ### Errors in cache arrays (R151) -/

/-- The correctable-error record of a die's array; a tag error names no line (R152). -/
def State.dieCorr (s : State) (inst : Nat) (line : Option Nat) : State :=
  s.report { rec0 .corr 0x10 inst 0 with addr := line.map (fun l => l * 64), detail := [0] }

/-- A line of a private array becomes invalid: in an L1 the way alone, in an L2 as an eviction (R122, R151). -/
def State.privDrop (s : State) (c a line : Nat) : State :=
  if a = 2 then s.l2Evict c line else s.arrDrop (coreArr c a) line

/-- The record of a dirty line of a die that an uncorrectable error poisons (R151, R497). -/
def State.dieUncorr (s : State) (inst line : Nat) (x : L3Line) : State :=
  s.report { rec0 .error 0x10 inst 0 with
    addr := some (line * 64), world := x.attr.world, enc := x.attr.enc.toNat, detail := [0] }

/-- An error in a line of the HMC. -/
def State.hmcError (s : State) (h line : Nat) (uncorr : Bool) : State :=
  match s.hmcFind h line with
  | none => s
  | some w =>
    match s.hmcWay h (hmcSet line) w with
    | none => s
    | some x =>
      if uncorr ∧ x.dirty then
        ((s.hmcPut h (hmcSet line) w (some { x with poison := true })).raise HMC_STS.fUNCORR).report
          { rec0 .error 2 h 1 with addr := some (line * 64) }
      else
        let s := if uncorr then s.hmcPut h (hmcSet line) w none else s
        (s.raise HMC_STS.fCORR).report { rec0 .corr 2 h 0 with addr := some (line * 64) }

/-- A data error in an array: 0 L1D, 1 L1I, 2 L2 of core u; 3 the L3 of die u; 4 the HMC; 5 the MOT cache of slice u, where
the line is the table's own (R321). Corrected, or a clean line is invalidated, or a dirty one is poisoned; an access to an
invalidated line finds it in the next level. Parity detects only, so that an error of L1I always invalidates (R119). -/
def State.cacheError (s : State) (arr u line : Nat) (uncorr : Bool) : State :=
  match arr with
  | 0 | 2 =>
    let t := dieOf u
    (match s.l3At t line with
    | none => s
    | some x =>
      if uncorr then
        if x.excl = some (u % 24) ∧ (x.st = .m) then (s.l3Put t line { x with poison := true }).dieUncorr u line x
        else (s.privDrop u arr line).dieCorr u (some line)
      else s.dieCorr u (some line))
  | 1 => (s.privDrop u 1 line).dieCorr u (some line)
  | 3 =>
    (match s.l3At u line with
    | none => s
    | some x =>
      if uncorr then
        if x.st = .m ∨ x.st = .o then (s.l3Put u line { x with poison := true }).dieUncorr 0xFFFF line x
        else (s.l3Drop u line).dieCorr 0xFFFF (some line)
      else s.dieCorr 0xFFFF (some line))
  | 5 => s.motParity (u % 32) line
  | _ => s.hmcError (homeOf line) line uncorr

def execCacheDataError (arr : BitVec 3) (u : BitVec 9) (line : LineAddr) (uncorr : Bool) (s : State) :
    Host.Outcome State Fault Refusal :=
  s.ifRuns fun s => (s.cacheError arr.toNat u.toNat line.toNat uncorr)

end Sys2Proof.Machine
end

