-- ==== Sys2Proof/Machine/Channels.lean ====
section
/-!
DEFINITION. The commands of the memory channels: arrivals, scheduling (R226, R227, R229), DRAM data (R235, R243),
refresh (R231, R232), row disturbance (R233, R234), scrub, retries, freezes and recovery (R247, R248).
-/
namespace Sys2Proof.Machine

/-! ### Scheduling -/

/-- An activate-count entry of a bank has reached the threshold, and its neighbour refresh is due (R234). -/
def State.disturbDue (s : State) (ch bank : Nat) : Bool :=
  s.on (rdEn ch) && (Tbl.getD (s.chan ch).acts bank []).any (fun e => decide (s.rd (rdThr ch) ≤ e.count))

/-- A bank is in in-order mode (R229): a queued read matches the bank and row of an earlier queued write. -/
def State.inOrder (s : State) (ch bank : Nat) : Bool :=
  let x := s.chan ch
  x.rq.any (fun r =>
    let l := s.reqLoc r.req
    decide (l.bank = bank) &&
    x.wq.any (fun w =>
      let k := s.reqLoc w.req
      decide (w.seq < r.seq) && decide (k.bank = bank) && decide (k.row = l.row)))

/-- The oldest command of a bank that has not issued. -/
def State.bankHead (s : State) (ch bank : Nat) : Option Nat :=
  let x := s.chan ch
  let a := (x.rq.filter (fun r => !r.issued && (s.reqLoc r.req).bank == bank)).map (fun r => r.seq)
  let b := (x.wq.filter (fun w => (s.reqLoc w.req).bank == bank)).map (fun w => w.seq)
  (a ++ b).min?

/-- The bank can take a command of this place in the order of arrival. -/
def State.bankTakes (s : State) (ch : Nat) (ready : BitVec 512) (r : MemReq) (seq : Nat) : Bool :=
  let b := (s.reqLoc r).bank
  ready.getLsbD b && !s.disturbDue ch b && (!s.inOrder ch b || s.bankHead ch b == some seq)

/-- The request's row is open in its bank. -/
def State.rowHit (s : State) (ch : Nat) (r : MemReq) : Bool :=
  let l := s.reqLoc r
  Tbl.get? (s.chan ch).openRows l.bank == some l.row

/-- The first element that no other precedes. -/
def bestOf {α : Type} (before : α → α → Bool) : List α → Option α
  | [] => none
  | a :: t => match bestOf before t with
    | none => some a
    | some b => if before b a then some b else some a

/-- The read that issues next (R226): a member read of the parity engine first (R269), then aged reads, then QOS, then a row
hit, then the oldest. -/
def State.pickRead (s : State) (ch : Nat) (ready : BitVec 512) : Option RdEnt :=
  let aged (e : RdEnt) : Bool := decide (s.rd (rdAge ch) * 100 ≤ s.now.toNat - e.at_)
  bestOf (fun a b =>
    if a.req.ofXcp != b.req.ofXcp then a.req.ofXcp
    else if a.req.ofXcp then decide (a.seq < b.seq)
    else if aged a != aged b then aged a
    else if aged a then decide (a.seq < b.seq)
    else if a.req.attr.qos ≠ b.req.attr.qos then decide (b.req.attr.qos < a.req.attr.qos)
    else if s.rowHit ch a.req != s.rowHit ch b.req then s.rowHit ch a.req
    else decide (a.seq < b.seq))
    ((s.chan ch).rq.filter (fun e => !e.issued && s.bankTakes ch ready e.req e.seq))

/-- The write that issues next (R227): a row hit, then the oldest; outside drain only one that in-order mode puts first
(R229); never before an earlier read of its line (R219). -/
def State.pickWrite (s : State) (ch : Nat) (ready : BitVec 512) : Option WrEnt :=
  let x := s.chan ch
  bestOf (fun a b =>
    if s.rowHit ch a.req != s.rowHit ch b.req then s.rowHit ch a.req
    else decide (a.seq < b.seq))
    (x.wq.filter (fun e =>
      s.bankTakes ch ready e.req e.seq &&
      (x.drain != .none || s.inOrder ch (s.reqLoc e.req).bank) &&
      !x.rq.any (fun r => decide (r.seq < e.seq) && s.reqLoc r.req == s.reqLoc e.req)))

/-- The activate-count table of a bank takes an activate of a row (R233). -/
def actCount (t : List ActEnt) (row : Nat) : List ActEnt :=
  if t.any (fun e => e.row == row) then t.map (fun e => if e.row = row then { e with count := e.count + 1 } else e)
  else if t.length < 32 then t ++ [⟨row, 1⟩]
  else
    match bestOf (fun a b => decide (a.2.count < b.2.count)) ((List.range t.length).zip t) with
    | some (i, e) => t.set i ⟨row, e.count + 1⟩
    | none => t

/-- An activate of a row (R233). -/
def State.activate (s : State) (ch bank row : Nat) : State :=
  let x := s.chan ch
  s.setChan ch { x with
    openRows := Tbl.set x.openRows bank row
    acts := if s.on (rdEn ch) then Tbl.set x.acts bank (actCount (Tbl.getD x.acts bank []) row) else x.acts }

/-- Drain after a write has issued, with n writes left (R227). A drain that the age limit began with the queue at or below WQ_LO
ends after one write (assumption 69). -/
def State.drainNext (s : State) (ch n : Nat) : State :=
  let x := s.chan ch
  let lo := s.rd (wqLo ch)
  let d := match x.drain with
    | .level => if n ≤ lo then Drain.none else .level
    | .idle => if n = lo ∨ n = 0 then .none else .idle
    | .none => .none
  let d := if s.rd (wqHi ch) ≤ n then .level else if d = .none ∧ x.rq = [] ∧ n ≠ 0 then .idle else d
  s.setChan ch { x with drain := d }

/-- A data write issues to the DRAM: the delta leaves in the same cycle (R260), and the entry is freed. What the parity engine
wrote stands in its member already (assumption 72). -/
def State.issueWrite (s : State) (ch : Nat) (e : WrEnt) : State :=
  let x := s.chan ch
  let line := e.req.line.toNat
  if e.req.ofXcp then
    ((s.setChan ch { x with wq := x.wq.erase e }).count (chBank ch) 2 0 (some e.req.attr)).drainNext ch (x.wq.length - 1)
  else
  let old := (s.cell line).stored line
  let s := (s.setChan ch { x with wq := x.wq.erase e }).count (chBank ch) 2 0 (some e.req.attr)
  let s := s.memWriteKey line e.req.data e.req.poison e.key
  let s := s.sendDelta ch line old ((s.cell line).stored line)
  s.drainNext ch (x.wq.length - 1)

/-- The scheduler issues one command (R226, R227), a member read of the parity engine even in write drain (R269): the picked
request's column command where its row is open, its
activate otherwise. -/
def State.schedule (s : State) (ch : Nat) (ready : BitVec 512) : State :=
  let x := s.chan ch
  if s.chActive ch = false ∨ x.sref then s
  else
    let doWrite (e : WrEnt) : State :=
      if s.rowHit ch e.req then s.issueWrite ch e
      else (let l := s.reqLoc e.req
            (s.activate ch l.bank l.row).count (chBank ch) 3 0 (some e.req.attr))
    let doRead (e : RdEnt) : State :=
      if s.rowHit ch e.req then
        (s.setChan ch { x with rq := x.rq.map (fun r => if r.seq = e.seq then { r with issued := true } else r) }).count
          (chBank ch) 1 0 (some e.req.attr)
      else (let l := s.reqLoc e.req
            (s.activate ch l.bank l.row).count (chBank ch) 3 0 (some e.req.attr))
    let first := (s.pickRead ch ready).any (fun e => e.req.ofXcp)
    match (if x.drain = .none || first then none else s.pickWrite ch ready), s.pickRead ch ready, s.pickWrite ch ready with
    | some w, _, _ => doWrite w
    | none, some r, _ => doRead r
    | none, none, some w => doWrite w
    | none, none, none => s

def execDramCommandIssue (ch : Chan) (ready : BitVec 512) (s : State) : Host.Outcome State Fault Refusal :=
  s.ifRuns fun s => (s.schedule ch.val ready)

/-- The absorber at a stop answers a memory request of a home (R179); a member read has failed with the channel (R275). -/
def State.chAbsorb (s : State) (st : Nat) (r : MemReq) (sts : Nat) : State :=
  if r.ofXcp then (s.memCredit r).breakGroup (s.groupOf r.chan.val)
  else if r.wr then (s.dropWrite st r.line.toNat r.attr r.src.stop sts).memAccept r
  else s.memAnswer r onesLine true sts

/-- A request reaches a channel, once those before it on its path have (R163): the absorber's answer while its stop is
closing, off or dead, else the controller's. One that no route could carry is answered by its source stop's absorber
(R185). -/
def State.chArrive (s : State) (r : MemReq) (e : DramErr) : State :=
  let back := s.mesh.net.any (fun f => f.load == .mem r && f.back)
  let st := (s.chanTarget r.chan.val r.line.toNat).1
  if s.behind (.mem r) ∨ (r.wr ∧ s.chActive r.chan.val ∧ s.wqRoom r.chan.val r.line.toNat = false) then s
  else
    let s := s.dropFlit (.mem r)
    if back then s.chAbsorb r.src.stop r 2
    else
      match s.absorbSts st with
      | some sts => s.chAbsorb st r sts
      | none => if r.wr then s.chWrite r (s.eccOf r.chan.val e) else s.chRead r

/-- A read reaches a channel controller (R228, R245). -/
def execMchReadArrive (r : MemReq) (s : State) : Host.Outcome State Fault Refusal :=
  s.ifRuns fun s => (s.chArrive { r with wr := false } ⟨0, .ok⟩)

/-- A write reaches a channel controller (R219, R230, R245). -/
def execMchWriteArrive (r : MemReq) (e : DramErr) (s : State) : Host.Outcome State Fault Refusal :=
  s.ifRuns fun s => (s.chArrive { r with wr := true } e)

/-- The oldest write reaches WR_AGE (R227). -/
def execWriteAgeExpire (ch : Chan) (s : State) : Host.Outcome State Fault Refusal :=
  s.ifRuns fun s => (let x := s.chan ch.val
    if x.wq.isEmpty then s else s.setChan ch.val { x with drain := .level })

/-! ### Data from the DRAM -/

/-- A read twice uncorrectable freezes its channel, which then answers it with the rest (R243, R245). -/
def State.uncorrectable (s : State) (ch line enc syn : Nat) : State :=
  (s.raise (chUECC ch)).freeze ch ⟨1, 1, some line, enc, syn⟩

/-- Data of an issued read returns: decrypted under the key as it stands (R238), with the poison mark found (R236);
an uncorrectable read is issued once more (R243). -/
def State.readReturn (s : State) (ch line : Nat) (err : Ecc) (syn : Nat) : State :=
  let x := s.chan ch
  match x.rq.find? (fun e => e.issued && !e.req.ofXcp && e.req.line.toNat == line) with
  | none => s
  | some e =>
    if s.chActive ch = false then s
    else if err = .bad then
      if e.retried then s.uncorrectable ch line e.req.attr.enc.toNat syn
      else s.setChan ch { x with rq := x.rq.map (fun r => if r.seq = e.seq then { r with retried := true } else r) }
    else
      let s := if err = .corr ∨ e.retried then s.chCorr ch (some line) else s
      let s := s.setChan ch { x with rq := x.rq.erase e }
      let c := s.cell line
      let s := if c.poison then s.raise (chPSNRD ch) else s
      let s := if (s.chan ch).rq = [] ∧ (s.chan ch).wq ≠ [] ∧ (s.chan ch).drain = .none then
          s.setChan ch { s.chan ch with drain := .idle } else s
      s.memAnswer e.req (s.memData line e.req.attr.enc.toNat) c.poison (if c.poison then 1 else 0)

def execDramReadReturn (ch : Chan) (line : LineAddr) (e : DramErr) (syn : BitVec 128) (s : State) :
    Host.Outcome State Fault Refusal :=
  s.ifRuns fun s => (s.readReturn ch.val line.toNat (s.eccOf ch.val e) syn.toNat)

/-- A reissued read is still uncorrectable (R243). -/
def execDramReadUncorrectable (ch : Chan) (line : LineAddr) (syn : BitVec 128) (s : State) :
    Host.Outcome State Fault Refusal :=
  s.ifRuns fun s => (match (s.chan ch.val).rq.find? (fun e => e.issued && !e.req.ofXcp && e.req.line == line) with
    | some e => s.uncorrectable ch.val line.toNat e.req.attr.enc.toNat syn.toNat
    | none => s)

/-- The line that patrol scrub names lies in the channel. -/
def State.scrubIn (s : State) (ch : Nat) : ScrubAt → Bool
  | .line l => s.chanOf l.toNat == ch
  | .parity g st => decide (ch < 16) && s.parMode != 0 && s.parityChan g.toNat st.toNat == ch

/-- The line that patrol scrub names carries the poison mark. -/
def State.scrubMark (s : State) : ScrubAt → Bool
  | .line l => (s.cell l.toNat).poison
  | .parity g st => (s.parityLine g.toNat st.toNat).poison

/-- Patrol scrub reads a line of its channel (R237): a correctable one is rewritten; an uncorrectable one is read once more, and
freezes the channel where it still is (R243). A parity line has no address to record. -/
def State.scrub (s : State) (ch : Nat) (p : ScrubAt) (ecc : Ecc) (syn : Nat) : State :=
  if s.rd (scrubH ch) = 0 ∨ s.chActive ch = false ∨ (s.chan ch).sref ∨ s.scrubIn ch p = false then s
  else
    let x := s.chan ch
    let again := x.scrubBad && x.scrubAt == some p
    let s := s.setChan ch { x with scrubAt := some p, scrubBad := ecc == .bad && !again }
    let s := if ecc ≠ .bad ∧ s.scrubMark p then s.raise (chPSNRD ch) else s
    let line := match p with
      | .line l => some l.toNat
      | .parity _ _ => none
    if ecc = .bad then (if again then (s.raise (chUECC ch)).freeze ch ⟨1, 1, line, 0, syn⟩ else s)
    else if ecc = .corr ∨ again then s.chCorr ch line
    else s

def execPatrolScrub (ch : Chan) (p : ScrubAt) (e : DramErr) (syn : BitVec 128) (s : State) :
    Host.Outcome State Fault Refusal :=
  s.ifRuns fun s => (s.scrub ch.val p (s.eccOf ch.val e) syn.toNat)

/-! ### Refresh and row disturbance -/

/-- The controller reads MR4 (R231). -/
def execMr4Poll (ch : Chan) (hot : Bool) (s : State) : Host.Outcome State Fault Refusal :=
  s.ifRuns fun s => (s.wr (rfHot ch.val) hot.toNat)

/-- A rank's refresh is due (R232): its banks are precharged and REFab issues; the rotation moves on (R231). -/
def State.refresh (s : State) (ch sc rk : Nat) : State :=
  let x := s.chan ch
  if x.sref then s
  else s.setChan ch { x with
    openRows := x.openRows.filter (fun e => decide (e.1 / 32 ≠ sc * 8 + rk)), refRank := sc * 8 + rk }

def execRefreshDue (ch : Chan) (sc : BitVec 1) (rk : BitVec 3) (s : State) : Host.Outcome State Fault Refusal :=
  s.ifRuns fun s => (s.refresh ch.val sc.toNat rk.toNat)

/-- A new refresh window clears every activate-count table (R233). -/
def execActTableClear (ch : Chan) (s : State) : Host.Outcome State Fault Refusal :=
  s.ifRuns fun s => (s.setChan ch.val { s.chan ch.val with acts := [] })

/-- The number of rows of a bank. -/
def State.rowCount (s : State) (ch : Nat) : Nat := if ch < 16 then 2 ^ (16 + s.rd (MCH_MAP.ROWW 0) % 2) else 16384

/-- The neighbours of a disturbed row are refreshed, each by an activate and a precharge, and the bank takes an RFM where the
RDIMMs support it (R234); a channel in self-refresh activates nothing. -/
def State.disturb (s : State) (ch bank : Nat) : State :=
  match (Tbl.getD (s.chan ch).acts bank []).find? (fun e => decide (s.rd (rdThr ch) ≤ e.count)) with
  | none => s
  | some e =>
    if s.disturbDue ch bank = false ∨ s.chActive ch = false ∨ (s.chan ch).sref then s
    else
      let rows := ((if 2 ≤ e.row then [e.row - 2] else []) ++ (if 1 ≤ e.row then [e.row - 1] else []) ++
        [e.row + 1, e.row + 2]).filter (fun r => decide (r < s.rowCount ch))
      let s := rows.foldl (fun s r => s.activate ch bank r) s
      let x := s.chan ch
      let s := s.setChan ch { x with
        openRows := Tbl.erase x.openRows bank
        acts := Tbl.set x.acts bank ((Tbl.getD x.acts bank []).map (fun a =>
          if a.row = e.row then { a with count := 0 } else a))
        rfm := if x.rfmOk then Tbl.set x.rfm bank (Tbl.getD x.rfm bank 0 + 1) else x.rfm }
      s.raise (chRDIST ch)

def execRowDisturbRefresh (ch : Chan) (bank : BitVec 9) (s : State) : Host.Outcome State Fault Refusal :=
  s.ifRuns fun s => (s.disturb ch.val bank.toNat)

/-! ### Keys, retunes, retries -/

/-- The SEP loads a key table entry into every controller (R239). -/
def execChannelKeyLoad (enc : BitVec 10) (s : State) : Host.Outcome State Fault Refusal := s.ifRuns fun s => (s.newKey enc.toNat)

/-- A line lies in the row that a REPAIR names; an HBM row is named by BG, BA and ROW alone (R248, R252). -/
def State.inRow (s : State) (ch sc rk bg ba row : Nat) (b : LineAddr) : Bool :=
  let l := s.locOf b.toNat
  s.chanOf b.toNat == ch && l.bg == bg && l.ba == ba && l.row == row && (decide (16 ≤ ch) || (l.sc == sc && l.rk == rk))

/-- A retune during RUN, or the retrain of a RESUME or REPAIR (R241, R247); a training failure freezes the channel (R243).
After the retrain of a REPAIR the row restore holds the lines of the row that it reads clean or correctable (R248). -/
def State.retune (s : State) (ch : Nat) (ok : Bool) (lines : List LineAddr) : State :=
  if ok = false then s.freeze ch ⟨3, 5, none, 0, 0⟩
  else
    match (s.chan ch).op with
    | some (.repair kind sc rk bg ba row _) =>
      s.setChan ch { s.chan ch with
        op := some (.repair kind sc rk bg ba row (lines.filter (s.inRow ch sc rk bg ba row)).dedup) }
    | _ => s

def execDqsRetune (ch : Chan) (x : Retuned) (s : State) : Host.Outcome State Fault Refusal :=
  s.ifRuns fun s => (s.retune ch.val x.ok x.lines)

/-- A command failed with a CA parity error or a write CRC error (R242): retried up to three times from the replay
window; the fourth failure of the same command freezes the channel. `again` says that the command is the one that
failed last. -/
def State.retryCmd (s : State) (ch : Nat) (fl : Flag) (dcmd : Nat) (line : Nat) (again : Bool) : State :=
  let n := if again then (s.chan ch).retries else 0
  if n < 3 then (s.setChan ch { s.chan ch with retries := n + 1 }).raise fl
  else (s.setChan ch { s.chan ch with retries := 0 }).freeze ch ⟨2, dcmd, some line, 0, 0⟩

def execCaParityAlert (ch : Chan) (dcmd : BitVec 4) (line : LineAddr) (again : Bool) (s : State) :
    Host.Outcome State Fault Refusal :=
  s.ifRuns fun s => (s.retryCmd ch.val (chCAPAR ch.val) dcmd.toNat line.toNat again)

def execWriteCrcFail (ch : Chan) (line : LineAddr) (again : Bool) (s : State) : Host.Outcome State Fault Refusal :=
  s.ifRuns fun s => (s.retryCmd ch.val (chWCRC ch.val) 2 line.toNat again)

/-- The channel's PHY loses lock (R243). -/
def execPhyLockLoss (ch : Chan) (s : State) : Host.Outcome State Fault Refusal :=
  s.ifRuns fun s => (s.freeze ch.val ⟨3, 5, none, 0, 0⟩)

/-! ### MCH_CMD and HBC_CMD (R247, R248) -/

/-- The channel's controller is part of the SKU (R4). -/
def State.chHere (s : State) (ch : Nat) : Bool := decide (ch < 16) || s.on HUB_ID.HBM_STACKS

/-- The end of a command that is not accepted: LAST_STS, but not while a command runs (R247) nor where the controller is
absent (R4), and the informational record. -/
def State.chRefuse (s : State) (ch sts : Nat) : State :=
  let (u, i) := chUnit ch
  (if s.chHere ch && !s.on (frzBusy ch) then s.setFrz ch frzSts sts else s).logCmd u i sts

/-- The channel named by a write of HBC_CMD is the one that HBC_FRZ shows (R252). -/
def State.chName (s : State) (ch : Nat) : State :=
  if ch < 16 ∨ s.chHere ch = false then s
  else (s.wr (HBC_CMD.CHAN (hbcOf ch)) ((ch - 16) % 16)).frzShow ch

/-- The drop list has overflowed where its lines can no longer be marked (R247). -/
def State.ovfBlocks (s : State) (ch : Nat) : Bool :=
  s.on (frzOvf ch) && !(decide (ch < 16) && s.parMode != 0 && s.grpParity (s.groupOf ch))

/-- RESUME or REPAIR is accepted from FROZEN (R247). -/
def State.chStart (s : State) (ch : Nat) (op : ChanOp) (st : Nat) : State :=
  let s := s.chName ch
  if s.chHere ch = false then s.chRefuse ch ENODEV
  else if s.on (frzBusy ch) ∨ s.rd (frzState ch) ≠ 1 ∨ s.ovfBlocks ch = true then s.chRefuse ch ESTATE
  else ((s.setChan ch { s.chan ch with op := some op }).setFrz ch frzBusy 1).setFrz ch frzState st

def execResume (ch : Chan) (s : State) : Host.Outcome State Fault Refusal := s.ifRuns fun s => (s.chStart ch.val .resume 1)

/-- REPAIR (R248): KIND 2 and 3, and KIND 0 on an HBC, are values the controller does not support (R252, R253). The format
is checked before the presence and the state (R19, assumption 62). -/
def State.chRepair (s : State) (ch kind sc rk bg ba row : Nat) : State :=
  if 1 < kind ∨ (16 ≤ ch ∧ kind = 0) then (s.chName ch).chRefuse ch EINVAL
  else s.chStart ch (.repair kind sc rk bg ba row []) 2

def execRepair (ch : Chan) (kind : BitVec 2) (sc : BitVec 1) (rk bg : BitVec 3) (ba : BitVec 2) (row : BitVec 17)
    (s : State) : Host.Outcome State Fault Refusal :=
  s.ifRuns fun s => s.chRepair ch.val kind.toNat sc.toNat rk.toNat bg.toNat ba.toNat row.toNat

/-- FENCE (R247): from FROZEN or ACTIVE; every request is then answered as a frozen channel's. -/
def State.chFence (s : State) (ch : Nat) : State :=
  let s := s.chName ch
  if s.chHere ch = false then s.chRefuse ch ENODEV
  else if s.on (frzBusy ch) ∨ (s.rd (frzState ch) ≠ 0 ∧ s.rd (frzState ch) ≠ 1) then s.chRefuse ch ESTATE
  else
    let s := (s.setFrz ch frzState 3).setFrz ch frzSts OK
    (s.groupLoss ch).flushQueues ch

def execMchFence (ch : Chan) (s : State) : Host.Outcome State Fault Refusal := s.ifRuns fun s => (s.chFence ch.val)

/-- The poison mark on every line of the drop list, which is then cleared (R245, R247). -/
def State.markDrops (s : State) (ch : Nat) : State :=
  let x := s.chan ch
  let s := x.drops.foldl (fun s e => s.setMarkOf e.1 true) s
  ((s.setChan ch { s.chan ch with drops := [] }).setFrz ch frzDrops 0).setFrz ch frzOvf 0

/-- A RESUME or REPAIR ends with the channel ACTIVE (R247, R273). -/
def State.chBack (s : State) (ch : Nat) : State :=
  let s := s.markDrops ch
  let s := s.setChan ch { s.chan ch with op := none, sref := false }
  let s := ((s.setFrz ch frzState 0).setFrz ch frzBusy 0).setFrz ch frzSts OK
  s.groupReturn ch

def execResumeDone (ch : Chan) (s : State) : Host.Outcome State Fault Refusal :=
  s.ifRuns fun s => (if (s.chan ch.val).op = some .resume then s.chBack ch.val else s)

/-- The lines of the repaired row that could not be corrected (R248): poisoned, or rebuilt by resync with parity. -/
def State.rowRestore (s : State) (ch : Nat) (bad : List LineAddr) : State :=
  bad.foldl (fun s b =>
    if ch < 16 ∧ s.parMode ≠ 0 ∧ s.grpParity (s.groupOf ch) = true then
      let (g, st) := s.lineStripe b.toNat
      s.mark g st
    else s.setMarkOf b.toNat true) s

/-- A REPAIR ends (R248): with no spare row the channel is FROZEN again as before, and LAST_STS is ENORES. -/
def State.repairDone (s : State) (ch : Nat) (spare : Bool) (bad : List LineAddr) : State :=
  match (s.chan ch).op with
  | some (.repair _ sc rk bg ba row _) =>
    if spare then (s.rowRestore ch (bad.filter (s.inRow ch sc rk bg ba row))).chBack ch
    else
      let s := s.setChan ch { s.chan ch with op := none }
      let (u, i) := chUnit ch
      (((s.setFrz ch frzState 1).setFrz ch frzBusy 0).setFrz ch frzSts ENORES).logCmd u i ENORES
  | _ => s

def execRepairDone (ch : Chan) (spare : Bool) (bad : List LineAddr) (s : State) : Host.Outcome State Fault Refusal :=
  s.ifRuns fun s => (s.repairDone ch.val spare bad)

end Sys2Proof.Machine
end

