-- ==== Sys2Proof/Machine/Cores.lean ====
section
/-!
DEFINITION. The commands of the cores: memory accesses, fences and atomics (R46 to R74), cache maintenance (R146),
translation invalidation (R292 to R299), register writes with fences (R285, R308) and world calls (R311).
-/
namespace Sys2Proof.Machine

/-- CORE_LOAD (R46). -/
def execCoreLoad (c : Core) (rd rb : BitVec 5) (off : BitVec 64) (w : LoadForm) (s : State) :
    Host.Outcome State Fault Refusal :=
  s.ifRuns fun s => (s.coreInstr c (.load rd.toNat rb.toNat off.toNat w.lg.toNat w.vec))

/-- CORE_STORE (R47). -/
def execCoreStore (c : Core) (rs rb : BitVec 5) (off : BitVec 64) (w : StoreForm) (s : State) :
    Host.Outcome State Fault Refusal :=
  s.ifRuns fun s => (s.coreInstr c (.store rs.toNat rb.toNat off.toNat w.lg.toNat w.vec w.br.toNat))

/-- FENCE (R54 to R58). -/
def execFence (c : Core) (ga gb : BitVec 5) (imm : BitVec 16) (s : State) : Host.Outcome State Fault Refusal :=
  s.ifRuns fun s => (s.coreInstr c (.fence ga.toNat gb.toNat imm.toNat))

/-- A waiting FENCE retires once nothing it waits for is left (R57, R58). -/
def State.fenceRetire (s : State) (c : Nat) : State :=
  let x := s.core c
  match x.front with
  | .fence _ _ imm :: _ =>
    if s.coreRuns c ∧ x.ph = 1 ∧ x.fenceReady imm then
      let s := s.retire c
      (if imm.testBit 5 then s else s.issue c (s.newOp c (.fence imm) [])).poke c
    else s
  | _ => s

def execFenceRetire (c : Core) (s : State) : Host.Outcome State Fault Refusal := s.ifRuns fun s => (s.fenceRetire c.val)

/-- LDO: ga takes memory at gb (R62). The command also stands for a word whose op is reserved (0x08 to 0x1F), which `op`
gives; any other `op` is LDO's own. -/
def execLdo (c : Core) (ga gb gc : BitVec 5) (size order : BitVec 2) (x : LdoBits) (s : State) :
    Host.Outcome State Fault Refusal :=
  s.ifRuns fun s => (s.coreInstr c
    (.ord (if x.op.toNat < 8 then 0 else x.op.toNat) ga.toNat gb.toNat gc.toNat size.toNat order.toNat x.mbz.toNat))

/-- STO: memory at gb takes gc (R62). -/
def execSto (c : Core) (ga gb gc : BitVec 5) (size order mbz : BitVec 2) (s : State) :
    Host.Outcome State Fault Refusal :=
  s.ifRuns fun s => (s.coreInstr c (.ord 1 ga.toNat gb.toNat gc.toNat size.toNat order.toNat mbz.toNat))

/-- SWP (R62). -/
def execSwp (c : Core) (ga gb gc : BitVec 5) (size order mbz : BitVec 2) (s : State) :
    Host.Outcome State Fault Refusal :=
  s.ifRuns fun s => (s.coreInstr c (.ord 2 ga.toNat gb.toNat gc.toNat size.toNat order.toNat mbz.toNat))

/-- CAS (R62, R65). -/
def execCas (c : Core) (ga gb gc : BitVec 5) (size order mbz : BitVec 2) (s : State) :
    Host.Outcome State Fault Refusal :=
  s.ifRuns fun s => (s.coreInstr c (.ord 3 ga.toNat gb.toNat gc.toNat size.toNat order.toNat mbz.toNat))

/-- FADD (R62). -/
def execFadd (c : Core) (ga gb gc : BitVec 5) (size order mbz : BitVec 2) (s : State) :
    Host.Outcome State Fault Refusal :=
  s.ifRuns fun s => (s.coreInstr c (.ord 4 ga.toNat gb.toNat gc.toNat size.toNat order.toNat mbz.toNat))

/-- FAND (R62). -/
def execFand (c : Core) (ga gb gc : BitVec 5) (size order mbz : BitVec 2) (s : State) :
    Host.Outcome State Fault Refusal :=
  s.ifRuns fun s => (s.coreInstr c (.ord 5 ga.toNat gb.toNat gc.toNat size.toNat order.toNat mbz.toNat))

/-- FOR (R62). -/
def execForOp (c : Core) (ga gb gc : BitVec 5) (size order mbz : BitVec 2) (s : State) :
    Host.Outcome State Fault Refusal :=
  s.ifRuns fun s => (s.coreInstr c (.ord 6 ga.toNat gb.toNat gc.toNat size.toNat order.toNat mbz.toNat))

/-- CAS128 (R62, R65). -/
def execCas128 (c : Core) (ga gb gc : BitVec 5) (size order mbz : BitVec 2) (s : State) :
    Host.Outcome State Fault Refusal :=
  s.ifRuns fun s => (s.coreInstr c (.ord 7 ga.toNat gb.toNat gc.toNat size.toNat order.toNat mbz.toNat))

/-- A gathered write is issued 1 µs after its first store (R73). -/
def execGatheredWriteIssue (c : Core) (s : State) : Host.Outcome State Fault Refusal :=
  s.ifRuns fun s => ((s.ungather c.val).poke c.val)

/-- CLEAN (R146, R148). -/
def execClean (c : Core) (ga gb : BitVec 5) (imm : BitVec 16) (s : State) : Host.Outcome State Fault Refusal :=
  s.ifRuns fun s => (s.coreInstr c (.maint 0x10 ga.toNat gb.toNat imm.toNat))

/-- CLINV (R146, R148). -/
def execClinv (c : Core) (ga gb : BitVec 5) (imm : BitVec 16) (s : State) : Host.Outcome State Fault Refusal :=
  s.ifRuns fun s => (s.coreInstr c (.maint 0x11 ga.toNat gb.toNat imm.toNat))

/-- ZERO (R146, R149). -/
def execZero (c : Core) (ga gb : BitVec 5) (imm : BitVec 16) (s : State) : Host.Outcome State Fault Refusal :=
  s.ifRuns fun s => (s.coreInstr c (.maint 0x12 ga.toNat gb.toNat imm.toNat))

/-- PRF (R146, R147). -/
def execPrf (c : Core) (ga gb : BitVec 5) (imm : BitVec 16) (s : State) : Host.Outcome State Fault Refusal :=
  s.ifRuns fun s => (s.coreInstr c (.maint 0x14 ga.toNat gb.toNat imm.toNat))

/-- TLBI.VA (R292). -/
def execTlbiVa (c : Core) (ga gb : BitVec 5) (imm : BitVec 16) (s : State) : Host.Outcome State Fault Refusal :=
  s.ifRuns fun s => (s.coreInstr c (.tlb 0x20 ga.toNat gb.toNat imm.toNat))

/-- TLBI.VAA (R292). -/
def execTlbiVaa (c : Core) (ga gb : BitVec 5) (imm : BitVec 16) (s : State) : Host.Outcome State Fault Refusal :=
  s.ifRuns fun s => (s.coreInstr c (.tlb 0x21 ga.toNat gb.toNat imm.toNat))

/-- TLBI.ASID (R292). -/
def execTlbiAsid (c : Core) (ga gb : BitVec 5) (imm : BitVec 16) (s : State) : Host.Outcome State Fault Refusal :=
  s.ifRuns fun s => (s.coreInstr c (.tlb 0x22 ga.toNat gb.toNat imm.toNat))

/-- TLBI.VM (R292). -/
def execTlbiVm (c : Core) (ga gb : BitVec 5) (imm : BitVec 16) (s : State) : Host.Outcome State Fault Refusal :=
  s.ifRuns fun s => (s.coreInstr c (.tlb 0x23 ga.toNat gb.toNat imm.toNat))

/-- TLBI.ALL (R292). -/
def execTlbiAll (c : Core) (ga gb : BitVec 5) (imm : BitVec 16) (s : State) : Host.Outcome State Fault Refusal :=
  s.ifRuns fun s => (s.coreInstr c (.tlb 0x24 ga.toNat gb.toNat imm.toNat))

/-- TLBLOCK (R291). -/
def execTlblock (c : Core) (ga gb : BitVec 5) (imm : BitVec 16) (s : State) : Host.Outcome State Fault Refusal :=
  s.ifRuns fun s => (s.coreInstr c (.tlb 0x28 ga.toNat gb.toNat imm.toNat))

/-- TLBUNLOCK (R291). -/
def execTlbunlock (c : Core) (ga gb : BitVec 5) (imm : BitVec 16) (s : State) : Host.Outcome State Fault Refusal :=
  s.ifRuns fun s => (s.coreInstr c (.tlb 0x29 ga.toNat gb.toNat imm.toNat))

/-- JRINV (R298). -/
def execJrinv (c : Core) (ga gb : BitVec 5) (imm : BitVec 16) (s : State) : Host.Outcome State Fault Refusal :=
  s.ifRuns fun s => (s.coreInstr c (.tlb 0x38 ga.toNat gb.toNat imm.toNat))

/-- SYNC.TLB (R297). -/
def execSyncTlb (c : Core) (ga gb : BitVec 5) (imm : BitVec 16) (s : State) : Host.Outcome State Fault Refusal :=
  s.ifRuns fun s => (s.coreInstr c (.tlb 0x02 ga.toNat gb.toNat imm.toNat))

/-- A waiting SYNC.TLB completes once every earlier invalidation is answered, with the effect of FENCE 0x40 (R297). -/
def State.syncComplete (s : State) (c : Nat) : State :=
  let x := s.core c
  match x.front with
  | .tlb 0x02 _ _ _ :: _ =>
    if s.coreRuns c ∧ x.ph = 1 ∧ x.outInv = 0 ∧ x.fenceReady 0x40 then (s.retire c).poke c else s
  | _ => s

def execSyncTlbComplete (c : Core) (s : State) : Host.Outcome State Fault Refusal := s.ifRuns fun s => (s.syncComplete c.val)

/-- VM_CTL (R285, R296, R308). -/
def execVmCtlWrite (c : Core) (v : BitVec 64) (s : State) : Host.Outcome State Fault Refusal :=
  s.ifRuns fun s => (s.coreInstr c (.vmCtl v.toNat))

/-- TT_CTL, TT_ROOT0, TT_ROOT1 (R308): r is 0, 1 and 2 (3 as 2). -/
def execTtRegWrite (c : Core) (r : BitVec 2) (v : BitVec 64) (s : State) : Host.Outcome State Fault Refusal :=
  s.ifRuns fun s => (s.coreInstr c (.ttReg r.toNat v.toNat))

/-- WCALL (R60, R311). -/
def execWcall (c : Core) (ga gb : BitVec 5) (imm : BitVec 16) (s : State) : Host.Outcome State Fault Refusal :=
  s.ifRuns fun s => (s.coreInstr c (.wcall ga.toNat gb.toNat imm.toNat))

/-- A walk for an address of a core (R302). -/
def execTableWalk (c : Core) (va : BitVec 64) (acc : BitVec 2) (spec : Bool) (s : State) :
    Host.Outcome State Fault Refusal :=
  s.ifRuns fun s => (if s.coreRuns c.val ∧ s.on (TT_CTL.EN c.val) ∧ canonical va.toNat = true then
      let s := s.ccEvent c.val 6
      let s := if spec = false ∧ acc ≠ 2 then s.ccEvent c.val 5 else s
      (s.walkStart c.val va.toNat acc.toNat spec).poke c.val
    else s)

/-- The TCD reports the VMID that a core's write of VM_CTL names, and the write completes (R296). -/
def execVmidPresenceReport (c : Core) (s : State) : Host.Outcome State Fault Refusal :=
  let v := s.rd (VM_CTL.VMID c.val)
  let t := Tbl.getD s.vmpv v 0
  s.ifRuns fun s => (({ s with vmpv := Tbl.put s.vmpv v 0 (t ||| 2 ^ dieOf c.val) }).poke c.val)

/-! ### Broadcasts (R295 to R299) -/

/-- The TCDs an invalidation goes to (R295). -/
def State.invTargets (s : State) (i : Inval) : BitVec 12 :=
  let v := if i.fn = 0x24 then s.rd HUB_POP.TCD_PRESENT else Tbl.getD s.vmpv i.vmid 0
  (List.range 12).foldl (fun b t =>
    if v.testBit t ∧ (s.absorbSts (tcdStop t)).isNone then setBit b t else b) 0

/-- The broadcaster clears presence bits as it sends (R296). -/
def State.invPresence (s : State) (i : Inval) : State :=
  match i.fn with
  | 0x24 => { s with vmpv := [] }
  | 0x23 | 0x38 => { s with vmpv := Tbl.put s.vmpv i.vmid 0 0 }
  | _ => s

/-- The issuer of an invalidation is answered. -/
def State.invAnswered (s : State) (c : Nat) : State :=
  (s.modCore c (fun x => { x with outInv := x.outInv - 1 })).poke c

/-- An invalidation reaches the broadcaster (R295): the oldest that the core has issued. -/
def State.invArrive (s : State) (c : Nat) : State :=
  match s.invq.find? (fun p => p.1 == c) with
  | none => s
  | some p =>
    let i := p.2
    let ts := s.invTargets i
    let s := { s with invq := s.invq.erase p }
    let s := s.invPresence i
    if ts = 0 then s.invAnswered c
    else
      { s with
        opSeq := s.opSeq + 1
        bcasts := s.bcasts ++ [⟨s.opSeq, c, i, ts⟩]
        tcdInv := s.tcdInv ++ (bitsOf ts).map (fun t => ⟨t, s.opSeq, i, false, 0⟩) }

def execInvalBroadcastArrive (c : Core) (s : State) : Host.Outcome State Fault Refusal := s.ifRuns fun s => (s.invArrive c.val)

/-- The next invalidation reaches a TCD, which delivers it to all its running cores (R295). -/
def State.invDeliver (s : State) (t : Nat) : State :=
  match s.tcdInv.find? (fun e => e.tcd == t && !e.here) with
  | none => s
  | some e =>
    let on : BitVec 24 := (List.range 24).foldl (fun b k => if (s.core (24 * t + k)).online then setBit b k else b) 0
    let s := { s with tcdInv := s.tcdInv.map (fun f => if f = e then { f with here := true, cores := on } else f) }
    (bitsOf on).foldl (fun s k => s.modCore (24 * t + k) (fun x => { x with invs := x.invs ++ [(e.id, e.inv)] })) s

def execInvalTcdDeliver (t : Tcd) (s : State) : Host.Outcome State Fault Refusal := s.ifRuns fun s => (s.invDeliver t.val)

/-- A core acknowledges its oldest invalidation: entries removed, walks in progress discarded, and every access issued
before it completed; for a JRINV of its VMID, its ranges reloaded first (R297, R298). -/
def State.coreAck (s : State) (c : Nat) : State :=
  match (s.core c).invs with
  | [] => s
  | (id, i) :: rest =>
    let s := s.invalidate c i
    let reload := i.fn = 0x38 ∧ s.on (VM_CTL.S2EN c) ∧ s.rd (VM_CTL.VMID c) = i.vmid
    let fresh := (s.core c).jrGot.isNone
    let started := (s.core c).invs.any (fun p => p.1 == id && p.2.t)
    if (s.core c).quiet = false ∨ (s.core c).walks.isEmpty = false then s
    else if reload ∧ started = false then
      -- the reload starts once; the mark T is not used by JRINV
      (s.modCore c (fun x => { x with invs := (id, { i with t := true }) :: rest })).jrStart c
    else if reload ∧ fresh = false then s
    else
      let s := s.modCore c (fun x => { x with invs := rest })
      let t := dieOf c
      let s : State := { s with tcdInv := s.tcdInv.map (fun (e : TcdInv) =>
        if e.tcd = t ∧ e.id = id then { e with cores := clrBit e.cores (c % 24) } else e) }
      s.poke c

def execCoreInvalAck (c : Core) (s : State) : Host.Outcome State Fault Refusal := s.ifRuns fun s => (s.coreAck c.val)

/-- A TCD answers the broadcaster for its oldest invalidation that all its cores have acknowledged, or the absorber of its
stop does (R299); the bit of every VMID that one of its cores holds is set again; the issuer is answered when every target
has answered (R296, R297). -/
def State.bcastAck (s : State) (t : Nat) : State :=
  match s.tcdInv.find? (fun e => e.tcd == t && ((e.here && e.cores == 0) || (s.absorbSts (tcdStop t)).isSome)) with
  | none => s
  | some e =>
    let s := { s with tcdInv := s.tcdInv.erase e }
    let s := if e.inv.fn = 0x23 ∨ e.inv.fn = 0x24 ∨ e.inv.fn = 0x38 then
        (List.range 24).foldl (fun s k =>
          let c := 24 * t + k
          if (s.core c).online ∧ (s.absorbSts (tcdStop t)).isNone then
            let v := s.rd (VM_CTL.VMID c)
            { s with vmpv := Tbl.put s.vmpv v 0 (Tbl.getD s.vmpv v 0 ||| 2 ^ t) }
          else s) s
      else s
    match s.bcasts.find? (fun b => b.id == e.id) with
    | none => s
    | some b =>
      let ts := clrBit b.targets t
      if ts = 0 then ({ s with bcasts := s.bcasts.erase b }).invAnswered b.core
      else { s with bcasts := s.bcasts.map (fun x => if x = b then { b with targets := ts } else x) }

/-- Every invalidation on its way to a TCD that is lost counts as acknowledged (R299). -/
def State.bcastLost (s : State) (t : Nat) : State :=
  let s : State := { s with tcdInv := s.tcdInv.map (fun (e : TcdInv) => if e.tcd = t then { e with here := true, cores := 0 } else e) }
  (s.tcdInv.filter (fun e => e.tcd == t)).foldl (fun s _ => s.bcastAck t) s

def execBroadcastAck (t : Tcd) (s : State) : Host.Outcome State Fault Refusal := s.ifRuns fun s => (s.bcastAck t.val)

/-! ### Interrupt registers and idling -/

/-- A read of INT_ACK (R437). -/
def execIntAckRead (c : Core) (rd : BitVec 5) (s : State) : Host.Outcome State Fault Refusal :=
  s.ifRuns fun s => (s.coreInstr c (.ackRead rd.toNat))

/-- A write of INT_EOI (R437). -/
def execIntEoi (c : Core) (v : BitVec 64) (s : State) : Host.Outcome State Fault Refusal :=
  s.ifRuns fun s => (s.coreInstr c (.eoi v.toNat))

/-- A write of INT_IPI (R439). -/
def execIntIpi (c : Core) (v : BitVec 64) (s : State) : Host.Outcome State Fault Refusal :=
  s.ifRuns fun s => (s.coreInstr c (.ipi v.toNat))

/-- A write of VIP_CTL (R442). -/
def execVipCtlWrite (c : Core) (v : BitVec 64) (s : State) : Host.Outcome State Fault Refusal :=
  s.ifRuns fun s => (s.coreInstr c (.vipCtl v.toNat))

/-- Wait for interrupt (R470). -/
def execWaitForInterrupt (c : Core) (s : State) : Host.Outcome State Fault Refusal := s.ifRuns fun s => (s.coreInstr c .wfi)

end Sys2Proof.Machine
end

