-- ==== Sys2Proof/Machine/Dma.lean ====
section
/-!
DEFINITION. Memory accesses that a command makes within its own step: RdOnce, WrFull, WrPart and MaintInv of a unit
without a directory slot, with the outcome that the messages of R98 would have (assumption 12). Such an access does not
happen while another transaction holds its line; the whole command then waits, and leaves the state as it was.
-/
namespace Sys2Proof.Machine

/-- What a read returns: its data, the poison mark, the mesh status (R92). -/
structure Rd where
  data : LineData
  psn : Bool
  sts : Nat
deriving DecidableEq, Repr

/-- A transaction is in progress for the line: its lock is held (R96), a write of it is on its way to its channel or to
XCP, or its directory entry must be recovered first (R113). -/
def State.lineBusy (s : State) (line : Nat) : Bool :=
  let h := homeOf line
  s.locked h line || (s.dirEnt h line).ecc == .bad ||
  s.memNet.any (fun r => r.wr && r.line.toNat == line) ||
  s.mesh.memStall.any (fun r => r.wr && r.line.toNat == line) ||
  s.xcp.handed.any (fun p => p.1.wr && p.1.line.toNat == line) ||
  s.xcp.rebuilds.any (fun r => match r.why with
    | .write q _ => q.line.toNat == line
    | _ => false)

/-- The status with which a request from a stop to the line's home is answered without reaching it (R179, R181,
R185). -/
def State.pathSts (s : State) (src line : Nat) : Option Nat :=
  let d := homeStop (homeOf line)
  if s.stopState src = 1 ∨ s.stopState src = 2 then some 3
  else if s.stopState src = 3 then some 2
  else
    match s.absorbSts d with
    | some v => some v
    | none => if s.reachable src d then none else some 2

/-- A line from its channel (R228, R236, R245, R270); none where its stripe is being worked on. -/
def State.chFetch (s : State) (line enc : Nat) : Option (State × Rd) :=
  if isCxlLine line then
    match s.cxlAbsorb line with
    | some (_, v) => some (s, ⟨onesLine, true, v⟩)
    | none => some (s, ⟨(s.cell line).data, (s.cell line).poison, if (s.cell line).poison then 1 else 0⟩)
  else
    let ch := s.chanOf line
    let st := (s.chanTarget ch line).1
    match (if s.reachable (homeStop (homeOf line)) st then s.absorbSts st else some 2) with
    | some v => some (s, ⟨onesLine, true, v⟩)
    | none =>
      let par := decide (ch < 16) && s.parMode != 0 && s.grpParity (s.groupOf ch)
      if (s.chActive ch = false ∧ par = true) ∨ s.chLost ch line = true then
        let (g, st) := s.lineStripe line
        if (s.stripeLock g st).isSome ∨ s.xcp.deltas.any (fun d => d.group == g && d.stripe == st) ∨
            s.deltaOut g st then none
        else if s.memberDead g st then some (s, ⟨onesLine, true, 1⟩)
        else
          let psn := (s.cell line).poison
          some (s.raise XCP_STS.fRECON,
            ⟨s.rebuilt line enc (s.xorOthers g st (some ch)), psn, if psn then 1 else 0⟩)
      else if s.chActive ch = false ∨ s.stale ch line = true then some (s, ⟨onesLine, true, 1⟩)
      else
        let (d, p) := s.chLine ch line enc
        let s := if p && ((s.chan ch).newest line).isNone then s.raise (chPSNRD ch) else s
        some (s, ⟨d, p, if p then 1 else 0⟩)

/-- A line from the HMC, or from its channel, with the clean copy that a miss may leave (R128, R136, R143). -/
def State.memFetch (s : State) (line : Nat) (m : Msg) : Option (State × Rd) :=
  let h := homeOf line
  let st := s.rd (halfState h)
  let hit := s.hmcHit h line
  let s := if st = HON ∧ isHbmLine line = false then
      s.count bankHmc (if hit.isSome then 1 else 2) h (some m.attr) else s
  match hit with
  | some (d, p) => some (s, ⟨d, p, if p then 1 else 0⟩)
  | none =>
    (s.chFetch line m.attr.enc.toNat).map (fun p =>
      if p.2.psn = true ∨ p.2.sts ≠ 0 ∨ st ≠ HON ∨ p.1.readAlloc m = false ∨ p.1.hmcMay line = false then p
      else
        match p.1.hmcChoose h (hmcSet line) (p.1.classMask m.attr.pcls.toNat) with
        | some w => ((p.1.hmcPlace h (hmcSet line) w line p.2.data false false m.attr).1, p.2)
        | none => (p.1.count bankHmc 3 h (some m.attr), p.2))

/-- A write of a line, or of bytes of it, to its channel, accepted at once (R219, R319). -/
def State.chPut (s : State) (line : Nat) (be : BitVec 64) (d : LineData) (psn : Bool) (a : Attr) (src : MemSrc) :
    Option State :=
  if isCxlLine line then some (s.chanWrite line be d psn a src).1
  else
    let (s, a, bad) := s.hubAttr line a
    let r : MemReq := ⟨true, Fin.ofNat 80 (s.chanOf line), BitVec.ofNat 46 line, a, src, be, d, psn || bad⟩
    let t := s.chanTarget r.chan.val line
    let n := s.pool r.src.stop t.1 t.2 3
    if n = 0 ∨ (s.chActive r.chan.val ∧ s.wqRoom r.chan.val line = false) then none
    else
      let s := s.setPool r.src.stop t.1 t.2 3 (n - 1)
      if s.reachable r.src.stop t.1 = false then some ((s.dropWrite r.src.stop line a r.src.stop 2).memAccept r)
      else
        match s.absorbSts t.1 with
        | some v => some ((s.dropWrite t.1 line a r.src.stop v).memAccept r)
        | none => some (s.chWrite r .ok)

/-- A write of bytes of a line through the HMC (R128, R143), accepted at once. -/
def State.memPut (s : State) (line : Nat) (be : BitVec 64) (d : LineData) (psn : Bool) (a : Attr) (alloc : Bool) :
    Option State :=
  let h := homeOf line
  let st := s.rd (halfState h)
  let src : MemSrc := .mark (Fin.ofNat 32 h)
  let s := if st = HON ∧ isHbmLine line = false then
      s.count bankHmc (if (s.hmcHit h line).isSome then 1 else 2) h (some a) else s
  if isHbmLine line then s.chPut line be d psn a src
  else if (s.fill? h line).isSome then none
  else
    match (if st = HON ∨ st = HDRAIN then s.hmcFind h line else none) with
    | some w =>
      match s.hmcWay h (hmcSet line) w with
      | some x =>
        let merged := mergeBytes be x.data d
        let psn' := psn || (x.poison && be != fullBe)
        if st = HON then
          some (s.hmcPut h (hmcSet line) w (some { x with data := merged, poison := psn', dirty := true }))
        else if x.dirty then (s.hmcPut h (hmcSet line) w none).chPut line fullBe merged psn' a src
        else s.chPut line be d psn a src
      | none => s.chPut line be d psn a src
    | none =>
      if st = HON ∧ alloc = true ∧ be = fullBe ∧ s.hmcMay line = true then
        match s.hmcChoose h (hmcSet line) (s.classMask a.pcls.toNat) with
        | some w => some (s.hmcPlace h (hmcSet line) w line d psn true a).1
        | none => (s.count bankHmc 3 h (some a)).chPut line be d psn a src
      else s.chPut line be d psn a src

/-! ### Holders -/

/-- The dirty data that an agent gives up, with its poison mark, and the state after its copy is gone (R99, R103): a
copy of the TQE is a doorbell line (R115). -/
def State.takeCopy (s : State) (a line : Nat) : State × Option (LineData × Bool) :=
  if a = 12 then
    match Tbl.get? s.watch line with
    | some w => ((s.setWatch line { w with armed := false }).bellRead line, none)
    | none => (s, none)
  else
    match s.evAt a line with
    | some e => (s, if e.dirty then some (e.data, e.poison) else none)
    | none =>
      match s.l3At a line with
      | some x => (s.l3Drop a line, if x.st = .m ∨ x.st = .o then some (x.data, x.poison) else none)
      | none => (s, none)

/-- A die can answer a snoop in the step: its link carries traffic (R197, R209). -/
def State.snoopable (s : State) (a : Nat) : Bool := decide (12 ≤ a) || s.rd (STR_STATE.STATE a) == 2

/-- SnpCur of an owner, or SnpShared of one that does not answer it (R98, R99, R103, R117, R203): its data where it gives any,
and the entry after its answer. An owner in M keeps its line in O where it can, and gives its data up to memory where it
cannot. -/
def State.ownerGives (s : State) (line : Nat) (e : DirEnt) (a : Attr) :
    Option (State × Option (LineData × Bool) × DirEnt) :=
  let o := e.owner
  match s.evAt o line with
  | some v => some (s, if v.dirty then some (v.data, v.poison) else none, e.remove o)
  | none =>
    match s.l3At o line with
    | none => some (s, none, e)
    | some x =>
      let d := if x.st = .s then none else some (x.data, x.poison)
      if s.noSnpCur o then
        let e' : DirEnt := { e with st := .sh, owner := 0, sharers := setBit e.sharers o }
        let s' := s.l3Put o line { x with st := .s, excl := none }
        if x.st = .m ∧ s.noOwned o then
          (s'.memPut line fullBe x.data x.poison a (s.on HMC_CTL.ALLOC_WB)).map (fun s => (s, d, e'))
        else if x.st = .m ∨ x.st = .o then
          some (s.l3Put o line { x with st := .o, excl := none }, d, { e with st := .ow })
        else some (s', d, e')
      else some (s, d, e)

/-- The entry cleaned of dead agents, with the mark that a dead owner leaves (R109). -/
def State.cleanDir (s : State) (line : Nat) (a : Attr) : State :=
  let h := homeOf line
  let c := s.cleanEnt (s.dirEnt h line)
  let s := if c.2 then s.markPoison line a else s
  if c.1 = s.dirEnt h line then s else s.dirCommit h c.1

/-- Every copy of the line is invalidated; dirty data is written back first (R98). True where an owner's data was
lost (R179). -/
def State.invAll (s : State) (line : Nat) (a : Attr) : Option (State × Bool) :=
  let h := homeOf line
  let e := s.dirEnt h line
  let r := e.holders.foldl (fun (acc : Option (State × Bool)) n =>
    match acc with
    | none => none
    | some (s, lost) =>
      let s := s.count (bankHome h) 2 0 (some a)
      if (s.absorbSts (stopOfSlot n)).isSome then
        some (s, lost || ((e.st = .ex ∨ e.st = .ow) && e.owner == n))
      else if s.snoopable n = false then none
      else
        match s.takeCopy n line with
        | (s, some (d, p)) => (s.memPut line fullBe d p a (s.on HMC_CTL.ALLOC_WB)).map (fun s => (s, lost))
        | (s, none) => some (s, lost)) (some (s, false))
  r.map (fun p => ((p.1.dirCommit h { e with st := .inv, owner := 0, sharers := 0 }), p.2))

/-! ### Accesses -/

/-- A request of a unit at a stop goes out: it needs a tracker credit and a response buffer, both of which come back within the
step (R93, R165), and at the TQE's stop no other request of its line (R94); its class pays at the pacer and gives it its QOS
(R31, R173 to R176). The tokens that one command's accesses take beyond the bucket are owed by its class: no access
waits in the midst of a command (assumption 12). -/
def State.dmaIssue (s : State) (m : Msg) : Option (State × Msg) :=
  let src := m.src.val
  if s.pool src m.dst.val 0 0 = 0 ∨ s.freeTxn src = none ∨ (src = tqeStop ∧ s.tqeFree m.line.toNat = false) then none
  else
    match pacerPoint src with
    | none => some (s, m)
    | some p =>
      let c := m.attr.pcls.toNat
      let s := s.count bankMesh 1 p (some m.attr)
      let cost : Nat := match m.pace with
        | .held n => n
        | _ => 0
      let s := if s.on (MESH_PCR.EN p c) then s.setLevel p c (max (-4194304) (s.level p c - 1024 * (cost : Int))) else s
      some (s, s.paceQos p m)

/-- The request is admitted at its home: the round-robin pointer moves past its position (R95), and it is counted and metered
(R485, R492). -/
def State.dmaAdmit (s : State) (m : Msg) : State :=
  let h := homeOf m.line.toNat
  ((s.wr (HOME_CTL.RR_PTR h) ((arbPos m + 1) % 16)).count (bankHome h) 1 0 (some m.attr)).meterMem m

/-- The check of an access at the home (R42, R315): none where it passes, else the answer's data. The ownership unit
passes in every case. -/
def State.homeCheck (s : State) (src line : Nat) (a : Attr) (wr own : Bool) : State × Option LineData :=
  if s.populated (line * 64) = false then (s.unmapped (line * 64) a src 0xFFFF, some 0)
  else if own then (s, none)
  else
    let s := s.motTouch line
    if s.ownPass line a.world a.enc.toNat then (s, none)
    else
      let s := if (s.mot line).kind = .bad then s.motBad line else s
      (s.refusal wr a.world a.enc.toNat line src a.mtag.toNat, some refusalLine)

/-- RdOnce of a line (R98). -/
def State.dmaRead (s : State) (src line : Nat) (a : Attr) (own : Bool) : Option (State × Rd) :=
  match s.pathSts src line, s.dmaIssue (homeReq .rdOnce src line a) with
  | some v, _ => some (s, ⟨onesLine, true, v⟩)
  | none, none => none
  | none, some (s, m) =>
    let a := m.attr
    match (s.dmaAdmit m).homeCheck src line a false own with
    | (s, some d) => some (s, ⟨d, false, 0⟩)
    | (s, none) =>
      if s.lineBusy line then none
      else
        let s := s.cleanDir line a
        let h := homeOf line
        let e := s.dirEnt h line
        if e.st = .ex ∨ e.st = .ow then
          let s := s.count (bankHome h) 2 0 (some a)
          if (s.absorbSts (stopOfSlot e.owner)).isSome then
            let s := (s.markPoison line a).dirCommit h (e.remove e.owner)
            some (s, ⟨(s.memSide line a.enc.toNat).1, true, 1⟩)
          else if s.snoopable e.owner = false then none
          else
            (s.ownerGives line e a).bind (fun g =>
              let s := g.1.dirCommit h g.2.2
              match g.2.1 with
              | some (d, p) => some (s, ⟨d, p, if p then 1 else 0⟩)
              | none => s.memFetch line m)
        else s.memFetch line m

/-- WrFull or WrPart of a line (R98, R502): its mesh status. `own` marks the ownership unit, which never allocates in the
HMC (R319). -/
def State.dmaWrite (s : State) (src line : Nat) (a : Attr) (be : BitVec 64) (d : LineData) (psn own : Bool) :
    Option (State × Nat) :=
  match s.pathSts src line, s.dmaIssue { homeReq (if be = fullBe then .wrFull else .wrPart) src line a with be := be } with
  | some v, _ =>
    -- the absorber of the home's stop, or of the source's own where no route leads there (R185)
    let st := homeStop (homeOf line)
    some (if s.stopState src = 1 ∨ s.stopState src = 2 ∨ s.stopState src = 3 then s
      else s.dropWrite (if (s.absorbSts st).isSome then st else src) line a src v, v)
  | none, none => none
  | none, some (s, m) =>
    let a := m.attr
    match (s.dmaAdmit m).homeCheck src line a true own with
    | (s, some _) => some (s, 0)
    | (s, none) =>
      if s.lineBusy line then none
      else
        let s := s.cleanDir line a
        match s.invAll line a with
        | none => none
        | some (s, lost) =>
          let alloc := !own && be == fullBe && s.on HMC_CTL.IO_ALLOC && src == tqeStop
          if own then
            -- the ownership unit writes under the ENC it names, not under the MOT entry's (R319)
            let r : MemReq := ⟨true, Fin.ofNat 80 (s.chanOf line), BitVec.ofNat 46 line, a,
              .mark (Fin.ofNat 32 (homeOf line)), be, d, psn⟩
            if isCxlLine line then some (s.memWrite line d psn 0, 0)
            else
              let t := s.chanTarget r.chan.val line
              let n := s.pool r.src.stop t.1 t.2 3
              if n = 0 ∨ (s.chActive r.chan.val ∧ s.wqRoom r.chan.val line = false) then none
              else some (((s.setPool r.src.stop t.1 t.2 3 (n - 1)).chWrite r .ok), 0)
          else (s.memPut line be d (psn || lost) a alloc).map (fun s => (s, if lost then 1 else 0))

/-- MaintInv with PT 1 of a line by the ownership unit (R327): no copy remains, and dirty data is in memory. -/
def State.dmaInv (s : State) (line : Nat) (a : Attr) : Option State :=
  if s.lineBusy line then none
  else
    let s := s.cleanDir line a
    match s.invAll line a with
    | none => none
    | some (s, lost) =>
      let s := if lost then s.markPoison line a else s
      let h := homeOf line
      match (if s.rd (halfState h) = HON ∨ s.rd (halfState h) = HDRAIN then s.hmcFind h line else none) with
      | some w =>
        match s.hmcWay h (hmcSet line) w with
        | some x =>
          let s := s.hmcPut h (hmcSet line) w none
          if x.dirty then s.chPut line fullBe x.data x.poison a (.mark (Fin.ofNat 32 h)) else some s
        | none => some s
      | none => some s

/-- Read n bytes from an address on, little-endian, at most one line each time; the first status that is not OK ends it. -/
def State.dmaBytes (s : State) (src : Nat) (a : Attr) (pa n : Nat) : Option (State × Nat × Rd) :=
  let lines := (List.range ((pa % 64 + n + 63) / 64)).map (fun i => pa / 64 + i)
  let r := lines.foldl (fun (acc : Option (State × List Rd)) l =>
    match acc with
    | none => none
    | some (s, rs) => (s.dmaRead src l a false).map (fun p => (p.1, rs ++ [p.2]))) (some (s, []))
  r.map (fun p =>
    let v := p.2.foldr (fun (x : Rd) v => v * 2 ^ 512 + x.data.toNat) 0
    let bad := (p.2.find? (fun x => x.psn || x.sts != 0)).getD ⟨0, false, 0⟩
    (p.1, v / 2 ^ (8 * (pa % 64)) % 2 ^ (8 * n), bad))

/-- Write n bytes at an address, little-endian, line by line in ascending order; the first status that is not OK. -/
def State.dmaPut (s : State) (src : Nat) (a : Attr) (pa n v : Nat) (psn : Bool) : Option (State × Nat) :=
  let lines := (List.range ((pa % 64 + n + 63) / 64)).map (fun i => pa / 64 + i)
  let w := v % 2 ^ (8 * n) * 2 ^ (8 * (pa % 64))
  let en := (2 ^ n - 1) * 2 ^ (pa % 64)
  lines.foldl (fun (acc : Option (State × Nat)) l =>
    match acc with
    | none => none
    | some (s, sts) =>
      if sts ≠ 0 then some (s, sts)
      else
        let i := l - pa / 64
        let be := BitVec.ofNat 64 (en / 2 ^ (64 * i))
        s.dmaWrite src l a be (BitVec.ofNat 512 (w / 2 ^ (512 * i))) psn false) (some (s, 0))

/-- The command happens whole, or waits. -/
def State.orWait (s : State) (r : Option State) : State := r.getD s

end Sys2Proof.Machine
end

