-- ==== Sys2Proof/Machine/Pir.lean ====
section
/-!
DEFINITION. The Package Interrupt Router (R430 to R435, R440, R441, R443): wired sources, messages and the message
translation tables, posted deliveries; and the arrival of a physical interrupt at a core (R436, R438, R442).
-/
namespace Sys2Proof.Machine

/-! ### Assignments and register access checks -/

/-- The key of a resource that ASSIGN names: its kind code and number (R329). -/
def asgKey (kind n : Nat) : Nat := kind * 2 ^ 24 + n

/-- The world and enclave a resource is assigned to (R329). -/
def State.assigned (s : State) (kind n : Nat) : Bool × Nat :=
  let v := Tbl.getD s.assigns (asgKey kind n) 0
  (decide (1024 ≤ v), v % 1024)

/-- The answer to a register access: its mesh status and data. -/
def State.reply (s : State) (sts data : Nat) : State := { s with ans := (sts, data) }

/-- The refusal pattern at an access's size in bytes (R322). -/
def refusalOf (n : Nat) : Nat := (List.range n).foldl (fun v _ => v * 256 + 0xC3) 0

/-- A refused register access (R322). -/
def State.devRefused (s : State) (d : Dev) (addr n : Nat) (wr : Bool) : State :=
  (s.refuseDev d.attr.world d.attr.enc.toNat addr d.src.val).reply 0 (if wr then 0 else refusalOf n)

/-- The system address of a PRS offset. -/
def prsAddr (off : Nat) : Nat := 0xFFE0000000000 + off

/-- WORLD 1 and ENC 0. -/
def Dev.secure0 (d : Dev) : Bool := d.attr.world && d.attr.enc == 0

/-! ### Sending (R432, R443) -/

/-- Record a case in PIR_LOG. -/
def State.pirLog (s : State) (reason : Nat) (world : Bool) (enc rid handle : Nat) : State :=
  ((((s.wr PIR_LOG.RID rid).wr PIR_LOG.REASON reason).wr PIR_LOG.WORLD world.toNat).wr PIR_LOG.ENC enc).wr
    PIR_LOG.HANDLE handle

/-- The identity PIR_LOG records for an origin: requester ID, ENC, and handle or source number. -/
def State.logOrigin (s : State) (o : IntFrom) (world : Bool) (reason : Nat) : State :=
  match o with
  | .source n => s.pirLog reason world (s.assigned 3 n).2 0 n
  | .msg rid h e => s.pirLog reason world e rid h
  | .core => s.pirLog reason world 0 0 0

/-- The PIR sends a physical interrupt (R436); one without a target sets BADTGT, and is not sent (R443). -/
def State.pirSend (s : State) (c vec : Nat) (world : Bool) (o : IntFrom) : State × Bool :=
  if s.coreTarget c then (s.sendInt c vec world o, true)
  else ((s.raise PIR_STS.fBADTGT).logOrigin o world 7, false)

/-! ### Message translation (R434, R435) -/

/-- The fields of a table entry. -/
def mttV (e : Nat) : Bool := e.testBit 0
def mttPost (e : Nat) : Bool := e.testBit 1
def mttVector (e : Nat) : Nat := e / 2 ^ 8 % 256
def mttCore (e : Nat) : Nat := e / 2 ^ 16 % 512
def mttRid (e : Nat) : Nat := e / 2 ^ 32 % 65536
def mttEnc (e : Nat) : Nat := e / 2 ^ 48 % 1024
def mttVmid (e : Nat) : Nat := e / 2 ^ 64 % 65536
def mttVipd (e : Nat) : Nat := e / 2 ^ 85 % 2 ^ 43 * 512

/-- The attributes with which the PIR reads its tables (R435). -/
def pirAttr (world : Bool) : Attr := ⟨world, 0, 0, 0, 3⟩

/-- The table entry of a handle: cached, or read with RdOnce; an answer with poison or an STS counts as V = 0 (R435). -/
def State.mttRead (s : State) (world : Bool) (h : Nat) : Option (State × Nat) :=
  match s.mtt.find? (fun e => e.world == world && e.handle == h) with
  | some e => some (s, e.val)
  | none =>
    let a := s.rd (PIR_MTT.BASE world.toNat) * 4096 + 16 * h
    (s.dmaRead pirStop (a / 64) (pirAttr world) false).map (fun p =>
      if p.2.psn ∨ p.2.sts ≠ 0 then (p.1, 0)
      else
        let v := lineField p.2.data (a % 64) 16
        let c : List MttEnt := if s.mtt.length < 4096 then s.mtt else s.mtt.tail
        ({ p.1 with mtt := c ++ [⟨world, h, v⟩] }, v))

/-- The number of entries of a world's table (R455). -/
def State.mttSize (s : State) (world : Bool) : Nat :=
  let l := s.rd (PIR_MTT.LOG2N world.toNat)
  if 8 ≤ l ∧ l ≤ 20 then 2 ^ l else 0

/-- A message that fails a check is dropped (R435). -/
def State.badMsg (s : State) (reason : Nat) (world : Bool) (enc rid h : Nat) : State :=
  (s.raise PIR_STS.fBADMSG).pirLog reason world enc rid h

/-- The checks of an entry, in the order of REASON (R435): the code of the first that fails. -/
def State.mttCheck (s : State) (e rid enc : Nat) (world : Bool) : Option Nat :=
  if mttV e = false then some 2
  else if mttRid e ≠ 0xFFFF ∧ mttRid e ≠ rid then some 3
  else if mttEnc e ≠ enc ∨ (enc ≠ 0 ∧ (mttPost e = false ∨ s.encBound enc (mttVmid e) world = false)) then some 4
  else if mttVector e < 16 then some 5
  else none

/-- Translate and deliver data through a world's table (R434, R435); the Bool says whether it was sent or dropped by a
check, rather than without a target. None where the entry's read must wait. -/
def State.mttDeliver (s : State) (world : Bool) (rid enc data : Nat) (o : IntFrom) : Option (State × Bool) :=
  let h := data % 2 ^ 20
  if data / 2 ^ 20 ≠ 0 then some (s.badMsg 0 world enc rid h, true)
  else if s.mttSize world ≤ h then some (s.badMsg 1 world enc rid h, true)
  else
    (s.mttRead world h).map (fun p =>
      let s := p.1
      let e := p.2
      match s.mttCheck e rid enc world with
      | some r => (s.badMsg r world enc rid h, true)
      | none =>
        if mttPost e then
          ({ s with posts := s.posts ++ [⟨mttVipd e, mttVector e, mttVmid e, world, o, false⟩] }, true)
        else s.pirSend (mttCore e) (mttVector e) world o)

/-! ### Wired sources (R431, R432) -/

/-- A source is level-triggered: every source but a sideband input with TRIG 1 (R430). -/
def State.levelSrc (s : State) (n : Nat) : Bool := decide (16 ≤ n) || !s.on (PIR_SRC.TRIG n)

/-- Send a source once (R432): whether it left, and the state. A source whose table entry must wait does not leave. Its
entry must allow any requester (R434): 0x10000 is no requester's ID, and PIR_LOG shows 0 for it. -/
def State.srcSend (s : State) (n : Nat) : State × Bool :=
  let (w, e) := s.assigned 3 n
  if s.on (PIR_SRC.VIA n) then
    match s.mttDeliver w 0x10000 e (s.rd (PIR_SRC.HANDLE n)) (.source n) with
    | some p => p
    | none => (s, false)
  else if e ≠ 0 then ((s.raise PIR_STS.fBADTGT).logOrigin (.source n) w 4, false)
  else s.pirSend (s.rd (PIR_SRC.CORE n)) (s.rd (PIR_SRC.VECTOR n)) w (.source n)

/-- Deliver a source if it may be delivered now (R431); `again` sends one that was undelivered again (R443). -/
def State.srcTry (s : State) (n : Nat) (again : Bool) : State :=
  if s.on (PIR_SRC.MASK n) then s
  else if s.levelSrc n then
    if s.on (PIR_SRC.INSVC n) = false ∧ ((s.on (PIR_SRC.LEVEL n) = true ∧ s.on (PIR_SRC.PEND n) = false) ∨
        (again = true ∧ s.on (PIR_SRC.PEND n) = true)) then
      match s.srcSend n with
      | (s, true) => (s.wr (PIR_SRC.INSVC n) 1).wr (PIR_SRC.PEND n) 0
      | (s, false) => s
    else s
  else if s.on (PIR_SRC.PEND n) then
    match s.srcSend n with
    | (s, true) => s.wr (PIR_SRC.PEND n) 0
    | (s, false) => s
  else s

/-- The input of a source changes: a level source follows it, and an edge source takes its rising edges (R431). -/
def State.srcInput (s : State) (n : Nat) (v : Bool) : State :=
  let was := s.on (PIR_SRC.LEVEL n)
  let s := s.wr (PIR_SRC.LEVEL n) v.toNat
  if s.levelSrc n then s.srcTry n false
  else if v = true ∧ was = false then (s.wr (PIR_SRC.PEND n) 1).srcTry n false
  else s

/-- Some flag of a register word that is enabled is set. -/
def State.anySet (s : State) (fs : List Fld) : Bool := fs.any (fun f => s.on f)

/-- The level of a source that the package itself drives (R430): ERR's pending records (R513), events of the PMC and of
the relay port (R536), the split ring (R491), the timebase bell, and the mailboxes (R447, R449). -/
def State.srcLevel (s : State) (n : Nat) : Bool :=
  if n = 49 then s.on ERR_FIFO_STS.PEND_CORR
  else if n = 50 then s.on ERR_FIFO_STS.PEND_ERR
  else if n = 51 then s.on ERR_FIFO_STS.PEND_FATAL
  else if n = 52 then
    s.anySet [PMC_STS.MEM_KEPT, PMC_STS.CAPMISS, PMC_STS.TJHOT, PMC_STS.CDU_STALE, PMC_STS.FLOWTHR, PMC_STS.ONBATT]
  else if n = 53 then s.regWord RLY_STS.CRC.addr &&& s.regWord RLY_IEN.EN.addr != 0
  else if n = 54 then
    decide (s.rd SPL_CTL.WATER * 2 ^ s.rd SPL_RING.LOG2SZ ≤ 16 * ((s.rd SPL_PI.PI + 2 ^ 32 - s.rd SPL_CI.CI) % 2 ^ 32)) ||
      s.on SPL_STS.LOST || s.on SPL_STS.RINGERR
  else if n = 55 then s.tb.bell
  else if 78 ≤ n ∧ n < 128 then
    s.regWord (MBX_DB.DB (n - 64) 0).addr &&& s.regWord (MBX_DBEN.EN (n - 64)).addr != 0
  else if 128 ≤ n ∧ n < 192 then s.on (MBX_STS.TXE (n - 128)) && s.on (MBX_CFG.TXIE (n - 128))
  else s.on (PIR_SRC.LEVEL n)

/-- A source that the package drives takes its present level. The PIR stands outside AON: where the islands are stopped, and
in STANDBY, nothing moves. -/
def State.srcSync (s : State) (n : Nat) : State :=
  let v := s.srcLevel n
  if s.stopped = true ∨ s.pkgMode = 1 ∨ s.on (PIR_SRC.LEVEL n) = v then s else s.srcInput n v

/-- The sources 49 to 55 take their present levels. -/
def State.unitSync (s : State) : State := [49, 50, 51, 52, 53, 54, 55].foldl (fun s n => s.srcSync n) s

/-- A write of PIR_SRC n (R431, R443, R455): checked against the source's assignment; reserved encodings leave their
field (R8); DONE ends a level source's service; an undelivered source is sent again. -/
def State.srcWrite (s : State) (n v : Nat) (d : Dev) : State :=
  let addr := prsAddr 0xA01000 + 8 * n
  let (w, e) := s.assigned 3 n
  if d.attr.world ≠ w ∨ d.attr.enc.toNat ≠ e then s.devRefused d addr 8 true
  else
    let s := s.reply 0 0
    let s := (((s.wr (PIR_SRC.HANDLE n) (v / 2 ^ 33)).wr (PIR_SRC.VIA n) (v / 2 ^ 32)).wr (PIR_SRC.CORE n)
      (v / 2 ^ 20)).wr (PIR_SRC.MASK n) v
    let s := if v / 2 ^ 12 % 256 < 16 then s.logReg addr else s.wr (PIR_SRC.VECTOR n) (v / 2 ^ 12)
    let s := if n < 16 then s.wr (PIR_SRC.TRIG n) (v / 4) else s
    let s := if v.testBit 3 ∧ s.levelSrc n = true then s.wr (PIR_SRC.INSVC n) 0 else s
    s.srcTry n true

/-! ### Deliveries that end (R435, R441, R443) -/

/-- Invalidated entries no longer serve a message once none translated with them is on its way (R435). -/
def State.mttSettle (s : State) : State :=
  if s.ints.any (fun i => i.stale) ∨ s.posts.any (fun p => p.stale) then s else s.wr PIR_MTTINV.DONE 1

/-- A delivery store is answered with STS 2, 3 or 4 (R443). -/
def State.undelivered (s : State) (o : IntFrom) (world : Bool) : State :=
  match o with
  | .source n => ((s.wr (PIR_SRC.INSVC n) 0).wr (PIR_SRC.PEND n) 1).logOrigin o world 7
  | _ => (s.raise PIR_STS.fUNDELIV).logOrigin o world 7

/-- The delivery through a posted entry (R440, R441): each access begins after the answer to the one before. None where
one must wait. -/
def State.postDeliver (s : State) (p : Post) : Option State :=
  let a : Attr := ⟨p.world, 0, BitVec.ofNat 16 p.vmid, 0, 0⟩
  let fail (s : State) : State := (s.raise PIR_STS.fVIPERR).logOrigin p.origin p.world 7
  match s.dmaPut pirStop a (p.vipd + p.vec) 1 1 false with
  | none => none
  | some (s, st) =>
    if st ≠ 0 then some (fail s)
    else
      match s.dmaPut pirStop a (p.vipd + 0x100) 1 1 false with
      | none => none
      | some (s, st) =>
        if st ≠ 0 then some (fail s)
        else
          match s.dmaRead pirStop ((p.vipd + 0x100) / 64) a false with
          | none => none
          | some (s, r) =>
            if r.psn ∨ r.sts ≠ 0 then some (fail s)
            else
              let c := lineField r.data 8 8
              if c.testBit 32 then some s
              else some (s.pirSend (c % 512) (c / 65536 % 256) p.world p.origin).1

/-- The oldest posted delivery (R441). -/
def State.postNext (s : State) : State :=
  match s.posts with
  | [] => s
  | p :: ps => s.orWait ((({ s with posts := ps }).postDeliver p).map State.mttSettle)

/-- A write of PIR_MTTINV (R435, R455): the table is that of the writer's world. -/
def State.mttInvalidate (s : State) (v : Nat) (d : Dev) : State :=
  if d.attr.enc ≠ 0 then s.devRefused d (prsAddr 0xA00030) 4 true
  else
    let w := d.attr.world
    let h := v % 2 ^ 20
    let all := v.testBit 20
    let hit (o : IntFrom) (world : Bool) : Bool := world == w && (match o with
      | .msg _ k _ => all || k == h
      | .source n => s.on (PIR_SRC.VIA n) && (all || s.rd (PIR_SRC.HANDLE n) == h)
      | .core => false)
    let s : State := { s with
      mtt := s.mtt.filter (fun e => !(e.world == w && (all || e.handle == h)))
      ints := s.ints.map (fun i => if hit i.origin i.world then { i with stale := true } else i)
      posts := s.posts.map (fun p => if hit p.origin p.world then { p with stale := true } else p) }
    ((s.reply 0 0).wr PIR_MTTINV.DONE 0).mttSettle

/-! ### The message window (R433) -/

/-- A device store at the message window (R433 to R435): its size field, address bits and data. A message from behind a root
port waits until the memory writes that came before it are visible (R76). -/
def State.msiArrive (s : State) (m : Msg) : State :=
  if s.postedDone m.src.val (some m.rid) = false then s
  else s.deliver m (fun s m =>
    let pa := m.line.toNat * 64 + m.low.toNat
    let fin (s : State) : State := (s.returnCredit m).answer m .wrAck 0 0 false
    let rid := pa / 4 % 65536
    let data := lineField m.data m.low.toNat 4
    let enc := m.attr.enc.toNat
    let die : Bool := match slotOfStop m.src.val with
      | some t => decide (t < 12)
      | none => false
    if die then fin (s.pirLog 6 m.attr.world enc 0 0)
    else if m.size ≠ 2 ∨ m.low.toNat % 4 ≠ 0 then fin (s.logRegBy (0x08, 0) pa)
    else
      match s.mttDeliver m.attr.world rid enc data (.msg rid (data % 2 ^ 20) enc) with
      | some p => fin p.1
      | none => s.post m)

/-! ### At the core (R436, R438, R442, R470, R544) -/

/-- Wake a core for which an interrupt has become pending (R443, R470). -/
def State.wakeCore (s : State) (c : Nat) : State := s.modCore c (fun x => { x with idle := 0 })

/-- The virtual interrupts pending for a core, the banks a running core may take (R438), highest first: the bank, its
vector, and the level it is taken at. -/
def State.takeable (s : State) (c : Nat) : Option (Nat × Nat × Lvl) :=
  let x := s.core c
  let w := s.on (WCTL.WORLD c)
  match x.bankS.deliverable with
  | some v => some (1, v, .w)
  | none =>
    let n := if w then none else x.bankN.deliverable
    match n with
    | some v => some (0, v, if s.on (VM_CTL.S2EN c) then .h else if x.lvl = .u then .s else x.lvl)
    | none =>
      match (if s.on (VM_CTL.S2EN c) ∧ (x.lvl = .s ∨ x.lvl = .u) then x.bankV.deliverable else none) with
      | some v => some (2, v, .s)
      | none => none

/-- A physical interrupt reaches its core: its vector becomes pending (R436), or the virtual interrupts are harvested
(R442); the core wakes. -/
def State.intAt (s : State) (c vec : Nat) (world : Bool) : State :=
  if world = false ∧ s.on (VIP_CTL.EN c) ∧ s.rd (VIP_CTL.NV c) = vec then
    ((s.wakeCore c).harvest c).poke c
  else if vec < 16 then s
  else
    let b := if world then 1 else 0
    let s := s.modCore c (fun x => x.setBank b { x.bank b with pend := setBit (x.bank b).pend vec })
    let s := s.wakeCore c
    -- a Secure interrupt takes a core out of halt that was halted in the Normal world, unless INV_S allows it (R544)
    let x := s.core c
    let s := if world = true ∧ x.halted = true ∧ s.on (WCTL.WORLD c) = false ∧ s.on DBG_POLICY.INV_S = false ∧
        x.bankS.deliverable.isSome = true then
        s.modCore c (fun x => { x with halted := false, haltPend := true })
      else s
    s.poke c

/-- A message is the store of an interrupt, whatever its TXN. -/
def IntMsg.stores (i : IntMsg) (m : Msg) : Bool := { m with txn := 0, attr := (intMsg i.core i.vec i.world).attr } ==
  intMsg i.core i.vec i.world && m.attr.world == i.world

/-- The PIR has the answer to the store of an interrupt (R443): none of STS 2, 3 and 4 says that it has been delivered. -/
def State.intAnswered (s : State) (rq : Msg) (sts : Nat) : State :=
  match s.ints.find? (fun i => i.stores rq) with
  | none => s
  | some i =>
    let s := ({ s with ints := s.ints.erase i }).mttSettle
    if 2 ≤ sts ∧ sts ≤ 4 then s.undelivered i.origin i.world else s

/-- A WrAck reaches the PIR. -/
def State.pirAck (s : State) (m : Msg) : State :=
  s.deliver m (fun s m => match s.takeAnswer m with
    | (some rq, s) => s.intAnswered rq m.known.sts.toNat
    | (none, s) => s)

/-- An interrupt store reaches the target's die (R436). A core that has gone offline since answers as one that is off (R443,
assumption 82). -/
def State.intStore (s : State) (c vec : Nat) (world : Bool) (m : Msg) : State :=
  s.deliver m (fun s m =>
    let fin (s : State) (sts : Nat) : State := (s.returnCredit m).answer m .wrAck sts 0 false
    if (s.core c).online then fin (s.intAt c vec world) 0 else fin s 3)

/-- The core, vector and world of an interrupt that a message of the PIR to a die stores. -/
def Msg.interrupt? (m : Msg) : Option (Nat × Nat × Bool) :=
  match slotOfStop m.dst.val with
  | some t =>
    let c := 24 * t + (m.line.toNat - (0xFFE0002000000 + 0x100000 * t) / 64) % 24
    let i : IntMsg := ⟨c, m.data.toNat % 256, m.attr.world, .core, false⟩
    if m.src.val = pirStop ∧ t < 12 ∧ i.stores m = true then some (i.core, i.vec, i.world) else none
  | none => none

/-- The oldest interrupt store of a vector to a core, in one world, arrives. -/
def State.intArrive (s : State) (c vec : Nat) (world : Bool) : State :=
  let of (f : Flit) : Option Msg := match f.load with
    | .msg m => if IntMsg.stores ⟨c, vec, world, .core, false⟩ m then some m else none
    | _ => none
  s.intStore c vec world ((s.mesh.net.findSome? of).getD (intMsg c vec world))

end Sys2Proof.Machine
end

