-- ==== Sys2Proof/Machine/Mbx.lean ====
section
/-!
DEFINITION. The mailboxes (R444 to R453): packing FIFOs with their doorbells, their configuration, their checks, and
the messages that the firmware processors read and write.
-/
namespace Sys2Proof.Machine

def Mbx.init : Mbx := ⟨[], none, 0, false, 0⟩

def State.mb (s : State) (m : Nat) : Mbx := Tbl.getD s.mbx m Mbx.init

/-! ### Configuration (R444, R456) -/

/-- The configuration of a mailbox: sender's and receiver's world and ENC, ANY, OWNTAG, RXOFF and RXDOM. -/
structure MbxCfg where
  sworld : Bool
  senc : Nat
  rworld : Bool
  renc : Nat
  any : Bool
  own : Bool
  rxoff : Nat
  rxdom : Nat
deriving DecidableEq, Repr

/-- The configuration in force; that of mailboxes 0 to 15 is fixed (R444). The firmware processors act with WORLD 1 and
ENC 0 (R310). -/
def State.mbxCfg (s : State) (m : Nat) : MbxCfg :=
  if m < 14 then
    if m % 2 = 0 then
      if m = 8 then ⟨false, 0, true, 0, false, false, 1, 21⟩
      else if m = 10 then ⟨true, 0, true, 0, false, false, 1, 21⟩
      else ⟨false, 0, true, 0, true, false, if m = 12 then 1 else 0, 21⟩
    else ⟨true, 0, false, 0, false, true, 1, 21⟩
  else
    ⟨s.on (MBX_CFG.SWORLD m), s.rd (MBX_CFG.SENC m), s.on (MBX_CFG.RWORLD m), s.rd (MBX_CFG.RENC m),
      s.on (MBX_CFG.ANY m), s.on (MBX_CFG.OWNTAG m), s.rd (MBX_CFG.RXOFF m), s.rd (MBX_CFG.RXDOM m)⟩

/-- MBX_CFG as it reads. -/
def State.mbxCfgWord (s : State) (m : Nat) : Nat :=
  if m < 14 then
    let c := s.mbxCfg m
    c.rxdom * 2 ^ 41 + c.rxoff * 2 ^ 39 + c.own.toNat * 2 ^ 37 + c.any.toNat * 2 ^ 36 + c.rworld.toNat * 2 ^ 32 +
      c.renc * 2 ^ 22 + c.sworld.toNat * 2 ^ 21 + c.senc * 2 ^ 11
  else s.regWord (MBX_CFG.LOCK m).addr

/-- A domain is ON; 20 and 21 are always on (R36, R457). -/
def State.domOn (s : State) (d : Nat) : Bool := decide (20 ≤ d) || s.rd (PMC_DOM.STATE d) == 2

/-! ### The status fields and sources -/

/-- The status fields and the sources of a mailbox follow its FIFO (R446, R447, R449). -/
def State.setMb (s : State) (m : Nat) (x : Mbx) : State :=
  let s := { s with mbx := Tbl.put s.mbx m Mbx.init x }
  let s := (s.wr (MBX_STS.COUNT m) x.ents.length).wr (MBX_STS.EMPTY m) x.ents.isEmpty.toNat
  let s := s.wr (MBX_STS.OPEN m) (match x.opn with
    | some o => if o.drop then 0 else 1
    | none => 0)
  match x.ents with
  | e :: _ => ((s.wr (MBX_STS.HEAD_VALID m) e.valid).wr (MBX_STS.HEAD_LAST m) e.last.toNat).wr (MBX_STS.HEAD_DMG m)
      e.dmg.toNat
  | [] => ((s.wr (MBX_STS.HEAD_VALID m) 0).wr (MBX_STS.HEAD_LAST m) 0).wr (MBX_STS.HEAD_DMG m) 0

/-- The two PIR sources of a mailbox take their levels (R444, R447, R449). -/
def State.mbSync (s : State) (m : Nat) : State := (s.srcSync (64 + m)).srcSync (128 + m)

/-- A doorbell bit becomes set; in a WAKE mailbox an enabled one sends a wake request for the receiver's domain
(R449, R450), which is ignored for domains 20 and 21: it powers the domain on, or is held while the domain is CLOSING
(R465). -/
def State.doorbell (s : State) (m b : Nat) : State :=
  let c := s.mbxCfg m
  let was := s.on (MBX_DB.DB m b)
  let s := s.raise (MBX_DB.fDB m b)
  if was = false ∧ c.rxoff = 2 ∧ c.rxdom < 20 ∧ s.domOn c.rxdom = false ∧ (s.rd (MBX_DBEN.EN m)).testBit b then
    if s.rd (PMC_DOM.STATE c.rxdom) = 3 then { s with wakes := s.wakes ++ [c.rxdom] }
    else if s.rd (PMC_DOM.STATE c.rxdom) = 1 then s
    else s.wr (PMC_DOM.STATE c.rxdom) 1
  else s

/-! ### Writing (R445, R447, R452) -/

/-- Little-endian words, four bytes each. -/
def packWords (ws : List Nat) : Nat := ws.foldr (fun w v => w + 2 ^ 32 * v) 0

/-- Close the open entry with n valid bytes. -/
def closeEnt (o : MbxOpen) (ws : List Nat) (n : Nat) (last : Bool) : MbxEnt :=
  ⟨packWords ws % 2 ^ (8 * n), n, last, last && o.dmg, o.world, o.enc⟩

/-- One word into a mailbox; `nb` is the number of valid bytes of a message's last word (R445). -/
def State.mbWord (s : State) (m w : Nat) (nb : Option Nat) (src : Nat) (world : Bool) (enc : Nat) : State :=
  let x := s.mb m
  let o := x.opn.getD ⟨[], src, world, enc, false, false⟩
  if o.drop then (if nb.isSome then s.setMb m { x with opn := none } else s)
  else if o.words.isEmpty ∧ 32 ≤ x.ents.length then
    ((s.setMb m { x with opn := some { o with dmg := true } }).raise (MBX_STS.fOVF m)).mbSync m
  else
    let ws := o.words ++ [w]
    match nb with
    | none =>
      if ws.length < 4 then s.setMb m { x with opn := some { o with words := ws } }
      else s.setMb m { x with ents := x.ents ++ [closeEnt o ws 16 false], opn := some { o with words := [] } }
    | some n =>
      let s := s.setMb m { x with ents := x.ents ++ [closeEnt o ws (4 * o.words.length + n) true], opn := none }
      -- the PMC keeps the order of its requests across mailboxes 8 and 10 (R461)
      let s : State := if m = 8 ∨ m = 10 then { s with pmc := { s.pmc with order := s.pmc.order ++ [m] } } else s
      (s.doorbell m 0).mbSync m

/-- The address of a mailbox register. -/
def mbxAddr (m off : Nat) : Nat := prsAddr 0xB00000 + 0x1000 * m + off

/-- A sender's access passes the check of R451. The answer mailboxes take only their firmware processor's writes. -/
def State.mbSender (s : State) (m : Nat) (d : Dev) : Bool :=
  let c := s.mbxCfg m
  if m < 14 ∧ m % 2 = 1 then d.secure0 && d.src.val == svcStop
  else c.any || (d.attr.world == c.sworld && d.attr.enc.toNat == c.senc)

/-- A receiver's access to a register other than the doorbells passes the check of R451; in an empty OWNTAG mailbox the entry
popped last stands for the head (assumption 44). -/
def State.mbReceiver (s : State) (m : Nat) (d : Dev) : Bool :=
  let c := s.mbxCfg m
  if m < 14 ∧ m % 2 = 0 then d.secure0 && d.src.val == svcStop
  else if c.own then
    match (s.mb m).ents with
    | e :: _ => d.attr.world == e.world && d.attr.enc.toNat == e.enc
    | [] => d.attr.world == (s.mb m).lastWorld && d.attr.enc.toNat == (s.mb m).lastEnc
  else d.attr.world == c.rworld && d.attr.enc.toNat == c.renc

/-- An access to MBX_DB or MBX_DBEN passes the check of R451. -/
def State.mbDoorbells (s : State) (m : Nat) (d : Dev) : Bool :=
  if (s.mbxCfg m).own then true else s.mbReceiver m d

/-- A write to a mailbox while its receiver's domain is not ON, with RXOFF REFUSE: STS 3 (R450). -/
def State.mbOff (s : State) (m : Nat) : Bool :=
  let c := s.mbxCfg m
  c.rxoff == 0 && !s.domOn c.rxdom

/-- A sender's write: its checks (R444, R450, R451, R452), then the word. -/
def State.mbWrite (s : State) (m w : Nat) (nb : Option Nat) (d : Dev) : State :=
  let addr := mbxAddr m (if nb.isSome then 8 else 0)
  let n := if nb.isSome then 8 else 4
  if m = 14 ∨ m = 15 then (s.logReg addr).reply 0 0
  else if s.mbSender m d = false then s.devRefused d addr n true
  else if s.mbOff m then (s.raise (MBX_STS.fROFF m)).reply 3 0
  else
    let other : Bool := match (s.mb m).opn with
      | some o => o.src != d.src.val || o.world != d.attr.world || o.enc != d.attr.enc.toNat
      | none => false
    if other then (s.raise (MBX_STS.fSNDREF m)).reply 0 0
    else (s.mbWord m (w % 2 ^ 32) nb d.src.val d.attr.world d.attr.enc.toNat).reply 0 0

/-- A write to MBX_DB_SET (R449): bits 30 to 1. -/
def State.mbDbSet (s : State) (m v : Nat) (d : Dev) : State :=
  let addr := mbxAddr m 0x10
  if m = 14 ∨ m = 15 then (s.logReg addr).reply 0 0
  else if s.mbSender m d = false then s.devRefused d addr 4 true
  else if s.mbOff m then (s.raise (MBX_STS.fROFF m)).reply 3 0
  else
    (((List.range 30).foldl (fun s i => if v.testBit (i + 1) then s.doorbell m (i + 1) else s) s).mbSync m).reply 0 0

/-- A W1C write of MBX_DB (R13, R449). -/
def State.mbDbClear (s : State) (m v : Nat) (d : Dev) : State :=
  let addr := mbxAddr m 0x38
  if m = 14 ∨ m = 15 then (s.logReg addr).reply 0 0
  else if s.mbDoorbells m d = false then s.devRefused d addr 4 true
  else
    (((List.range 32).foldl (fun s i => if v.testBit i then s.wr (MBX_DB.DB m i) 0 else s) s).mbSync m).reply 0 0

/-! ### Reading (R446, R447) -/

/-- The head entry is popped. -/
def State.mbPop (s : State) (m : Nat) : State :=
  let x := s.mb m
  match x.ents with
  | [] => s.raise (MBX_STS.fUNDERRUN m)
  | e :: es =>
    let s := s.setMb m { x with ents := es, last := e.data, lastWorld := e.world, lastEnc := e.enc }
    (if es.isEmpty ∧ x.opn.isNone then s.raise (MBX_STS.fTXE m) else s).mbSync m

/-- The 128 bits that MBX_OUT_LO and MBX_OUT_HI show. -/
def Mbx.head (x : Mbx) : Nat := match x.ents with
  | e :: _ => e.data
  | [] => x.last

/-- A read of MBX_OUT_LO (`hi` false) or MBX_OUT_HI: `lg` is the access's size, log2 of bytes, `half` the 4-byte half it
starts at (R10, R446). -/
def State.mbOut (s : State) (m : Nat) (hi : Bool) (lg half : Nat) (d : Dev) : State :=
  let addr := mbxAddr m (if hi then 0x28 else 0x20) + 4 * half
  if m = 14 ∨ m = 15 ∨ lg < 2 ∨ (lg = 3 ∧ half ≠ 0) ∨ 2 ≤ half then (s.logReg addr).reply 0 0
  else if s.mbReceiver m d = false then s.devRefused d addr (2 ^ lg) false
  else
    let v := (s.mb m).head / 2 ^ (if hi then 64 else 0) % 2 ^ 64 / 2 ^ (32 * half)
    let v := if lg = 3 then v else v % 2 ^ 32
    let s := if hi = true ∧ (lg = 3 ∨ half = 1) then s.mbPop m else s
    s.reply 0 v

/-! ### Losses (R448, R450, R453) -/

/-- The FIFO is forced empty (R448). -/
def State.mbForce (s : State) (m : Nat) : State :=
  let x := s.mb m
  let s := s.setMb m { x with ents := [], opn := x.opn.map (fun o => { o with words := [], drop := true }) }
  let s : State := { s with pmc := { s.pmc with order := s.pmc.order.filter (fun n => n != m) } }
  (((s.raise (MBX_STS.fQRESET m)).raise (MBX_STS.fTXE m)).doorbell m 31).mbSync m

/-- The receiver's domain leaves ON: a REFUSE mailbox is emptied, with the message that is open, and its doorbells are
cleared (R450). -/
def State.mbEmpty (s : State) (m : Nat) : State :=
  let s := s.setMb m { s.mb m with ents := [], opn := none }
  let s := (List.range 32).foldl (fun s i => s.wr (MBX_DB.DB m i) 0) s
  ((s.raise (MBX_STS.fROFF m)).raise (MBX_STS.fTXE m)).mbSync m

/-- A domain leaves ON: what its mailboxes do (R450). -/
def State.mbDomOff (s : State) (dom : Nat) : State :=
  (List.range 64).foldl (fun s m =>
    let c := s.mbxCfg m
    if 16 ≤ m ∧ c.rxdom = dom ∧ c.rxoff = 0 then s.mbEmpty m else s) s

/-- A head answer unread for 100 ms in an OWNTAG mailbox is discarded (R453), with what is still to come of it. -/
def State.mbAge (s : State) (m : Nat) : State :=
  let x := s.mb m
  if (s.mbxCfg m).own = false ∨ x.ents.isEmpty then s
  else
    let whole := x.ents.any (fun e => e.last)
    let es := (x.ents.dropWhile (fun e => !e.last)).tail
    let opn := if whole then x.opn else x.opn.map (fun o => { o with words := [], drop := true })
    let s := (s.setMb m { x with ents := es, opn := opn }).raise (MBX_STS.fAGEDROP m)
    (if es.isEmpty ∧ x.opn.isNone then s.raise (MBX_STS.fTXE m) else s).mbSync m

/-! ### The firmware processors -/

/-- The message at the head of a mailbox, when it is complete: its bytes as a number, their count, its damage mark, and
the WORLD and ENC of its sender. -/
structure FwMsg where
  val : Nat
  len : Nat
  dmg : Bool
  world : Bool
  enc : Nat
deriving DecidableEq, Repr

/-- The head message of a mailbox. -/
def State.fwPeek (s : State) (m : Nat) : Option FwMsg :=
  let es := (s.mb m).ents
  let body := es.takeWhile (fun e => !e.last)
  match es.drop body.length with
  | [] => none
  | l :: _ =>
    let all := body ++ [l]
    some ⟨all.foldr (fun e v => e.data + 2 ^ 128 * v) 0, 16 * body.length + l.valid, l.dmg, l.world, l.enc⟩

/-- A firmware processor reads the head message whole. -/
def State.fwTake (s : State) (m : Nat) : State :=
  let s := ((s.mb m).ents.takeWhile (fun e => !e.last)).foldl (fun s _ => s.mbPop m) (s.mbPop m)
  { s with pmc := { s.pmc with order := s.pmc.order.erase m } }

/-- A firmware processor writes an answer of n 32-bit words, with the WORLD and ENC of its request (R444). -/
def State.fwAnswer (s : State) (m : Nat) (v n : Nat) (world : Bool) (enc : Nat) : State :=
  (List.range n).foldl (fun s k =>
    s.mbWord m (v / 2 ^ (32 * k) % 2 ^ 32) (if k + 1 = n then some 4 else none) svcStop world enc) s

/-- The CLASS and CODE bytes of LINK, TIME and REPORT frames, and of the ring's commands (R528). -/
def rlyReports : List Nat := [0x01, 0x02, 0x21, 0x41, 0x42, 0x43, 0x44]
def rlyCommands : List Nat := [0x61, 0x62, 0x81, 0x82, 0x83, 0x84, 0x85, 0x86, 0xA1]

/-- The firmware processor behind a mailbox knows a request's code (R326, R462, R528); the other mailboxes have none to
check. -/
def fwKnown (m code : Nat) : Bool :=
  if m = 0 ∨ m = 2 ∨ m = 4 ∨ m = 6 then decide (1 ≤ code) && decide (code ≤ 10)
  else if m = 8 ∨ m = 10 then decide (1 ≤ code) && decide (code ≤ 9)
  else if m = 12 then rlyCommands.contains code
  else true

/-- The answer to a request whose code names no operation (R326, R462): EINVAL; in mailbox 12 the frame's byte 0 stands
first, and LINK, TIME and REPORT are answered EPERM (R527, R529). -/
def State.fwUnknown (s : State) (m : Nat) (x : FwMsg) : State :=
  let tag := x.val / 2 ^ 16 % 65536 * 65536
  let c := x.val % 256
  if m = 12 then
    s.fwAnswer 13 (c + (if rlyReports.contains c then EPERM else EINVAL) * 256 + tag) 1 x.world x.enc
  else s.fwAnswer (m + 1) (EINVAL + tag) (if m < 8 then 16 else 4) x.world x.enc

/-- Requests at the head of a mailbox whose code names no operation are answered. -/
def State.fwSkip (m : Nat) : Nat → State → State
  | 0, s => s
  | n + 1, s =>
    match s.fwPeek m with
    | none => s
    | some x =>
      if fwKnown m (x.val % 256) then s else State.fwSkip m n ((s.fwTake m).fwUnknown m x)

/-- A firmware processor looks at its mailbox again. -/
def State.fwGo (s : State) (m : Nat) : State := State.fwSkip m (s.mb m).ents.length s

/-- There is room for an answer of n 16-byte entries. -/
def State.fwRoom (s : State) (m n : Nat) : Bool := decide ((s.mb m).ents.length + n ≤ 32)

end Sys2Proof.Machine
end

