-- ==== Sys2Proof/Machine/Interrupts.lean ====
section
/-!
DEFINITION. The commands of the interrupt router, of the cores' interrupt blocks and of the mailboxes (R431 to R453).
-/
namespace Sys2Proof.Machine

/-- The input of a wired source takes a level (R430, R431). -/
def execWiredSourceLevel (n : BitVec 8) (level : Bool) (s : State) : Host.Outcome State Fault Refusal :=
  s.ifRuns fun s => (if (56 ≤ n.toNat ∧ n.toNat < 78) ∨ 192 ≤ n.toNat then s
    else
      let s := if n.toNat < 16 then s.wr (SB_CTL.IN n.toNat) level.toNat else s
      s.srcInput n.toNat level)

/-- A rising edge at a sideband input (R431). -/
def execWiredSourceEdge (n : BitVec 8) (s : State) : Host.Outcome State Fault Refusal :=
  s.ifRuns fun s => (if n.toNat < 16 ∧ s.on (PIR_SRC.TRIG n.toNat) then
      ((s.wr (PIR_SRC.LEVEL n.toNat) 1).wr (PIR_SRC.PEND n.toNat) 1).srcTry n.toNat false
    else s)

/-- A write of PIR_SRC whose DONE is 1 (R431). -/
def execPirSrcDone (n : BitVec 8) (v : BitVec 64) (d : Dev) (s : State) : Host.Outcome State Fault Refusal :=
  s.ifRuns fun s => (s.srcWrite n.toNat (v ||| 8).toNat d)

/-- A write of PIR_SRC (R443, R455). -/
def execPirSrcWrite (n : BitVec 8) (v : BitVec 64) (d : Dev) (s : State) : Host.Outcome State Fault Refusal :=
  s.ifRuns fun s => (s.srcWrite n.toNat v.toNat d)

/-- A device store reaches the message window (R433, R435). -/
def execMsiMessage (m : Msg) (s : State) : Host.Outcome State Fault Refusal :=
  s.ifRuns fun s => (s.msiArrive { m with opc := .wrPart })

/-- A write of PIR_MTTINV (R435). -/
def execMttInvalidate (v : BitVec 32) (d : Dev) (s : State) : Host.Outcome State Fault Refusal :=
  s.ifRuns fun s => (s.mttInvalidate v.toNat d)

/-- The oldest posted delivery is made (R441). -/
def execPostedDelivery (s : State) : Host.Outcome State Fault Refusal := s.ifRuns fun s => s.postNext

/-- A physical interrupt reaches its core (R436, R442, R443, R470, R544). -/
def execInterruptArrive (c : Core) (vec : BitVec 8) (world : Bool) (s : State) : Host.Outcome State Fault Refusal :=
  s.ifRuns fun s => (s.intArrive c.val vec.toNat world)

/-- A core takes the interrupt its banks offer, at the level R438 gives; a waiting FENCE is executed again on return
(R59). The entry itself is the instruction set reference's (assumption 10). -/
def State.intTake (s : State) (c : Nat) : State :=
  let x := s.core c
  if s.coreRuns c = false then s
  else
    match s.takeable c with
    | none => s
    | some (b, _, l) =>
      if b = 1 then
        if x.lvl = .w then s.modCore c (fun x => { x with pc := s.rd (WVEC c), ph := 0, front := [] })
        else
          ((s.wr (WCTL.RET_LVL c) (lvlCode x.lvl)).wr (WCTL.WORLD c) 1).modCore c (fun x => { x with
            lvl := .w, retLvl := x.lvl, retPc := x.pc, pc := s.rd (WVEC c), ph := 0, front := [] })
      else s.modCore c (fun x => { x with lvl := l, ph := 0, front := [] })

def execInterruptTake (c : Core) (s : State) : Host.Outcome State Fault Refusal := s.ifRuns fun s => (s.intTake c.val)

/-- A write of MBX_IN (R445). -/
def execMbxInWrite (m : BitVec 6) (v : BitVec 32) (d : Dev) (s : State) : Host.Outcome State Fault Refusal :=
  s.ifRuns fun s => (s.mbWrite m.toNat v.toNat none d)

/-- A 64-bit write of MBX_END (R445). -/
def execMbxEndWrite (m : BitVec 6) (v : BitVec 64) (d : Dev) (s : State) : Host.Outcome State Fault Refusal :=
  s.ifRuns fun s => ((s.mbWrite m.toNat v.toNat (some (v.toNat / 2 ^ 32 % 4 + 1)) d).fwGo m.toNat)

/-- A write of MBX_DB_SET (R449). -/
def execMbxDbSetWrite (m : BitVec 6) (v : BitVec 32) (d : Dev) (s : State) : Host.Outcome State Fault Refusal :=
  s.ifRuns fun s => (s.mbDbSet m.toNat v.toNat d)

/-- A read of MBX_OUT_HI (R446). -/
def execMbxOutHiRead (m : BitVec 6) (lg half : BitVec 2) (d : Dev) (s : State) : Host.Outcome State Fault Refusal :=
  s.ifRuns fun s => (s.mbOut m.toNat true lg.toNat half.toNat d)

/-- A write of MBX_DB (R449). -/
def execMbxDbClear (m : BitVec 6) (v : BitVec 32) (d : Dev) (s : State) : Host.Outcome State Fault Refusal :=
  s.ifRuns fun s => (s.mbDbClear m.toNat v.toNat d)

/-- The pointer copies of a mailbox differ (R448). -/
def execMbxPtrMismatch (m : BitVec 6) (s : State) : Host.Outcome State Fault Refusal := s.ifRuns fun s => (s.mbForce m.toNat)

/-- A head answer has aged out (R453). -/
def execMbxAgeDrop (m : BitVec 6) (s : State) : Host.Outcome State Fault Refusal := s.ifRuns fun s => (s.mbAge m.toNat)

end Sys2Proof.Machine
end

