-- ==== Sys2Proof/Machine/Cipher.lean ====
section
/-! DEFINITION. The modes of operation that the spec names by their standards (R371, R403, R522, R542): GCM (NIST SP
800-38D), XTS-AES, AES-KW (NIST SP 800-38F) and CMAC (NIST SP 800-38B), over a block cipher that is given as a function of a
128-bit block, whose first byte is the most significant. The block cipher itself is the opaque `Config.aes` (assumption 5).
-/
namespace Sys2Proof.Machine

/-- The first n bytes of a number, lowest first. -/
def bytesOf (v n : Nat) : List (BitVec 8) := (List.range n).map (fun i => BitVec.ofNat 8 (v >>> (8 * i)))

/-- The number whose bytes are listed, lowest first. -/
def ofBytes (l : List (BitVec 8)) : Nat := l.foldr (fun b v => b.toNat + 256 * v) 0

/-- The number whose bytes are listed, highest first. -/
def beBytes (l : List (BitVec 8)) : Nat := l.foldl (fun v b => v * 256 + b.toNat) 0

/-- The n bytes of a number, highest first. -/
def toBe (v n : Nat) : List (BitVec 8) := (bytesOf v n).reverse

/-- A list in pieces of 16 bytes; the last may be shorter. -/
def blocks16 (l : List (BitVec 8)) : List (List (BitVec 8)) := (List.range ((l.length + 15) / 16)).map (fun i => (l.drop (16 * i)).take 16)

/-- Bytewise sum of two lists, as long as the first. -/
def xorBytes (a b : List (BitVec 8)) : List (BitVec 8) :=
  (List.range a.length).map (fun i => a.getD i 0 ^^^ b.getD i 0)

/-! ### GCM -/

/-- The product in GF(2^128) of SP 800-38D: bit 0 of a block is its most significant. -/
def ghashMul (x y : BitVec 128) : BitVec 128 :=
  ((List.range 128).foldl (fun (p : BitVec 128 × BitVec 128) i =>
    (if x.getLsbD (127 - i) then p.1 ^^^ p.2 else p.1,
      if p.2.getLsbD 0 then (p.2 >>> 1) ^^^ (0xE1#128 <<< 120) else p.2 >>> 1)) (0, y)).1

/-- GHASH under the subkey h. -/
def ghash (h : BitVec 128) (l : List (BitVec 8)) : BitVec 128 :=
  (blocks16 l).foldl (fun y b => ghashMul (y ^^^ BitVec.ofNat 128 (beBytes b * 256 ^ (16 - b.length))) h) 0

/-- Zero bytes up to a whole number of blocks. -/
def pad16 (l : List (BitVec 8)) : List (BitVec 8) := l ++ List.replicate ((16 - l.length % 16) % 16) 0

/-- GCM with a 96-bit IV whose bytes are listed: whether it encrypts, the additional data and the data; the transformed data and
the tag. -/
def gcm (e : BitVec 128 → BitVec 128) (enc : Bool) (iv aad data : List (BitVec 8)) : List (BitVec 8) × BitVec 128 :=
  let ctr (i : Nat) : BitVec 128 := e (BitVec.ofNat 128 (beBytes iv * 2 ^ 32 + i % 2 ^ 32))
  let bs := blocks16 data
  let out := ((List.range bs.length).map (fun i => xorBytes (bs.getD i []) (toBe (ctr (i + 2)).toNat 16))).flatten
  let c := if enc then out else data
  (out, ghash (e 0) (pad16 aad ++ pad16 c ++ toBe (8 * aad.length) 8 ++ toBe (8 * data.length) 8) ^^^ ctr 1)

/-! ### XTS -/

/-- XTS-AES over a data unit of whole blocks: the cipher of the data key (or its inverse), that of the tweak key, the tweak. -/
def xts (e1 e2 : BitVec 128 → BitVec 128) (tweak : BitVec 128) (data : List (BitVec 8)) : List (BitVec 8) :=
  let step (p : List (BitVec 8) × Nat) (b : List (BitVec 8)) : List (BitVec 8) × Nat :=
    let t := bytesOf p.2 16
    let y := toBe (e1 (BitVec.ofNat 128 (beBytes (xorBytes b t)))).toNat 16
    (p.1 ++ xorBytes y t, (2 * p.2 % 2 ^ 128) ^^^ (if p.2 / 2 ^ 127 % 2 = 1 then 0x87 else 0))
  ((blocks16 data).foldl step ([], ofBytes (toBe (e2 (BitVec.ofNat 128 (beBytes (bytesOf tweak.toNat 16)))).toNat 16))).1

/-! ### AES-KW -/

/-- The initial value of AES-KW. -/
def kwIv : Nat := 0xA6A6A6A6A6A6A6A6

/-- AES-KW wrap of whole semiblocks of 8 bytes. -/
def aesKw (e : BitVec 128 → BitVec 128) (key : List (BitVec 8)) : List (BitVec 8) :=
  let n := key.length / 8
  let r := (List.range n).map (fun i => beBytes ((key.drop (8 * i)).take 8))
  let p := (List.range (6 * n)).foldl (fun (p : Nat × List Nat) t =>
    let b := (e (BitVec.ofNat 128 (p.1 * 2 ^ 64 + p.2.getD (t % n) 0))).toNat
    ((b / 2 ^ 64) ^^^ (t + 1), p.2.set (t % n) (b % 2 ^ 64))) (kwIv, r)
  toBe p.1 8 ++ (p.2.map (fun v => toBe v 8)).flatten

/-- AES-KW unwrap under the inverse cipher; none where the integrity check fails. -/
def aesKwInv (d : BitVec 128 → BitVec 128) (blob : List (BitVec 8)) : Option (List (BitVec 8)) :=
  let n := blob.length / 8 - 1
  let r := (List.range n).map (fun i => beBytes ((blob.drop (8 * (i + 1))).take 8))
  let p := (List.range (6 * n)).foldl (fun (p : Nat × List Nat) k =>
    let t := 6 * n - 1 - k
    let b := (d (BitVec.ofNat 128 ((p.1 ^^^ (t + 1)) * 2 ^ 64 + p.2.getD (t % n) 0))).toNat
    (b / 2 ^ 64, p.2.set (t % n) (b % 2 ^ 64))) (beBytes (blob.take 8), r)
  if p.1 = kwIv then some (p.2.map (fun v => toBe v 8)).flatten else none

/-! ### CMAC -/

/-- Doubling in GF(2^128) as CMAC has it. -/
def cmacDbl (x : BitVec 128) : BitVec 128 := if x.getLsbD 127 then (x <<< 1) ^^^ 0x87#128 else x <<< 1

/-- CMAC of a message. -/
def cmac (e : BitVec 128 → BitVec 128) (l : List (BitVec 8)) : BitVec 128 :=
  let k1 := cmacDbl (e 0)
  let n := (l.length - 1) / 16
  let last := l.drop (16 * n)
  let y := (blocks16 (l.take (16 * n))).foldl (fun y b => e (y ^^^ BitVec.ofNat 128 (beBytes b))) 0
  let z : BitVec 128 :=
    if last.length = 16 then BitVec.ofNat 128 (beBytes last) ^^^ k1
    else BitVec.ofNat 128 (beBytes (pad16 (last ++ [0x80#8]))) ^^^ cmacDbl k1
  e (y ^^^ z)

end Sys2Proof.Machine
end

