-- ==== Sys2Proof/Machine/Tqe.lean ====
section
/-!
DEFINITION. What the commands of the TQE share: its functions and their interrupts (R345 to R347), the window unit
(R348 to R350), ring contexts (R366 to R369, R383), doorbells (R379 to R381), the accesses of a ring with their failures
(R356, R357, R377) and dirty marks (R427), and the command queues (R385, R389).
-/
namespace Sys2Proof.Machine

/-! ### Error records of the TQE -/

/-- A record of the TQE (R507). -/
def tqeRec (sev : Sev) (inst code sts : Nat) (detail : List Nat) : ErrRec :=
  { rec0 sev 0x0F (inst % 65536) code with sts := sts, detail := detail }

/-- The world and enclave of a ring's traffic (R310, R329). -/
def State.ringTag (s : State) (r fn : Nat) : Bool × Nat := if fn = 0 then s.assigned 2 r else s.assigned 1 fn

/-- The world and enclave of a function: of its BARs, its commands and its messages (R329). PF0 itself is not
assigned. -/
def State.fnTag (s : State) (f : Nat) : Bool × Nat := if f = 0 then (false, 0) else s.assigned 1 f

/-! ### Interrupts (R345 to R347) -/

/-- An MSI-X table entry; every vector is masked at reset. -/
def FnSt.entry (x : FnSt) (v : Nat) : MsixEnt := Tbl.getD x.table v ⟨0, 0, true⟩

/-- PF0's INTA follows EVENT and Interrupt Disable (R347); PIR source 16. -/
def State.intaSync (s : State) : State :=
  let v := s.on TQE_INTX.EVENT && !(s.fn 0).intxDis && !(s.fn 0).msixEn
  if s.on (PIR_SRC.LEVEL 16) = v then s else s.srcInput 16 v

/-- The address lies in the message window of the PIR (R433). -/
def inMsiWindow (a : Nat) : Bool := decide (0xFFE0000A80000 ≤ a) && decide (a < 0xFFE0000AC0000)

/-- Send a pending vector's message when nothing masks it (R345, R346): the requester ID replaces address bits 17 to
2 (R433). -/
def State.msixTry (s : State) (f v : Nat) : State :=
  let x := s.fn f
  if x.pend.contains v ∧ x.msixEn ∧ x.msixMask = false ∧ (x.entry v).mask = false ∧ s.fnBme f then
    if inMsiWindow (x.entry v).addr then
      let (w, e) := s.fnTag f
      let a : Attr := ⟨w, BitVec.ofNat 10 e, 0, 0, 0⟩
      let pa := 0xFFE0000A80000 + 4 * (0xF000 + f)
      let m : Msg := { mkMsg .wrPart tqeStop pirStop 0 (pa / 64) a with
        size := 2, low := BitVec.ofNat 6 pa, be := beOf (pa % 64) 4, data := setLineField 0 (pa % 64) 4 (x.entry v).data }
      (s.setFn f { x with pend := x.pend.filter (fun k => k != v) }).send m
    else (s.raise TQE_STS.fMSIADDR).report (tqeRec .info f 0 0 [v])
  else s

/-- An interrupt event of a function and vector (R345, R347). -/
def State.tqeEvent (s : State) (f v : Nat) : State :=
  let x := s.fn f
  if x.msixEn then
    (s.setFn f { x with pend := if x.pend.contains v then x.pend else x.pend ++ [v] }).msixTry f v
  else if f = 0 then (s.raise TQE_INTX.fEVENT).intaSync
  else s

/-! ### Windows (R348 to R350) -/

/-- The length of a window in bytes; 0 for one that never matches (R348). -/
def State.winLen (s : State) (n : Nat) : Nat :=
  let g := s.on (TQE_WIN.GRAN n)
  let l := s.rd (TQE_WIN.SIZE n) * (if g then 0x200000 else 0x1000)
  let i := s.rd (TQE_WIN.IBASE n)
  let o := s.rd (TQE_WIN.OBASE n)
  if s.on (TQE_WIN.EN n) = false then 0
  else if g = true ∧ (i % 512 ≠ 0 ∨ o % 512 ≠ 0) then 0
  else if 2 ^ 52 < i * 4096 + l ∨ 2 ^ 52 < o * 4096 + l then 0
  else l

/-- The window holds an input address. -/
def State.winHit (s : State) (n a : Nat) : Bool :=
  let b := s.rd (TQE_WIN.IBASE n) * 4096
  decide (b ≤ a) && decide (a < b + s.winLen n)

/-- Record a case of R349 or R350 in TQE_WIN_LOG. -/
def State.winLog (s : State) (id : Nat) (peer wr : Bool) (reason a : Nat) : State :=
  ((((s.wr TQE_WIN_LOG.ID id).wr TQE_WIN_LOG.PEER peer.toNat).wr TQE_WIN_LOG.WR wr.toNat).wr TQE_WIN_LOG.REASON
    reason).wr TQE_WIN_LOG.ADDR (a / 256)

/-- Translate a data access of a function (R349): `dev` says that the operation takes a device-type output here. -/
def State.winData (s : State) (f a : Nat) (wr dev : Bool) : Sum Nat Nat :=
  let first := s.rd (TQE_FNWIN.FIRST f)
  let cand := (List.range (s.rd (TQE_FNWIN.COUNT f))).map (fun i => first + i)
  let ok (n : Nat) : Bool :=
    s.rd (TQE_WIN.ID n) == f && s.winHit n a &&
    (let o := s.rd (TQE_WIN.OBASE n) * 4096 + (a - s.rd (TQE_WIN.IBASE n) * 4096)
     if s.on (TQE_WIN.MT n) then (regionOf o == .mmio32 || regionOf o == .mmio64) else (regionOf o).isMem)
  match cand.find? ok with
  | none => .inr (if cand.any (fun n => s.rd (TQE_WIN.ID n) == f && s.winHit n a) then 2 else 0)
  | some n =>
    if s.on (if wr then TQE_WIN.PW n else TQE_WIN.PR n) = false then .inr 1
    else if s.on (TQE_WIN.MT n) ≠ dev then .inr 2
    else .inl (s.rd (TQE_WIN.OBASE n) * 4096 + (a - s.rd (TQE_WIN.IBASE n) * 4096))

/-- A data access finds no usable window (R349). -/
def State.winMiss (s : State) (f a : Nat) (wr : Bool) (reason : Nat) : State :=
  (s.raise TQE_STS.fWINMISS).winLog f false wr reason a

/-! ### Ring contexts (R364 to R369) -/

def RingCtx.init : RingCtx := ⟨0, 0, 0, 0, 0, 0, 0, 0, 0, 0, 0, 0, 0, 0, 0, 0, 0, false, false, 0, 0⟩

def State.ring (s : State) (r : Nat) : RingCtx := Tbl.getD s.rings r RingCtx.init

def State.setRing (s : State) (r : Nat) (x : RingCtx) : State := { s with rings := Tbl.put s.rings r RingCtx.init x }

def State.runsOf (s : State) (r : Nat) : List Run := Tbl.getD s.runs r []

def State.setRuns (s : State) (r : Nat) (l : List Run) : State := { s with runs := Tbl.put s.runs r [] l }

/-- The attributes of a ring's traffic (R310, R366, R376). -/
def State.ringAttr (s : State) (r : Nat) : Attr :=
  let x := s.ring r
  let (w, e) := s.ringTag r x.fn
  ⟨w, BitVec.ofNat 10 e, BitVec.ofNat 16 x.mtag, BitVec.ofNat 4 x.pcls, BitVec.ofNat 2 x.qos⟩

/-- A context is pinned in the cache (R367). -/
def State.pinned (s : State) (r : Nat) : Bool :=
  (s.ring r).st == 3 || ((s.ring r).st == 2 && !(s.runsOf r).isEmpty)

/-- Words 0 to 6 of a context as the store holds it (R368); the check bytes of word 7 are the code's own. -/
def RingCtx.image (x : RingCtx) (check : Nat) : Nat :=
  let w0 := x.st + x.lg * 2 ^ 4 + x.fn * 2 ^ 12 + x.pcls * 2 ^ 24 + x.qos * 2 ^ 28 + x.mtag * 2 ^ 32 + x.vec * 2 ^ 48
  let w4 := x.fetch + x.piSeen * 2 ^ 32
  let w5 := x.done + x.doneDup * 2 ^ 32
  let w6 := x.lap + x.lapSat.toNat * 2 ^ 16 + x.bell.toNat * 2 ^ 17 + x.err * 2 ^ 24 + x.fetchDup * 2 ^ 32
  [w0, x.sq, x.cq, x.db, w4, w5, w6, check % 2 ^ 56].foldr (fun w v => w % 2 ^ 64 + 2 ^ 64 * v) 0

/-- The attributes of the context store's traffic (R366). -/
def ctxAttr : Attr := ⟨true, 0, 0, 0, 0⟩

/-- The line of a context (R366). -/
def State.ctxLine (s : State) (r : Nat) : Nat := s.rd TQE_CTX_BASE.BASE * 0x8000 + r

/-- Release the octet's doorbell line with EvClean once no ring of the octet is ACTIVE or STOPPING (R379). -/
def State.bellRelease (s : State) (octet : Nat) : State :=
  if (List.range 8).any (fun i => let t := (s.ring (8 * octet + i)).st; t == 2 || t == 3) then s
  else
    match s.watch.find? (fun p => p.2.octet == octet) with
    | none => s
    | some (line, w) =>
      let s := { s with
        watch := Tbl.erase s.watch line
        strays := if w.reading && w.got.isNone then s.strays ++ [⟨line, w.fn, (s.fn w.fn).fgen, w.discard⟩] else s.strays }
      if w.armed then s.tqeEvict line w.attr else s

/-! ### Command queues (R385, R389) -/

def AdmQ.init : AdmQ := ⟨[], false, false, [], [], 0, none⟩

def State.q (s : State) (f : Nat) : AdmQ := Tbl.getD s.admq f AdmQ.init

/-- The entries of a queue's input FIFO in use. -/
def AdmQ.fill (x : AdmQ) : Nat := (x.part.length + 3) / 4 + (x.cmds.map (fun c => (c.bytes + 15) / 16)).sum

/-- A queue changes; its status fields follow (R390). -/
def State.setQ (s : State) (f : Nat) (x : AdmQ) : State :=
  let s := { s with admq := Tbl.put s.admq f AdmQ.init x }
  if f = 0 then (s.wr TQE_ADM_STS.OUT_COUNT x.out.length).wr TQE_ADM_STS.IN_FILL x.fill
  else (s.wr (VF_ADM_STS.OUT_COUNT f) x.out.length).wr (VF_ADM_STS.IN_FILL f) x.fill

/-- The flags of a queue. -/
def admOVF (f : Nat) : Flag := if f = 0 then TQE_ADM_STS.fOVF else VF_ADM_STS.fOVF f
def admUNDERRUN (f : Nat) : Flag := if f = 0 then TQE_ADM_STS.fUNDERRUN else VF_ADM_STS.fUNDERRUN f
def admQRESET (f : Nat) : Flag := if f = 0 then TQE_ADM_STS.fQRESET else VF_ADM_STS.fQRESET f

/-- The opcodes that name a command (R386, R399, R420). -/
def admKnown (opc : Nat) : Bool :=
  (decide (1 ≤ opc) && decide (opc ≤ 7)) || (decide (0x20 ≤ opc) && decide (opc ≤ 0x26)) ||
    (decide (0x30 ≤ opc) && decide (opc ≤ 0x37))

/-- The most answers a command can send (R389). -/
def admRoom (opc : Nat) : Nat := if opc = 7 then 2 else if opc = 0x24 then 10 else 1

def AdmCmd.opc (c : AdmCmd) : Nat := c.words.headD 0 % 256
def AdmCmd.tag (c : AdmCmd) : Nat := if c.noTag then 0 else c.words.headD 0 / 65536 % 65536
def AdmCmd.w (c : AdmCmd) (i : Nat) : Nat := c.words.getD i 0

/-- One answer: status, tag, R0 and R1 (R386). -/
def admAnswer (sts tag r0 r1 : Nat) : Nat :=
  sts % 256 + tag % 65536 * 2 ^ 16 + r0 % 2 ^ 64 * 2 ^ 32 + r1 % 2 ^ 32 * 2 ^ 96

/-- A queue answers. -/
def State.admOut (s : State) (f : Nat) (a : Nat) : State := let x := s.q f; s.setQ f { x with out := x.out ++ [a] }

/-- A queue answers a command's status; ESTATE is logged (R18). -/
def State.admSay (s : State) (f sts tag r0 r1 : Nat) : State :=
  (if sts = ESTATE then s.logCmd 0x0F f sts else s).admOut f (admAnswer sts tag r0 r1)

/-- The command that a queue may execute now (R385, R389). -/
def AdmQ.ready (x : AdmQ) : Option AdmCmd :=
  match x.busy, x.cmds with
  | none, c :: _ => if x.out.length + admRoom c.opc ≤ 16 then some c else none
  | _, _ => none

/-- The head command leaves the queue. -/
def State.admPop (s : State) (f : Nat) : State := let x := s.q f; s.setQ f { x with cmds := x.cmds.tail }

/-- Commands at the head that name no operation are answered EINVAL (R386, R399, R420), those with dropped words ENORES
(R389). -/
def State.admSkip (f : Nat) : Nat → State → State
  | 0, s => s
  | n + 1, s =>
    match (s.q f).ready with
    | some c =>
      if c.drop then State.admSkip f n ((s.admPop f).admSay f ENORES c.tag 0 0)
      else if admKnown c.opc then s
      else State.admSkip f n ((s.admPop f).admSay f EINVAL c.tag 0 0)
    | none => s

/-- Something has changed for a queue. -/
def State.admGo (s : State) (f : Nat) : State := State.admSkip f (s.q f).cmds.length s

/-- The first check that fails, in the order of R19. -/
def firstBad : List (Bool × Nat) → Nat
  | [] => OK
  | (b, c) :: l => if b then c else firstBad l

/-- A VF's queue answers ESTATE while its function is FREEZING or FROZEN, but for queries (R418), and but for a command that
fails an earlier check of R19 with this status, which has no effect. -/
def State.admFrozen (s : State) (f opc sts : Nat) : Bool :=
  f != 0 && Tbl.getD s.inst f 0 != 0 && opc != 7 && opc != 0x26 && sts != EPERM && sts != EINVAL && sts != ENODEV

/-- The queue executes its head command, if that has the opcode: `k` gives the status and values of its answer. -/
def State.admRun (s : State) (f opc : Nat) (k : State → AdmCmd → State × Nat × Nat × Nat) : State :=
  match (s.q f).ready with
  | some c =>
    if c.opc ≠ opc ∨ c.drop then s
    else
      let s := s.admPop f
      let r := k s c
      if s.admFrozen f opc r.2.1 then (s.admSay f ESTATE c.tag 0 0).admGo f
      else (r.1.admSay f r.2.1 c.tag r.2.2.1 r.2.2.2).admGo f
  | none => s

/-- The queue's executing command must wait before it is answered. -/
def State.admHold (s : State) (f tag : Nat) (w : AdmWait) : State := let x := s.q f; s.setQ f { x with busy := some (tag, w) }

/-- The queue's waiting command is answered. -/
def State.admEnd (s : State) (f sts r0 r1 : Nat) : State :=
  let x := s.q f
  match x.busy with
  | some (tag, _) => ((s.setQ f { x with busy := none }).admSay f sts tag r0 r1).admGo f
  | none => s

/-- As `admRun`, for a command that may have to wait: `k` answers none where it holds the queue itself or leaves it. -/
def State.admRunW (s : State) (f opc : Nat) (k : State → AdmCmd → State × Option (Nat × Nat × Nat)) : State :=
  match (s.q f).ready with
  | some c =>
    if c.opc ≠ opc ∨ c.drop then s
    else
      let s := s.admPop f
      let r := k s c
      match r.2 with
      | some (sts, r0, r1) =>
        if s.admFrozen f opc sts then (s.admSay f ESTATE c.tag 0 0).admGo f
        else (r.1.admSay f sts c.tag r0 r1).admGo f
      | none => if s.admFrozen f opc OK then (s.admSay f ESTATE c.tag 0 0).admGo f else r.1
  | none => s

/-- Word 0 has a non-zero bit outside the opcode and tag, or the length differs (R385, R386). -/
def AdmCmd.badHead (c : AdmCmd) (bytes : Nat) : Bool :=
  c.bytes != bytes || c.w 0 / 256 % 256 != 0 || c.w 0 / 2 ^ 32 != 0

/-! ### Commands that end later (R386, R418) -/

/-- A function that is FREEZING and has no descriptor left to commit becomes FROZEN (R418): each of its rings that is not
CLEARED saves its state, doorbell lines are released, and the command is answered. -/
def State.freezeCheck (s : State) (f : Nat) : State :=
  let mine := s.rings.filter (fun p => p.2.fn == f && p.2.st != 0)
  if Tbl.getD s.inst f 0 ≠ 1 ∨ mine.any (fun p => !(s.runsOf p.1).isEmpty) then s
  else
    let s := mine.foldl (fun s p =>
      (s.setRing p.1 { p.2 with st := 5, saved := if p.2.st = 3 then 1 else p.2.st }).bellRelease (p.1 / 8)) s
    let s := { s with inst := Tbl.put s.inst f 0 2 }
    if (s.q 0).busy.any (fun b => b.2 == .freeze f) then s.admEnd 0 OK 0 0 else s

/-- A freeze that waited for the function's own queue begins (R418). -/
def State.freezeBegin (s : State) (f : Nat) : State :=
  if (s.q f).busy.isNone ∧ Tbl.getD s.inst f 0 = 0 ∧ (s.q 0).busy.any (fun b => b.2 == .freeze f) = true then
    { s with inst := Tbl.put s.inst f 0 1 }.freezeCheck f
  else s

/-- The waiting command of a queue is answered, and a freeze of its function may begin. -/
def State.admDone (s : State) (f sts r0 r1 : Nat) : State := (s.admEnd f sts r0 r1).freezeBegin f

/-- The queues whose RING_DISABLE of a ring waits. -/
def State.disablers (s : State) (r : Nat) : List Nat :=
  (s.admq.filter (fun p => p.2.busy.any (fun b => b.2 == .disable r))).map (fun p => p.1)

/-- A ring's last fetched descriptor is gone: a STOPPING ring becomes DISABLED, and its RING_DISABLE is answered (R365,
R386). -/
def State.stopDone (s : State) (r : Nat) : State :=
  let x := s.ring r
  if x.st ≠ 3 ∨ !(s.runsOf r).isEmpty then s
  else
    let s := (s.setRing r { x with st := 1 }).bellRelease (r / 8)
    (s.disablers r).foldl (fun s f => s.admDone f OK x.done 0) s

/-- A ring enters ERROR (R378, R383): it finishes no descriptor, its doorbell share goes, and an event is raised on its
vector. -/
def State.ringError (s : State) (r err : Nat) : State :=
  let x := s.ring r
  let s := (s.setRing r { x with st := 4, err := err }).setRuns r []
  let s := (s.bellRelease (r / 8)).raise TQE_RSTS.fRINGERR
  let s := (s.wr TQE_RING_ERRLOG.ERR err).wr TQE_RING_ERRLOG.RING r
  let s := s.report (tqeRec .error r 0x40 err [s.regWord TQE_RING_ERRLOG.ERR.addr])
  let s := s.tqeEvent x.fn x.vec
  -- a RING_DISABLE that waits finds ERROR, and the ring is DISABLED with ERR kept (R388)
  let s := (s.disablers r).foldl (fun s f => (s.setRing r { s.ring r with st := 1 }).admDone f OK x.done 0) s
  s.freezeCheck x.fn

/-- A ring's context is used: it is loaded into the cache, for which the least recently used context that is not pinned
is written back (R367). False where all are pinned; none where an access must wait. -/
def State.ctxUse (s : State) (r : Nat) : Option (State × Bool) :=
  if s.ctxCache.contains r then some ({ s with ctxCache := s.ctxCache.erase r ++ [r] }, true)
  else
    let load (s : State) : Option (State × Bool) :=
      (s.dmaRead tqeStop (s.ctxLine r) ctxAttr false).map (fun p =>
        let s : State := { p.1 with ctxCache := p.1.ctxCache ++ [r], ctxWait := p.1.ctxWait.erase r, ctxLast := r }
        if p.2.psn ∨ p.2.sts ≠ 0 then (s.ringError r 0x48, false) else (s, true))
    if s.ctxCache.length < 16384 then load s
    else
      match s.ctxCache.find? (fun q => !s.pinned q) with
      | none => some (s, false)
      | some q =>
        let f := s.free
        match (f.2).dmaWrite tqeStop (s.ctxLine q) ctxAttr (BitVec.allOnes 64)
            (BitVec.ofNat 512 ((s.ring q).image f.1.toNat)) false false with
        | none => none
        | some (s, _) => load { s with ctxCache := s.ctxCache.erase q }

/-! ### Accesses of a ring (R356, R357, R377, R427) -/

/-- A sequence of accesses: the state, the first failure (status and input address), the input address of the first line
that was read with poison, and whether an access must wait, so that nothing happens yet. -/
structure Job where
  s : State
  err : Option (Nat × Nat)
  psn : Option Nat
  wait : Bool

def WINFAULT : Nat := 0x40
def KEYSLOT : Nat := 0x42
def QRESET : Nat := 0x43

/-- The status that an access answered with a mesh status gives (R377). -/
def meshFail (sts : Nat) : Nat := match sts with | 2 => DEAD | 3 => DOMAIN_OFF | _ => TIMEOUT

/-- The job goes on. -/
def Job.live (j : Job) : Bool := j.err.isNone && !j.wait

/-- The attributes of a dirty mark (R427). -/
def State.markAttr (s : State) : Attr :=
  let (w, e) := s.fnTag 0
  ⟨w, BitVec.ofNat 10 e, 0, 0, 0⟩

/-- Mark the page of a write by a function in its dirty log (R427). None where the mark must wait. -/
def State.dirtyMark (s : State) (f a : Nat) : Option State :=
  match Tbl.get? s.dirty f with
  | none => some s
  | some d =>
    if d.on = false then some s else
    let p := a / 4096
    let ovf (s : State) : State := { s with dirty := Tbl.set s.dirty f { d with ovf := true } }
    if a < d.ibase ∨ d.pages ≤ (a - d.ibase) / 4096 then some (ovf s)
    else if d.filter.contains p then some s
    else
      let slot := d.buf + (a - d.ibase) / 4096
      match s.winData 0 slot true false with
      | .inr reason => some (ovf (s.winMiss 0 slot true reason))
      | .inl pa =>
        (s.dmaPut tqeStop s.markAttr pa 1 1 false).map (fun q =>
          if q.2 ≠ 0 then ovf q.1
          else
            let keep := if d.filter.length < 64 then d.filter else d.filter.tail
            { q.1 with dirty := Tbl.set q.1.dirty f { d with filter := keep ++ [p] } })

/-- Read n bytes within one line at an input address of a function: the bytes, and whether they are poisoned. -/
def Job.readLine (j : Job) (f : Nat) (at_ : Attr) (a n : Nat) : Job × Nat × Bool :=
  if j.live = false then (j, 0, false)
  else
    match j.s.winData f a false false with
    | .inr reason => ({ j with s := j.s.winMiss f a false reason, err := some (WINFAULT, a / 64 * 64) }, 0, false)
    | .inl pa =>
      match j.s.dmaBytes tqeStop at_ pa n with
      | none => ({ j with wait := true }, 0, false)
      | some (s, v, r) =>
        if r.sts = 4 then ({ j with s := s, err := some (TIMEOUT, a / 64 * 64) }, 0, true)
        else if r.psn || r.sts != 0 then ({ j with s := s, psn := j.psn.orElse (fun _ => some (a / 64 * 64)) }, v, true)
        else ({ j with s := s }, v, false)

/-- The pieces of [a, a + n) that lie within one line each: offset and length. -/
def linePieces (a n : Nat) : List (Nat × Nat) :=
  (List.range ((a % 64 + n + 63) / 64)).map (fun i =>
    let lo := if i = 0 then 0 else 64 * i - a % 64
    let hi := min n (64 * (i + 1) - a % 64)
    (lo, hi - lo))

/-- Read n bytes at an input address, line by line in ascending order, little-endian; whether any is poisoned. -/
def Job.readP (j : Job) (f : Nat) (at_ : Attr) (a n : Nat) : Job × Nat × Bool :=
  (linePieces a n).foldl (fun x p =>
    let r := x.1.readLine f at_ (a + p.1) p.2
    (r.1, x.2.1 + r.2.1 * 2 ^ (8 * p.1), x.2.2 || r.2.2)) (j, 0, false)

/-- Read n bytes at an input address, little-endian. -/
def Job.read (j : Job) (f : Nat) (at_ : Attr) (a n : Nat) : Job × Nat :=
  let r := j.readP f at_ a n
  (r.1, r.2.1)

/-- Write n bytes within one line at an input address of a function; the mark goes first (R427). -/
def Job.writeLine (j : Job) (f : Nat) (at_ : Attr) (a n v : Nat) (psn : Bool) : Job :=
  if j.live = false then j
  else
    match j.s.winData f a true false with
    | .inr reason => { j with s := j.s.winMiss f a true reason, err := some (WINFAULT, a / 64 * 64) }
    | .inl pa =>
      match j.s.dirtyMark f a with
      | none => { j with wait := true }
      | some s =>
        match s.dmaPut tqeStop at_ pa n v psn with
        | none => { j with wait := true }
        | some (s, sts) =>
          if sts = 2 ∨ sts = 3 ∨ sts = 4 then { j with s := s, err := some (meshFail sts, a / 64 * 64) }
          else { j with s := s }

/-- Write n bytes at an input address, line by line in ascending order. -/
def Job.write (j : Job) (f : Nat) (at_ : Attr) (a n v : Nat) (psn : Bool) : Job :=
  (linePieces a n).foldl (fun j p => j.writeLine f at_ (a + p.1) p.2 (v / 2 ^ (8 * p.1) % 2 ^ (8 * p.2)) psn) j

/-! ### Doorbells (R379 to R381) -/

/-- Each ACTIVE ring of an octet evaluates its slot (R380). -/
def State.bellEval (s : State) (octet : Nat) (d : LineData) : State :=
  let acc := (List.range 8).foldl (fun (p : State × Bool) i =>
    let (s, any) := p
    let r := 8 * octet + i
    let x := s.ring r
    if x.st ≠ 2 then (s, any)
    else
      let pi := lineField d (8 * i) 4
      if pi = x.piSeen then (s, any)
      else if serialNewer 32 pi x.piSeen then
        if (pi + 2 ^ 32 - x.done) % 2 ^ 32 ≤ 2 ^ x.lg then (s.setRing r { x with piSeen := pi }, true)
        else (s.ringError r 0x44, true)
      else ((s.raise TQE_RSTS.fPIBACK).logHalf 0x0F (r % 65536) 32 pi x.piSeen, true)) (s, false)
  if acc.2 then acc.1 else acc.1.raise TQE_RSTS.fDBNOP

/-- A doorbell read of an octet has returned (R379, R380). -/
def State.bellTake (s : State) (octet : Nat) : State :=
  match s.watch.find? (fun p => p.2.octet == octet && p.2.got.isSome) with
  | none => s
  | some (line, w) =>
    let (d, psn, sts) := w.got.getD (0, false, 0)
    let w' := { w with got := none, reading := false }
    if psn ∨ sts ≠ 0 then
      if w.tried = false then s.setWatch line { w' with tried := true, retryAt := some (s.now.toNat + 1000) }
      else
        let s := s.setWatch line { w' with tried := false }
        (List.range 8).foldl (fun s i => if (s.ring (8 * octet + i)).st = 2 then s.ringError (8 * octet + i) 0x47 else s) s
    else
      let s := (s.setWatch line { w' with tried := false, retryAt := none }).bellEval octet d
      match Tbl.get? s.watch line with
      | some w => if w.rung then s.bellRead line else s
      | none => s

/-- A failed doorbell read is made again, 1 µs after it (R379). -/
def State.bellRetry (s : State) (octet : Nat) : State :=
  match s.watch.find? (fun p => p.2.octet == octet && p.2.retryAt.any (fun t => decide (t ≤ s.now.toNat))) with
  | none => s
  | some (line, w) => (s.setWatch line { w with retryAt := none }).bellRead line

/-- A ring becomes ACTIVE: its octet's line is watched and read (R379, R381). -/
def State.bellArm (s : State) (r line : Nat) : State :=
  match Tbl.get? s.watch line with
  | some _ => s.bellRead line
  | none =>
    let w : Watch := ⟨r / 8, (s.ring r).fn, s.ringAttr r, false, false, false, false, false, none, none⟩
    (s.setWatch line w).bellRead line

end Sys2Proof.Machine
end

