-- ==== Sys2Proof/Machine/TqeRings.lean ====
section
/-!
DEFINITION. The commands of the command queues and of the rings (R364 to R390): queue registers, ring set-up, doorbells,
descriptor fetch, movers, and commit.
-/
namespace Sys2Proof.Machine

/-! ### Queue registers (R385, R389, R390) -/

/-- A BAR access passes the check of R322. -/
def State.barPass (s : State) (f : Nat) (d : Dev) : Bool :=
  let (w, e) := s.fnTag f
  if w = false ∧ e = 0 then d.attr.enc == 0 else d.attr.world == w && d.attr.enc.toNat == e

/-- The system address of a queue register of a function. -/
def State.admAddr (s : State) (f off : Nat) : Nat :=
  if f = 0 then s.ep.bar0 + 0x10000 + off else s.ep.vfBar0 + (f - 1) * 0x10000 + off

/-- An access of n bytes to a BAR of a function: refused (R322), of a function with Memory Space Enable 0 (R344), or
made. -/
def State.barAccess (s : State) (f addr n : Nat) (wr : Bool) (d : Dev) (k : State → State) : State :=
  if s.fnEnabled f = false ∨ s.fnMse f = false ∨ (s.fn f).flr.isSome = true then
    (s.logRegBy (0x0F, f) addr).reply 0 (if wr then 0 else 2 ^ (8 * n) - 1)
  else if s.barPass f d = false then s.devRefused d addr n wr
  else k s

/-- One word into a command queue (R385, R389). -/
def State.admWord (s : State) (f v : Nat) : State :=
  let x := s.q f
  if x.part.length % 4 = 0 ∧ 64 ≤ x.fill then
    (s.setQ f { x with partDrop := true, partNoTag := x.partNoTag || x.part.isEmpty }).raise (admOVF f)
  else s.setQ f { x with part := x.part ++ [v] }

def execTqeAdmInWrite (f : Fn) (v : BitVec 32) (d : Dev) (s : State) : Host.Outcome State Fault Refusal :=
  s.ifRuns fun s => (s.barAccess f.val (s.admAddr f.val 0) 4 true d (fun s => (s.admWord f.val v.toNat).reply 0 0))

/-- Pair the 32-bit words of a command into command words of 8 bytes. -/
def pairWords : List Nat → List Nat
  | a :: b :: l => (a + 2 ^ 32 * b) :: pairWords l
  | [a] => [a]
  | [] => []

/-- The END write of a command: it is complete, with the WORLD and ENC of the write (R385). -/
def State.admSubmit (s : State) (f v : Nat) (d : Dev) : State :=
  let s := s.admWord f v
  let x := s.q f
  let c : AdmCmd := ⟨pairWords x.part, 4 * x.part.length, d.attr.world, d.attr.enc.toNat, x.partDrop, x.partNoTag⟩
  (s.setQ f { x with part := [], partDrop := false, partNoTag := false, cmds := x.cmds ++ [c] }).admGo f

def execTqeAdmEndWrite (f : Fn) (v : BitVec 32) (d : Dev) (s : State) : Host.Outcome State Fault Refusal :=
  s.ifRuns fun s => (s.barAccess f.val (s.admAddr f.val 8) 4 true d (fun s => (s.admSubmit f.val v.toNat d).reply 0 0))

/-- A read of TQE_ADM_OUT_LO or TQE_ADM_OUT_HI (R389): `lg` is the access's size, log2 of bytes, `half` its 4-byte
half. -/
def State.admRead (s : State) (f : Nat) (hi : Bool) (lg half : Nat) : State :=
  let x := s.q f
  let word := (x.out.headD x.last) / 2 ^ (if hi then 64 else 0) % 2 ^ 64
  let v := if lg = 3 then word else word / 2 ^ (32 * half) % 2 ^ 32
  let s := s.reply 0 v
  match x.out with
  | [] => s.raise (admUNDERRUN f)
  | a :: l =>
    if hi = true ∧ (lg = 3 ∨ half = 1) then (s.setQ f { x with out := l, last := a }).admGo f else s

def execAdmAnswerPop (f : Fn) (hi : Bool) (lg half : BitVec 2) (d : Dev) (s : State) :
    Host.Outcome State Fault Refusal :=
  let addr := s.admAddr f.val (if hi then 0x18 else 0x10) + 4 * half.toNat
  s.ifRuns fun s => (s.barAccess f.val addr (2 ^ lg.toNat) false d (fun s =>
    if lg.toNat < 2 ∨ (lg.toNat = 3 ∧ half.toNat ≠ 0) ∨ 2 ≤ half.toNat then (s.logRegBy (0x0F, f.val) addr).reply 0 0
    else s.admRead f.val hi lg.toNat half.toNat))

/-- The pointer copies of a queue's FIFO differ: both FIFOs are forced empty (R389). A command that executes keeps its
answer. -/
def execAdmQueueReset (f : Fn) (s : State) : Host.Outcome State Fault Refusal :=
  let x := s.q f.val
  s.ifRuns fun s => ((s.setQ f.val { x with part := [], partDrop := false, partNoTag := false, cmds := [], out := [] }).raise
    (admQRESET f.val))

/-! ### Ring commands (R386 to R388) -/

/-- The checks of authority for a command that names a ring (R387). -/
def State.ringAuth (s : State) (f r : Nat) (c : AdmCmd) (setup query : Bool) : Bool :=
  let x := s.ring r
  let (w, e) := s.ringTag r x.fn
  (f != 0 && x.fn != f) || (f == 0 && setup && x.fn != 0) || (!query && (c.world != w || c.enc != e))

/-- Every ring of a range meets a condition. -/
def State.ringsAll (s : State) (first n : Nat) (p : Nat → RingCtx → Bool) : Bool :=
  (List.range n).all (fun i => p (first + i) (s.ring (first + i)))

/-- RING_GRANT (R364, R386). -/
def State.ringGrant (s : State) (f : Nat) (c : AdmCmd) : State × Nat × Nat × Nat :=
  let first := c.w 1 % 2 ^ 20
  let n := c.w 2 % 2 ^ 20
  let fn := c.w 3 % 4096
  let fits := decide (first + n ≤ 1048576)
  let sts := firstBad [
    (f != 0, EPERM),
    (fits && !s.ringsAll first n (fun r x => let (w, e) := s.ringTag r x.fn; c.world == w && c.enc == e), EPERM),
    (c.badHead 32 || c.w 1 / 2 ^ 20 != 0 || c.w 2 / 2 ^ 20 != 0 || c.w 3 / 4096 != 0 || first % 8 != 0 || n % 8 != 0 ||
      !fits, EINVAL),
    (!s.fnEnabled fn, ENODEV),
    (!s.ringsAll first n (fun _ x => decide (x.st < 2)), ESTATE)]
  if sts ≠ OK then (s, sts, 0, 0)
  else
    ((List.range n).foldl (fun s i => s.setRing (first + i) { s.ring (first + i) with fn := fn }) s, OK, 0, 0)

def execRingGrant (f : Fn) (s : State) : Host.Outcome State Fault Refusal :=
  s.ifRuns fun s => (s.admRun f.val 1 (fun s c => s.ringGrant f.val c))

/-- RING_SETUP (R386). -/
def State.ringSetup (s : State) (f : Nat) (c : AdmCmd) : State × Nat × Nat × Nat :=
  let r := c.w 1 % 2 ^ 20
  let lg := c.w 1 / 2 ^ 24 % 32
  let vec := c.w 1 / 2 ^ 32 % 2048
  let start := c.w 5
  let x := s.ring r
  let sts := firstBad [
    (s.ringAuth f r c true false, EPERM),
    (c.badHead 64 || c.w 1 / 2 ^ 20 % 16 != 0 || c.w 1 / 2 ^ 29 % 8 != 0 || c.w 1 / 2 ^ 43 != 0 ||
      c.w 2 % 4096 != 0 || c.w 3 % 4096 != 0 || c.w 4 % 64 != 0 || c.w 2 / 2 ^ 52 != 0 || c.w 3 / 2 ^ 52 != 0 ||
      c.w 4 / 2 ^ 52 != 0 || start / 2 ^ 32 != 0 || c.w 6 != 0 || c.w 7 != 0 || decide (lg < 4) || decide (16 < lg) ||
      decide ((if x.fn = 0 then 2048 else 32) ≤ vec), EINVAL),
    (decide (2 ≤ x.st), ESTATE)]
  if sts ≠ OK then (s, sts, 0, 0)
  else
    let k := Tbl.getD s.classes x.fn (0, 0, 0)
    (s.setRing r { RingCtx.init with
      st := 1, lg := lg, fn := x.fn, pcls := k.1, qos := k.2.1, mtag := k.2.2, vec := vec, sq := c.w 2, cq := c.w 3,
      db := c.w 4, fetch := start, fetchDup := start, piSeen := start, done := start, doneDup := start }, OK, 0, 0)

def execRingSetup (f : Fn) (s : State) : Host.Outcome State Fault Refusal :=
  s.ifRuns fun s => (s.admRun f.val 2 (fun s c => s.ringSetup f.val c))

/-- The format of a command that names a ring alone. -/
def AdmCmd.badRing (c : AdmCmd) : Bool := c.badHead 16 || c.w 1 / 2 ^ 20 != 0

/-- RING_ENABLE (R379, R381, R386, R388). -/
def State.ringEnable (s : State) (f : Nat) (c : AdmCmd) : State × Nat × Nat × Nat :=
  let r := c.w 1 % 2 ^ 20
  let x := s.ring r
  let line := s.winData x.fn x.db false false
  let peers := (List.range 8).map (fun i => s.ring (8 * (r / 8) + i))
  let sts := firstBad [
    (s.ringAuth f r c true false, EPERM),
    (c.badRing, EINVAL),
    (x.st != 1 || peers.any (fun y => (y.st == 2 || y.st == 3) && y.db != x.db) ||
      (match line with
      | .inl pa => (match Tbl.get? s.watch (pa / 64) with
        | some w => w.octet != r / 8
        | none => false)
      | .inr _ => true), ESTATE)]
  if sts ≠ OK then (s, sts, 0, 0)
  else
    let phys := match line with
      | .inl pa => pa / 64
      | .inr _ => 0
    ((s.setRing r { x with st := 2, phys := phys }).bellArm r phys, OK, x.piSeen, 0)

def execRingEnable (f : Fn) (s : State) : Host.Outcome State Fault Refusal :=
  s.ifRuns fun s => (s.admRun f.val 3 (fun s c => s.ringEnable f.val c))

/-- RING_DISABLE (R365, R386, R388). -/
def State.ringDisable (s : State) (f : Nat) (c : AdmCmd) : State × Option (Nat × Nat × Nat) :=
  let r := c.w 1 % 2 ^ 20
  let x := s.ring r
  let sts := firstBad [
    (s.ringAuth f r c false false, EPERM), (c.badRing, EINVAL), (x.st != 2 && x.st != 4, ESTATE)]
  if sts ≠ OK then (s, some (sts, 0, 0))
  else if x.st = 4 then (s.setRing r { x with st := 1 }, some (OK, x.done, 0))
  else (((s.setRing r { x with st := 3 }).admHold f c.tag (.disable r)).stopDone r, none)

def execRingDisable (f : Fn) (s : State) : Host.Outcome State Fault Refusal :=
  s.ifRuns fun s => (s.admRunW f.val 4 (fun s c => s.ringDisable f.val c))

/-- RING_RESET (R386, R388): the context is cleared; the ring stays with its function. -/
def State.ringReset (s : State) (f : Nat) (c : AdmCmd) : State × Nat × Nat × Nat :=
  let r := c.w 1 % 2 ^ 20
  let x := s.ring r
  let sts := firstBad [
    (s.ringAuth f r c false false, EPERM), (c.badRing, EINVAL), (x.st == 2 || x.st == 3 || x.st == 5, ESTATE)]
  if sts ≠ OK then (s, sts, 0, 0) else (s.setRing r { RingCtx.init with fn := x.fn }, OK, 0, 0)

def execRingReset (f : Fn) (s : State) : Host.Outcome State Fault Refusal :=
  s.ifRuns fun s => (s.admRun f.val 5 (fun s c => s.ringReset f.val c))

/-- FN_CLASS (R386). PF0's commands are checked against PF0's assignment. -/
def State.fnClass (s : State) (f : Nat) (c : AdmCmd) : State × Nat × Nat × Nat :=
  let fn := c.w 1 % 4096
  let sts := firstBad [
    (f != 0, EPERM),
    (c.badHead 32 || c.w 1 / 2 ^ 12 % 16 != 0 || c.w 1 / 2 ^ 22 % 1024 != 0 || c.w 1 / 2 ^ 48 != 0 || c.w 2 != 0 ||
      c.w 3 != 0, EINVAL),
    (!s.fnEnabled fn, ENODEV)]
  if sts ≠ OK then (s, sts, 0, 0)
  else
    let k := (c.w 1 / 2 ^ 16 % 16, c.w 1 / 2 ^ 20 % 4, c.w 1 / 2 ^ 32 % 65536)
    ({ s with classes := Tbl.put s.classes fn (0, 0, 0) k }, OK, 0, 0)

def execFnClass (f : Fn) (s : State) : Host.Outcome State Fault Refusal :=
  s.ifRuns fun s => (s.admRun f.val 6 (fun s c => s.fnClass f.val c))

/-- RING_QUERY (R386, R390): two answers in the same cycle. -/
def State.ringQuery (s : State) (f : Nat) (c : AdmCmd) : State × Nat × Nat × Nat :=
  let r := c.w 1 % 2 ^ 20
  let x := s.ring r
  let sts := firstBad [(s.ringAuth f r c false true, EPERM), (c.badRing, EINVAL)]
  if sts ≠ OK then (s, sts, 0, 0)
  else
    let r1 := x.st + (!s.fnBme x.fn).toNat * 8 + x.bell.toNat * 16 + x.lapSat.toNat * 32 + x.err * 256 + x.lap * 65536
    (s.admOut f (admAnswer OK c.tag (x.done + x.piSeen * 2 ^ 32) r1), OK, x.doneDup + x.fetch * 2 ^ 32, x.fetchDup)

def execRingQuery (f : Fn) (s : State) : Host.Outcome State Fault Refusal :=
  s.ifRuns fun s => (s.admRun f.val 7 (fun s c => s.ringQuery f.val c))

/-! ### Doorbells -/

def execDoorbellRetry (octet : BitVec 17) (s : State) : Host.Outcome State Fault Refusal :=
  s.ifRuns fun s => (s.bellRetry octet.toNat)

/-! ### Fetch and start (R376) -/

/-- A function may issue new work: Bus Master Enable, no reset in progress, and not freezing (R358, R361, R418). -/
def State.fnWorks (s : State) (f : Nat) : Bool := s.fnBme f && (s.fn f).flr.isNone

/-- A ring has a descriptor that may be fetched: announced, and at most 16 ahead of DONE. -/
def State.canFetch (s : State) (r : Nat) : Bool :=
  let x := s.ring r
  x.st == 2 && s.fnWorks x.fn && Tbl.getD s.inst x.fn 0 == 0 && x.fetch != x.piSeen &&
    decide ((x.fetch + 2 ^ 32 - x.done) % 2 ^ 32 < 16)

/-- A ring whose context is not cached may load it: of the rings with work that found every context pinned, the next in
ascending order after the last one loaded goes first (R367). -/
def State.ctxTurn (s : State) (r : Nat) : Bool :=
  let pos (q : Nat) : Nat := (q + 1048576 - (s.ctxLast + 1)) % 1048576
  s.ctxCache.contains r || (s.ctxWait.filter (fun q => s.canFetch q && !s.ctxCache.contains q)).all (fun q => decide (pos r ≤ pos q))

/-- A copy of FETCH or DONE has changed, so the copies are compared (R369). -/
def State.ptrCheck (s : State) (r : Nat) : State :=
  let x := s.ring r
  if x.fetch = x.fetchDup ∧ x.done = x.doneDup then s else s.ringError r 0x45

/-- The TQE fetches the next descriptor of a ring with RdOnce (R370, R376); a failed fetch becomes the descriptor's
outcome (R377). -/
def State.fetchTake (s : State) (r : Nat) : State :=
  if s.canFetch r = false then s
  else if s.ctxTurn r = false then { s with ctxWait := if s.ctxWait.contains r then s.ctxWait else s.ctxWait ++ [r] }
  else
    match s.ctxUse r with
    | none => s
    | some (s, false) => { s with ctxWait := if s.ctxWait.contains r then s.ctxWait else s.ctxWait ++ [r] }
    | some (s, true) =>
      let x := s.ring r
      let a := x.sq + 64 * (x.fetch % 2 ^ x.lg)
      let (j, v) := Job.read ⟨s, none, none, false⟩ x.fn (s.ringAttr r) a 64
      if j.wait then s
      else
        let s := j.s
        let bad : Option (Nat × Nat) := match j.err with
          | some e => some e
          | none => j.psn.map (fun a => (POISONED, a))
        let run : Run := ⟨x.fetch, BitVec.ofNat 512 v, bad, none, none, 0, 0, false, none⟩
        let y := s.ring r
        ((s.setRing r { y with fetch := (y.fetch + 1) % 2 ^ 32, fetchDup := (y.fetchDup + 1) % 2 ^ 32 }).setRuns r
          (s.runsOf r ++ [run])).ptrCheck r

/-- The fields of a descriptor (R370). -/
def Run.w (x : Run) (i : Nat) : Nat := x.data.toNat / 2 ^ (64 * i) % 2 ^ 64
def Run.op (x : Run) : Nat := x.w 0 % 256
def Run.fence (x : Run) : Bool := (x.w 0).testBit 8
def Run.irq (x : Run) : Bool := x.bad.isNone && (x.w 0).testBit 9
def Run.dcopy (x : Run) : Bool := (x.w 0).testBit 10
def Run.dir (x : Run) : Bool := (x.w 0).testBit 11
def Run.utag (x : Run) : Nat := if x.bad.isSome then 0 else x.w 0 / 2 ^ 16 % 65536
def Run.len (x : Run) : Nat := x.w 0 / 2 ^ 32
def Run.src (x : Run) : Nat := x.w 1
def Run.dst (x : Run) : Nat := x.w 2
def Run.aux (x : Run) : Nat := x.w 3
def Run.slot (x : Run) : Nat := x.w 4 % 65536

/-- The descriptor is a cipher operation. -/
def Run.cipher (x : Run) : Bool := decide (5 ≤ x.op) && decide (x.op ≤ 8)

/-- The descriptor's form is one that R370, R371 and R373 allow. -/
def Run.ok (x : Run) : Bool :=
  let addr (a : Nat) : Bool := decide (a < 2 ^ 52)
  let op := x.op
  decide (x.w 0 / 2 ^ 12 % 16 = 0) && (!x.dcopy || op == 4) && (!x.dir || op == 9) &&
  (if op = 0x0F then x.len == 0 else decide (1 ≤ x.len) && decide (x.len ≤ 16777216)) &&
  addr x.src && addr x.dst && addr x.aux &&
  (match op with
  | 1 | 3 | 9 | 0x0F => x.w 4 == 0 && x.w 5 == 0 && x.w 6 == 0 && x.w 7 == 0
  | 2 => x.w 5 == 0 && x.w 6 == 0 && x.w 7 == 0
  | 4 => decide (x.w 4 < 2 ^ 32) && x.w 5 == 0 && x.w 6 == 0 && x.w 7 == 0
  | 5 | 6 =>
    x.w 4 / 2 ^ 16 % 2 ^ 16 == 0 && decide (x.w 4 / 2 ^ 32 ≤ 16777216) && decide (x.w 6 < 2 ^ 32) && addr (x.w 7)
  | 7 | 8 =>
    x.w 4 / 2 ^ 16 % 2 ^ 16 == 0 && (x.w 4 / 2 ^ 32 == 512 || x.w 4 / 2 ^ 32 == 4096) && x.len % (x.w 4 / 2 ^ 32) == 0 &&
      x.w 7 == 0
  | _ => false)

def Slot.init : Slot := ⟨0, 0, false, false, false, false, 0⟩

def State.slot (s : State) (n : Nat) : Slot := Tbl.getD s.slots n Slot.init

/-- The slot's type suits the operation (R397). -/
def slotSuits (op type : Nat) : Bool :=
  if op = 5 ∨ op = 6 then type == 1 || type == 2 else type == 3 || type == 4

/-- Change one fetched descriptor of a ring. -/
def State.modRun (s : State) (r idx : Nat) (f : Run → Run) : State :=
  s.setRuns r ((s.runsOf r).map (fun x => if x.idx = idx then f x else x))

/-- A lane that serves no descriptor (R391). -/
def State.freeLane (s : State) : Option Nat :=
  (List.range 16).find? (fun l => s.runs.all (fun p => p.2.all (fun x => x.lane != some l)))

/-- A mover that serves no descriptor (R376). -/
def State.freeMover (s : State) : Option Nat :=
  (List.range 32).find? (fun m => s.runs.all (fun p => p.2.all (fun x => x.mover != some m)))

/-- Domain 13 is ON. -/
def State.cxOn (s : State) : Bool := s.rd (PMC_DOM.STATE 13) == 2

/-- A lane starts a descriptor: it fetches the key from the slot (R394), or the descriptor fails with no access (R377,
R410). -/
def State.laneStart (s : State) (r : Nat) (x : Run) (l : Nat) : State :=
  let k := s.slot x.slot
  if s.cxOn = false then s.modRun r x.idx (fun y => { y with fin := some (DOMAIN_OFF, 0) })
  else if slotSuits x.op k.type = false ∨ k.fn ≠ (s.ring r).fn then
    s.modRun r x.idx (fun y => { y with fin := some (KEYSLOT, 0) })
  else s.modRun r x.idx (fun y => { y with lane := some l, key := k.key, ktype := k.type, scrub := k.scrub })

/-- Rings whose work may be taken up by a mover or lane, best first: highest QOS, then round-robin by ring number after
the last one served (R376, R391). -/
def State.bestRing (s : State) (last : Nat) (c : List Nat) : Option Nat :=
  let key (r : Nat) : Nat × Nat := (3 - (s.ring r).qos, (r + 1048576 - (last + 1)) % 1048576)
  c.foldl (fun b r => match b with
    | none => some r
    | some q => if (key r).1 < (key q).1 ∨ ((key r).1 = (key q).1 ∧ (key r).2 < (key q).2) then some r else some q) none

/-- The descriptor of a ring that a mover may start next: the first not started, with nothing before it uncommitted if it
has FENCE (R370, R376). -/
def State.startable (s : State) (r : Nat) : Option Run :=
  let x := s.ring r
  if s.fnWorks x.fn = false ∨ (x.st ≠ 2 ∧ x.st ≠ 3) then none
  else
    match (s.runsOf r).find? (fun y => y.mover.isNone && y.fin.isNone) with
    | some y => if y.bad.isNone ∧ y.fence = true ∧ y.idx ≠ x.done then none else some y
    | none => none

/-- A free lane goes to the best waiting mover (R391). -/
def State.laneNext (s : State) : State :=
  match s.freeLane with
  | none => s
  | some l =>
    let waits (y : Run) : Bool := y.mover.isSome && y.lane.isNone && y.fin.isNone && y.cipher
    match s.bestRing s.rrLane ((s.runs.filter (fun p => p.2.any waits && s.fnWorks (s.ring p.1).fn)).map (fun p => p.1)) with
    | none => s
    | some r =>
      match (s.runsOf r).find? waits with
      | some y => { s with rrLane := r }.laneStart r y l
      | none => s

/-- A free mover starts the next fetched descriptor (R376); one that cannot run at all has its outcome at once (R377). -/
def State.moverStart (s : State) : State :=
  match s.freeMover with
  | none => s
  | some m =>
    match s.bestRing s.rrRing ((s.runs.filter (fun p => (s.startable p.1).isSome)).map (fun p => p.1)) with
    | none => s
    | some r =>
      match s.startable r with
      | none => s
      | some y =>
        let s := { s with rrRing := r }
        match y.bad with
        | some e => s.modRun r y.idx (fun z => { z with fin := some e })
        | none =>
          if y.ok = false then s.modRun r y.idx (fun z => { z with fin := some (EINVAL, 0) })
          else
            let s := s.modRun r y.idx (fun z => { z with mover := some m })
            if y.cipher then s.laneNext else s

def execMoverStart (s : State) : Host.Outcome State Fault Refusal := s.ifRuns fun s => s.moverStart

/-! ### Commit (R374, R376, R378, R382) -/

/-- A key that has been erased is in no lane any more: KEY_ERASE is answered (R401). -/
def State.eraseCheck (s : State) : State :=
  s.admq.foldl (fun s p =>
    match (s.q p.1).busy with
    | some (_, .erase n) =>
      if s.runs.any (fun q => q.2.any (fun x => x.lane.isSome && x.slot == n)) then s else s.admDone p.1 OK 0 0
    | _ => s) s

/-- A descriptor is fetched; a ring that enters ERROR leaves its lanes. -/
def State.fetchDesc (s : State) (r : Nat) : State := ((s.fetchTake r).laneNext).eraseCheck

def execDescriptorFetch (r : Ring) (s : State) : Host.Outcome State Fault Refusal := s.ifRuns fun s => (s.fetchDesc r.val)

/-- A doorbell read is evaluated; a ring that enters ERROR leaves its lanes. -/
def State.bellDone (s : State) (octet : Nat) : State := ((s.bellTake octet).laneNext).eraseCheck

def execDoorbellReadComplete (octet : BitVec 17) (s : State) : Host.Outcome State Fault Refusal :=
  s.ifRuns fun s => (s.bellDone octet.toNat)

/-- The completion record of a descriptor (R374). -/
def complRecord (lg : Nat) (x : Run) (sts result : Nat) : Nat :=
  sts + (1 - x.idx / 2 ^ lg % 2) * 2 ^ 8 + x.utag * 2 ^ 16 + x.idx * 2 ^ 32 + result * 2 ^ 64

/-- DONE moves past an index, with its lap and bell (R382). -/
def State.doneNext (s : State) (r : Nat) : State :=
  let x := s.ring r
  let v := x.done
  let v' := (v + 1) % 2 ^ 32
  let wrap := decide (v' < v)
  let bell := wrap || (decide (v < 0xE0000000) && decide (0xE0000000 ≤ v'))
  let s := s.setRing r { x with
    done := v', doneDup := (x.doneDup + 1) % 2 ^ 32,
    lap := if wrap ∧ x.lap ≠ 0xFFFF then x.lap + 1 else x.lap,
    lapSat := x.lapSat || (wrap && x.lap == 0xFFFF), bell := x.bell || bell }
  if bell then s.raise TQE_RSTS.fIDXBELL else s

/-- The ring's next descriptor commits once it has an outcome: its record becomes visible, DONE advances, its mover and
lane are free, and its event is raised. -/
def State.commit (s : State) (r : Nat) : State :=
  let x := s.ring r
  if s.fnWorks x.fn = false ∨ (x.st ≠ 2 ∧ x.st ≠ 3) then s
  else
    match s.runsOf r with
    | [] => s
    | y :: ys =>
      match y.fin with
      | none => s
      | some (sts, result) =>
        let a := x.cq + 16 * (y.idx % 2 ^ x.lg)
        let j := Job.write ⟨s, none, none, false⟩ x.fn (s.ringAttr r) a 16 (complRecord x.lg y sts result) false
        if j.wait then s
        else
          match j.err with
          | some _ => (j.s.ringError r 0x46).laneNext.eraseCheck
          | none =>
            let s := ((j.s.setRuns r ys).doneNext r).count bankTqe 1 0 (some (s.ringAttr r))
            let s := if y.irq then s.tqeEvent x.fn x.vec else s
            let s := if sts = OK ∨ sts = POISONED ∨ sts = AUTH_FAIL then
                { s with meterTqe := Tbl.put s.meterTqe x.mtag 0 (Tbl.getD s.meterTqe x.mtag 0 + y.len) }
              else s
            ((((s.ptrCheck r).laneNext).eraseCheck).stopDone r).freezeCheck x.fn

def execDescriptorCommit (r : Ring) (s : State) : Host.Outcome State Fault Refusal := s.ifRuns fun s => (s.commit r.val)

/-- The copies of FETCH or DONE differ, or (`ctx`) the cached context is uncorrectable (R369): what the second copies then
hold is open, except that one of them differs (assumption 23). -/
def State.ptrMismatch (s : State) (r : Nat) (ctx : Bool) : State :=
  let x := s.ring r
  if x.st ≠ 2 ∧ x.st ≠ 3 then s
  else if ctx then ((s.ringError r 0x48).laneNext).eraseCheck
  else
    let u := s.free
    let v := (u.2).free
    let fd := u.1.toNat % 2 ^ 32
    let dd := if fd = x.fetch then (x.done + 1 + v.1.toNat % (2 ^ 32 - 1)) % 2 ^ 32 else v.1.toNat % 2 ^ 32
    ((((v.2).setRing r { x with fetchDup := fd, doneDup := dd }).ringError r 0x45).laneNext).eraseCheck

def execPtrCopyMismatch (x : PtrCopies) (s : State) : Host.Outcome State Fault Refusal :=
  s.ifRuns fun s => (s.ptrMismatch x.r.val x.ctx)

/-- A mover's pointers differ: its FIFO is reset, and the descriptor completes QRESET (R384). -/
def execMoverFifoReset (mv : BitVec 5) (s : State) : Host.Outcome State Fault Refusal :=
  s.ifRuns fun s => (match s.runs.find? (fun p => p.2.any (fun x => x.mover == some mv.toNat && x.fin.isNone)) with
    | some (r, l) =>
      (match l.find? (fun x => x.mover == some mv.toNat && x.fin.isNone) with
      | some x => (s.modRun r x.idx (fun y => { y with fin := some (QRESET, 0) })).raise TQE_RSTS.fMVRESET
      | none => s)
    | none => s)

end Sys2Proof.Machine
end

