-- ==== Sys2Proof/Machine/TqeOps.lean ====
section
/-!
DEFINITION. The operations of a ring's descriptors (R371 to R373, R377, R391 to R396): what each reads and writes, and the
status and RESULT of its completion record. An operation makes all its accesses in one command; each destination line is
written once its source bytes have been read (assumption 21).
-/
namespace Sys2Proof.Machine

/-! ### Bytes -/

/-- One byte through the CRC32C register (R372): the reflected polynomial 0x82F63B78. -/
def crcByte (c : BitVec 32) (b : BitVec 8) : BitVec 32 :=
  (List.range 8).foldl (fun c _ => if c.getLsbD 0 then (c >>> 1) ^^^ 0x82F63B78#32 else c >>> 1) (c ^^^ b.setWidth 32)

/-- The CRC32C register after bytes. -/
def crcBytes (c : BitVec 32) (l : List (BitVec 8)) : BitVec 32 := l.foldl crcByte c

/-- n bytes of a pattern of 8 bytes that repeats, from offset `off` of it on (R371). -/
def patternAt (p off n : Nat) : Nat := ofBytes ((List.range n).map (fun k => BitVec.ofNat 8 (p >>> (8 * ((off + k) % 8)))))

/-- The offset of the lowest byte in which two numbers of n bytes differ. -/
def firstDiff (a b n : Nat) : Option Nat := (List.range n).find? (fun i => (a >>> (8 * i)) % 256 != (b >>> (8 * i)) % 256)

/-! ### An operation's frame -/

/-- The descriptor that a mover serves and that has no outcome yet. -/
def State.runAt (s : State) (mv : Nat) : Option (Nat × Run) :=
  s.runs.findSome? (fun p =>
    (p.2.find? (fun x => x.mover == some mv && x.fin.isNone)).map (fun x => (p.1, x)))

/-- The outcome of a descriptor (R377): the status of its first failure, else its result. -/
def Job.outcome (j : Job) (ok : Nat × Nat) : Nat × Nat :=
  match j.psn, j.err with
  | some a, _ => (POISONED, a)
  | none, some e => e
  | none, none => ok

/-- Perform the operation of the descriptor that a mover serves: `k` makes the accesses and gives the outcome of a
descriptor that meets no failure. A cipher operation needs its lane. -/
def State.opRun (s : State) (mv op : Nat) (k : State → Nat → Attr → Run → Job × (Nat × Nat)) : State :=
  match s.runAt mv with
  | none => s
  | some (r, x) =>
    let f := (s.ring r).fn
    if x.op ≠ op ∨ s.fnWorks f = false ∨ (x.cipher = true ∧ x.lane = none) then s
    else
      let j := k s f (s.ringAttr r) x
      if j.1.wait then s
      else j.1.s.modRun r x.idx (fun y => { y with fin := some (j.1.outcome j.2) })

/-- A job that begins. -/
def State.job (s : State) : Job := ⟨s, none, none, false⟩

/-! ### Plain operations (R371) -/

/-- Bytes from SRC to DST; `crc` takes the bytes as they pass. -/
def Job.copy (j : Job) (f : Nat) (a : Attr) (src dst len : Nat) (crc : BitVec 32) : Job × BitVec 32 :=
  (linePieces dst len).foldl (fun x p =>
    let r := x.1.readP f a (src + p.1) p.2
    (r.1.writeLine f a (dst + p.1) p.2 r.2.1 r.2.2, crcBytes x.2 (bytesOf r.2.1 p.2))) (j, crc)

def State.opCopy (s : State) (f : Nat) (a : Attr) (x : Run) : Job × (Nat × Nat) :=
  ((s.job.copy f a x.src x.dst x.len 0).1, (OK, 0))

def execCopy (mv : BitVec 5) (s : State) : Host.Outcome State Fault Refusal :=
  s.ifRuns fun s => (s.opRun mv.toNat 1 State.opCopy)

/-- Write a pattern over a range. -/
def Job.fill (j : Job) (f : Nat) (a : Attr) (dst len p : Nat) : Job :=
  (linePieces dst len).foldl (fun j q => j.writeLine f a (dst + q.1) q.2 (patternAt p q.1 q.2) false) j

def State.opFill (s : State) (f : Nat) (a : Attr) (x : Run) : Job × (Nat × Nat) :=
  (s.job.fill f a x.dst x.len (x.w 4), (OK, 0))

def execFill (mv : BitVec 5) (s : State) : Host.Outcome State Fault Refusal :=
  s.ifRuns fun s => (s.opRun mv.toNat 2 State.opFill)

def State.opCompare (s : State) (f : Nat) (a : Attr) (x : Run) : Job × (Nat × Nat) :=
  let r := (linePieces x.src x.len).foldl (fun (acc : Job × Option Nat) p =>
    let u := acc.1.readP f a (x.src + p.1) p.2
    let v := u.1.readP f a (x.dst + p.1) p.2
    (v.1, acc.2.orElse (fun _ => (firstDiff u.2.1 v.2.1 p.2).map (fun i => p.1 + i)))) (s.job, none)
  (r.1, (OK, match r.2 with
    | some i => 2 ^ 63 + i
    | none => 0))

def execCompare (mv : BitVec 5) (s : State) : Host.Outcome State Fault Refusal :=
  s.ifRuns fun s => (s.opRun mv.toNat 3 State.opCompare)

def State.opCrc (s : State) (f : Nat) (a : Attr) (x : Run) : Job × (Nat × Nat) :=
  let seed := BitVec.ofNat 32 (x.w 4)
  let r :=
    if x.dcopy then s.job.copy f a x.src x.dst x.len seed
    else (linePieces x.src x.len).foldl (fun (acc : Job × BitVec 32) p =>
      let u := acc.1.readP f a (x.src + p.1) p.2
      (u.1, crcBytes acc.2 (bytesOf u.2.1 p.2))) (s.job, seed)
  (r.1, (OK, (~~~r.2).toNat))

def execCrc32c (mv : BitVec 5) (s : State) : Host.Outcome State Fault Refusal :=
  s.ifRuns fun s => (s.opRun mv.toNat 4 State.opCrc)

def execNop (mv : BitVec 5) (s : State) : Host.Outcome State Fault Refusal :=
  s.ifRuns fun s => (s.opRun mv.toNat 0x0F (fun s _ _ _ => (s.job, (OK, 0))))

/-! ### Cipher operations (R371, R395, R396) -/

/-- The bytes of a key of a type (R397). -/
def keyLen (type : Nat) : Nat := match type with
  | 1 => 16
  | 2 => 32
  | 3 => 32
  | 4 => 64
  | 5 => 16
  | 6 => 32
  | _ => 0

/-- The key a lane holds for a descriptor. -/
def Run.keyBytes (x : Run) : List (BitVec 8) := bytesOf x.key (keyLen x.ktype)

/-- Read a range as far as it can be read: the bytes, and the offset of each piece that was poisoned. -/
def Job.gather (j : Job) (f : Nat) (a : Attr) (src len : Nat) : Job × List (BitVec 8) × List (Nat × Nat) :=
  (linePieces src len).foldl (fun x p =>
    let r := x.1.readLine f a (src + p.1) p.2
    if r.1.live then (r.1, x.2.1 ++ bytesOf r.2.1 p.2, if r.2.2 then x.2.2 ++ [p] else x.2.2) else (r.1, x.2)) (j, [], [])

/-- Write the output bytes of what was gathered; every line derived from a poisoned line carries poison (R357). Where the
reading ended early, what it had read is written, and its failure stands (R377). -/
def Job.scatter (j : Job) (f : Nat) (a : Attr) (dst : Nat) (out : List (BitVec 8)) (bad : List (Nat × Nat)) : Job :=
  if j.wait then j
  else
    let first := j.err
    let j := (linePieces dst out.length).foldl (fun j p =>
      j.writeLine f a (dst + p.1) p.2 (ofBytes ((out.drop p.1).take p.2))
        (bad.any (fun b => decide (b.1 < p.1 + p.2) && decide (p.1 < b.1 + b.2)))) { j with err := none }
    { j with err := first.orElse (fun _ => j.err) }

/-- The 12 bytes of the IV of a GCM descriptor, in the order of their addresses (R371). -/
def Run.iv (x : Run) : List (BitVec 8) := bytesOf (x.w 5 + x.w 6 * 2 ^ 64) 12

/-- The 16 bytes of a tag in memory, little-endian: its first byte is the block's most significant. -/
def tagNat (t : BitVec 128) : Nat := ofBytes (toBe t.toNat 16)

/-- The ciphers of the two halves of an XTS key: the data key's, or its inverse, and the tweak key's (R397). -/
def Run.xtsKeys (x : Run) (enc : Bool) : (BitVec 128 → BitVec 128) × (BitVec 128 → BitVec 128) :=
  let k := x.keyBytes
  let c := Config.aes (k.take (k.length / 2))
  (if enc then c else c.symm, Config.aes (k.drop (k.length / 2)))

def State.opGcmEnc (s : State) (f : Nat) (a : Attr) (x : Run) : Job × (Nat × Nat) :=
  let ad := s.job.gather f a (x.w 7) (x.w 4 / 2 ^ 32)
  let g := ad.1.gather f a x.src x.len
  let o := gcm (Config.aes x.keyBytes) true x.iv ad.2.1 g.2.1
  let j := g.1.scatter f a x.dst (o.1.take g.2.1.length) g.2.2
  (j.write f a x.aux 16 (tagNat o.2) j.psn.isSome, (OK, 0))

def execGcmEnc (mv : BitVec 5) (s : State) : Host.Outcome State Fault Refusal :=
  s.ifRuns fun s => (s.opRun mv.toNat 5 State.opGcmEnc)

/-- What follows a tag that does not match (R395, R396). -/
def Job.authFail (j : Job) (f : Nat) (a : Attr) (x : Run) : Job × (Nat × Nat) :=
  let j := { j with s := j.s.raise TQE_KSTS.fAUTHFAIL }
  if x.scrub = false then (j, (AUTH_FAIL, x.dst))
  else
    let z := j.fill f a x.dst x.len 0
    match z.err with
    | none => (z, (AUTH_FAIL, 0))
    | some e => ({ z with err := none, s := z.s.raise TQE_KSTS.fSCRUBSTOP }, (AUTH_FAIL, e.2))

def State.opGcmDec (s : State) (f : Nat) (a : Attr) (x : Run) : Job × (Nat × Nat) :=
  let ad := s.job.gather f a (x.w 7) (x.w 4 / 2 ^ 32)
  let t := ad.1.read f a x.aux 16
  let g := t.1.gather f a x.src x.len
  let o := gcm (Config.aes x.keyBytes) false x.iv ad.2.1 g.2.1
  let j := g.1.scatter f a x.dst (o.1.take g.2.1.length) g.2.2
  if j.live = false ∨ j.psn.isSome = true ∨ tagNat o.2 = t.2 then (j, (OK, 0)) else j.authFail f a x

def execGcmDec (mv : BitVec 5) (s : State) : Host.Outcome State Fault Refusal :=
  s.ifRuns fun s => (s.opRun mv.toNat 6 State.opGcmDec)

/-- XTS over the data units of a descriptor: unit k is read, transformed under TWEAK + k, and written. -/
def State.opXts (enc : Bool) (s : State) (f : Nat) (a : Attr) (x : Run) : Job × (Nat × Nat) :=
  let dus := x.w 4 / 2 ^ 32
  let tweak := x.w 5 + x.w 6 * 2 ^ 64
  let e := x.xtsKeys enc
  ((List.range (x.len / dus)).foldl (fun j k =>
    let g := j.gather f a (x.src + dus * k) dus
    if g.1.live then
      g.1.scatter f a (x.dst + dus * k) (xts e.1 e.2 (BitVec.ofNat 128 (tweak + k)) g.2.1) g.2.2
    else g.1) s.job, (OK, 0))

def execXtsEnc (mv : BitVec 5) (s : State) : Host.Outcome State Fault Refusal :=
  s.ifRuns fun s => (s.opRun mv.toNat 7 (State.opXts true))

def execXtsDec (mv : BitVec 5) (s : State) : Host.Outcome State Fault Refusal :=
  s.ifRuns fun s => (s.opRun mv.toNat 8 (State.opXts false))

end Sys2Proof.Machine
end

