-- ==== Sys2Proof/Machine/TqeKeys.lean ====
section
/-!
DEFINITION. The key store of the TQE (R397 to R411): key commands, the key-wrap engine, alarms, and the loss of keys.
-/
namespace Sys2Proof.Machine

/-! ### Slots (R397, R398) -/

/-- A slot changes; TQE_KOCC counts the slots that are not EMPTY (R411). -/
def State.setSlot (s : State) (n : Nat) (x : Slot) : State :=
  let used := s.rd TQE_KOCC.USED - (decide ((s.slot n).type ≠ 0)).toNat + (decide (x.type ≠ 0)).toNat
  { s with slots := Tbl.put s.slots n Slot.init x }.wr TQE_KOCC.USED used

/-- The slot without its key; its binding and a FILLING mark stay. -/
def Slot.emptied (x : Slot) (lost : Bool) : Slot :=
  { Slot.init with fn := x.fn, filling := x.filling, lost := lost }

/-- A lane holds a copy of a slot's key (R402). -/
def State.slotBusy (s : State) (n : Nat) : Bool := s.runs.any (fun p => p.2.any (fun x => x.lane.isSome && x.slot == n))

/-- The two halves of an XTS key are equal (R397). -/
def xtsEqual (type key : Nat) : Bool :=
  (type == 3 && key % 2 ^ 128 == key / 2 ^ 128 % 2 ^ 128) || (type == 4 && key % 2 ^ 256 == key / 2 ^ 256 % 2 ^ 256)

/-- The store is ARMED (R407). -/
def State.armed (s : State) : Bool := s.rd TQE_KALARM.STATE == 0

/-! ### Arguments and checks (R399 to R401) -/

def AdmCmd.slotNo (c : AdmCmd) : Nat := c.w 1 % 65536
def AdmCmd.ktype (c : AdmCmd) : Nat := c.w 1 / 2 ^ 16 % 16
def AdmCmd.kexp (c : AdmCmd) : Bool := (c.w 1).testBit 20
def AdmCmd.kscrub (c : AdmCmd) : Bool := (c.w 1).testBit 21
def AdmCmd.kek (c : AdmCmd) : Nat := c.w 1 / 2 ^ 32 % 65536

/-- The command does not carry the assignment of the queue's function (R400). -/
def State.keyTagBad (s : State) (f : Nat) (c : AdmCmd) : Bool :=
  let (w, e) := s.fnTag f
  c.world != w || c.enc != e

/-- Word 0 or the reserved bits of word 1 are bad, or the length differs (R385, R399). -/
def AdmCmd.badKey (c : AdmCmd) (bytes : Nat) : Bool :=
  c.badHead bytes || c.w 1 / 2 ^ 22 % 2 ^ 10 != 0 || c.w 1 / 2 ^ 48 != 0

/-- The key bytes that a command carries from word 2 on, as a number. -/
def AdmCmd.blob (c : AdmCmd) : Nat := (c.words.drop 2).foldr (fun w v => w % 2 ^ 64 + 2 ^ 64 * v) 0

/-- The slot cannot take a key now (R401). -/
def State.loadState (s : State) (n : Nat) : Bool := decide ((s.slot n).type ≠ 0) || (s.slot n).filling || !s.armed

/-- The slot of a KEK is not a key-encryption key (R401). -/
def State.kekBad (s : State) (n : Nat) : Bool := (s.slot n).type != 5 && (s.slot n).type != 6

/-- A queue may not name this slot and KEK together (R400, R425). -/
def State.wrapAuth (s : State) (f slot kek : Nat) : Bool :=
  let a := (s.slot slot).fn
  let b := (s.slot kek).fn
  if f ≠ 0 then a != f || b != f
  else if a = 0 then b != 0
  else Tbl.getD s.inst a 0 == 0 || (b != a && b != 0)

/-! ### Key commands (R399) -/

def State.keyBind (s : State) (f : Nat) (c : AdmCmd) : State × Nat × Nat × Nat :=
  let first := c.w 1
  let n := c.w 2
  let fn := c.w 3
  let sts := firstBad [
    (f != 0 || s.keyTagBad f c, EPERM),
    (c.badHead 32 || decide (65536 ≤ first) || decide (131072 ≤ n) || decide (4096 ≤ fn) || n == 0 ||
      decide (65536 < first + n), EINVAL),
    (!s.fnEnabled fn, ENODEV),
    ((List.range n).any (fun i => (s.slot (first + i)).type != 0 || (s.slot (first + i)).filling), ESTATE)]
  if sts ≠ OK then (s, sts, 0, 0)
  else ((List.range n).foldl (fun s i => s.setSlot (first + i) { s.slot (first + i) with fn := fn }) s, OK, 0, 0)

def execKeyBind (f : Fn) (s : State) : Host.Outcome State Fault Refusal :=
  s.ifRuns fun s => (s.admRun f.val 0x20 (fun s c => s.keyBind f.val c))

/-- A slot takes a key. -/
def State.keyLoad (s : State) (c : AdmCmd) (key : Nat) : State :=
  s.setSlot c.slotNo ⟨c.ktype, (s.slot c.slotNo).fn, c.kexp, c.kscrub, false, false, key⟩

def State.keyPut (s : State) (f : Nat) (c : AdmCmd) : State × Nat × Nat × Nat :=
  let key := c.blob
  let sts := firstBad [
    (decide ((s.slot c.slotNo).fn ≠ f) || !s.on TQE_KCTL.PLAIN_OK || s.keyTagBad f c, EPERM),
    (c.badKey 80 || keyLen c.ktype == 0 || decide (2 ^ (8 * keyLen c.ktype) ≤ key) || xtsEqual c.ktype key, EINVAL),
    (s.loadState c.slotNo, ESTATE)]
  if sts ≠ OK then (s, sts, 0, 0) else (s.keyLoad c key, OK, 0, 0)

def execKeyPut (f : Fn) (s : State) : Host.Outcome State Fault Refusal :=
  s.ifRuns fun s => (s.admRun f.val 0x21 (fun s c => s.keyPut f.val c))

/-- A key drawn from the noise source: a free value of the key's length, whose XTS halves differ (R399). -/
def drawnKey (type v : Nat) : Nat :=
  let k := v % 2 ^ (8 * keyLen type)
  if xtsEqual type k then k ^^^ 1 else k

def State.keyGen (s : State) (f : Nat) (c : AdmCmd) : State × Nat × Nat × Nat :=
  let sts := firstBad [
    (decide ((s.slot c.slotNo).fn ≠ f) || s.keyTagBad f c, EPERM),
    (c.badKey 16 || keyLen c.ktype == 0, EINVAL),
    (s.loadState c.slotNo, ESTATE)]
  if sts ≠ OK then (s, sts, 0, 0)
  else
    let v := s.free
    ((v.2).keyLoad c (drawnKey c.ktype v.1.toNat), OK, 0, 0)

def execKeyGen (f : Fn) (s : State) : Host.Outcome State Fault Refusal :=
  s.ifRuns fun s => (s.admRun f.val 0x22 (fun s c => s.keyGen f.val c))

/-- A queue's command goes to the key-wrap engine (R403). -/
def State.kwJoin (s : State) (f : Nat) (c : AdmCmd) (un : Bool) : State :=
  (State.admHold { s with kwq := s.kwq ++ [f] } f c.tag
    (.wrap un c.slotNo c.kek c.ktype c.kexp c.kscrub (if un then c.words.drop 2 else []) false))

def State.keyUnwrap (s : State) (f : Nat) (c : AdmCmd) : State × Option (Nat × Nat × Nat) :=
  let sts := firstBad [
    (s.wrapAuth f c.slotNo c.kek || s.keyTagBad f c, EPERM),
    (c.badKey (keyLen c.ktype + 24) || keyLen c.ktype == 0, EINVAL),
    (s.loadState c.slotNo || s.kekBad c.kek, ESTATE)]
  if sts ≠ OK then (s, some (sts, 0, 0))
  else ((s.setSlot c.slotNo { s.slot c.slotNo with filling := true }).kwJoin f c true, none)

def execKeyUnwrap (f : Fn) (s : State) : Host.Outcome State Fault Refusal :=
  s.ifRuns fun s => (s.admRunW f.val 0x23 (fun s c => s.keyUnwrap f.val c))

/-- KEY_WRAP; EXPORT is an attribute of a slot that holds a key, so an EMPTY slot is the state case of R401. -/
def State.keyWrap (s : State) (f : Nat) (c : AdmCmd) : State × Option (Nat × Nat × Nat) :=
  let x := s.slot c.slotNo
  let sts := firstBad [
    (s.wrapAuth f c.slotNo c.kek || (x.type != 0 && !x.exp) || s.keyTagBad f c, EPERM),
    (c.badKey 16, EINVAL),
    (x.type == 0 || s.kekBad c.kek, ESTATE)]
  if sts ≠ OK then (s, some (sts, 0, 0)) else (s.kwJoin f c false, none)

def execKeyWrap (f : Fn) (s : State) : Host.Outcome State Fault Refusal :=
  s.ifRuns fun s => (s.admRunW f.val 0x24 (fun s c => s.keyWrap f.val c))

/-- The command that fills a slot is cancelled (R401). -/
def State.cancelFill (s : State) (n : Nat) : State :=
  s.kwq.foldl (fun s f =>
    let x := s.q f
    match x.busy with
    | some (t, .wrap true slot kek type exp scrub blob c) =>
      s.setQ f { x with busy := some (t, .wrap true slot kek type exp scrub blob (c || slot == n)) }
    | _ => s) s

def State.keyErase (s : State) (f : Nat) (c : AdmCmd) : State × Option (Nat × Nat × Nat) :=
  let n := c.slotNo
  let sts := firstBad [
    ((f != 0 && (s.slot n).fn != f) || s.keyTagBad f c, EPERM),
    (c.badKey 16, EINVAL)]
  if sts ≠ OK then (s, some (sts, 0, 0))
  else
    let s := (s.setSlot n ((s.slot n).emptied false)).cancelFill n
    if s.slotBusy n then (s.admHold f c.tag (.erase n), none) else (s, some (OK, 0, 0))

def execKeyErase (f : Fn) (s : State) : Host.Outcome State Fault Refusal :=
  s.ifRuns fun s => (s.admRunW f.val 0x25 (fun s c => s.keyErase f.val c))

/-- The result of KEY_QUERY (R402). -/
def State.keyInfo (s : State) (n : Nat) : Nat :=
  let x := s.slot n
  x.type + x.exp.toNat * 16 + x.scrub.toNat * 32 + x.lost.toNat * 64 + (s.slotBusy n).toNat * 128 +
    x.filling.toNat * 256 + x.fn * 65536 + s.rd TQE_KALARM.STATE * 2 ^ 32

def State.keyQuery (s : State) (f : Nat) (c : AdmCmd) : State × Nat × Nat × Nat :=
  let sts := firstBad [
    ((f != 0 && (s.slot c.slotNo).fn != f) || s.keyTagBad f c, EPERM),
    (c.badKey 16, EINVAL)]
  if sts ≠ OK then (s, sts, 0, 0) else (s, OK, s.keyInfo c.slotNo, 0)

def execKeyQuery (f : Fn) (s : State) : Host.Outcome State Fault Refusal :=
  s.ifRuns fun s => (s.admRun f.val 0x26 (fun s c => s.keyQuery f.val c))

/-! ### The key-wrap engine (R402, R403, R405) -/

/-- The answers of a KEY_WRAP that completes: the length of the blob, then the blob 8 bytes at a time (R402). -/
def State.kwAnswers (s : State) (f tag : Nat) (blob : List (BitVec 8)) : State :=
  (List.range (blob.length / 8)).foldl (fun s i => s.admOut f (admAnswer OK tag (ofBytes ((blob.drop (8 * i)).take 8)) 0))
    (s.admSay f OK tag blob.length 0)

/-- The engine ends the command of a queue. -/
def State.kwEnd (s : State) (f : Nat) : State :=
  match (s.q f).busy with
  | some (tag, .wrap un slot kek type exp scrub blob cancel) =>
    let kb := bytesOf (s.slot kek).key (keyLen (s.slot kek).type)
    if un then
      let s := s.setSlot slot { s.slot slot with filling := false }
      if cancel ∨ s.kekBad kek = true then s.admDone f ESTATE 0 0
      else
        let n := keyLen type + 8
        match aesKwInv (Config.aes kb).symm (bytesOf (blob.foldr (fun w v => w % 2 ^ 64 + 2 ^ 64 * v) 0) n) with
        | none => (s.raise TQE_KSTS.fKWFAIL).admDone f AUTH_FAIL 0 0
        | some l =>
          let key := ofBytes l
          if xtsEqual type key then (s.raise TQE_KSTS.fKWFAIL).admDone f AUTH_FAIL 0 0
          else (s.setSlot slot ⟨type, (s.slot slot).fn, exp, scrub, false, false, key⟩).admDone f OK 0 0
    else if cancel ∨ s.kekBad kek = true ∨ (s.slot slot).type = 0 then s.admDone f ESTATE 0 0
    else
      let x := s.slot slot
      let out := aesKw (Config.aes kb) (bytesOf x.key (keyLen x.type))
      let q := s.q f
      (((s.setQ f { q with busy := none }).kwAnswers f tag out).admGo f).freezeBegin f
  | _ => s

/-- The engine has finished the command that it serves. -/
def State.kwDone (s : State) : State :=
  match s.kwq with
  | [] => s
  | f :: l => State.kwEnd { s with kwq := l } f

def execKeyWrapEngineDone (s : State) : Host.Outcome State Fault Refusal := s.ifRuns fun s => s.kwDone

/-! ### Alarms and loss (R406 to R410) -/

/-- Every descriptor in a lane that has no outcome gets one; with `wipe`, every lane's key is gone too. -/
def State.lanesEnd (s : State) (sts : Nat) (wipe : Bool) : State :=
  { s with runs := s.runs.map (fun p => (p.1, p.2.map (fun (x : Run) =>
      if x.lane.isNone then x
      else { x with key := if wipe then 0 else x.key, fin := x.fin.orElse (fun _ => some (sts, 0)) }))) }

/-- Every slot of which `p` holds becomes EMPTY; LOST is set in those that held a key. The number that held one. -/
def State.slotsErase (s : State) (lost : Bool) (p : Slot → Bool) : State × Nat :=
  (s.slots.foldl (fun (s : State) e =>
      if p e.2 then s.setSlot e.1 (e.2.emptied (if e.2.type = 0 then e.2.lost else lost)) else s) s,
    (s.slots.filter (fun e => p e.2 && e.2.type != 0)).length)

/-- A queue's KEY_UNWRAP fills a slot. -/
def State.fills (s : State) (f : Nat) : Bool :=
  match (s.q f).busy with
  | some (_, .wrap un _ _ _ _ _ _ _) => un
  | _ => false

/-- The command in the wrap engine, and every filling command, is answered ESTATE, without effect (R407). A KEY_WRAP that
waits for the engine goes on waiting. -/
def State.kwAbort (s : State) : State :=
  let out := s.kwq.take 1 ++ (s.kwq.drop 1).filter (fun f => s.fills f)
  out.foldl (fun s f =>
    match (s.q f).busy with
    | some (_, .wrap true slot _ _ _ _ _ _) => (s.setSlot slot { s.slot slot with filling := false }).admDone f ESTATE 0 0
    | _ => s.admDone f ESTATE 0 0) { s with kwq := (s.kwq.drop 1).filter (fun f => !s.fills f) }

/-- Alarms of the last second (R407). -/
def State.recentAlarms (s : State) : List Nat := s.alarms.filter (fun t => decide (s.now.toNat - t < 1000000000))

/-- An alarm (R406 to R408). -/
def State.keyAlarm (s : State) (cause : Nat) : State :=
  let e := (s.lanesEnd KEYSLOT true).slotsErase true (fun _ => true)
  let s := (e.1).kwAbort
  let l := s.recentAlarms ++ [s.now.toNat]
  let s := { s with alarms := l }
  let lock := s.rd TQE_KALARM.STATE == 2 || decide (16 ≤ l.length)
  let s := if decide (16 ≤ l.length) && s.rd TQE_KALARM.STATE != 2 then s.raise TQE_KSTS.fLOCKOUT else s
  let s := ((((s.wr TQE_KALARM.STATE (if lock then 2 else 1)).wr TQE_KALARM.COUNT (min l.length 16)).wr
    TQE_KALARM.CAUSE cause).wr TQE_KALARM.ERASED e.2).wr TQE_KALARM_TIME.TIME s.now.toNat
  let s := (s.raise TQE_KSTS.fALARM).report (tqeRec .error 0 0x84 0 [cause, e.2])
  (s.tqeEvent 0 (s.rd TQE_KCTL.VECTOR)).eraseCheck

def execKeyAlarm (cause : BitVec 5) (s : State) : Host.Outcome State Fault Refusal :=
  s.ifRuns fun s => (if cause = 0 then s else s.keyAlarm cause.toNat)

/-- Every source has been inactive for 1 ms (R407). -/
def execKeyAlarmRearm (s : State) : Host.Outcome State Fault Refusal :=
  s.ifRuns fun s => (if s.rd TQE_KALARM.STATE = 1 then s.wr TQE_KALARM.STATE 0 else s)

/-- One second has passed since the oldest alarm that COUNT holds (R407, R411). -/
def execKeyAlarmWindowExpire (s : State) : Host.Outcome State Fault Refusal :=
  s.ifRuns fun s => ({ s with alarms := s.alarms.tail }.wr TQE_KALARM.COUNT (min s.alarms.tail.length 16))

/-- A lane's DRBG takes a new seed from the noise source (R392). -/
def execDrbgReseed (lane : BitVec 4) (s : State) : Host.Outcome State Fault Refusal :=
  let v := s.free
  s.done (if s.stopped then s else { v.2 with drbg := Tbl.set s.drbg lane.toNat v.1.toNat })

/-- A slot is uncorrectable: it is erased, and its loss is recorded (R409). -/
def State.slotError (s : State) (n : Nat) : State :=
  if (s.slot n).type = 0 then s
  else ((s.setSlot n ((s.slot n).emptied true)).raise TQE_KSTS.fSLOTERR).report (tqeRec .error n 0x83 0 [n])

def execKeySlotError (slot : BitVec 16) (s : State) : Host.Outcome State Fault Refusal := s.ifRuns fun s => (s.slotError slot.toNat)

/-- The power of domain 12 goes: every key is lost (R409). -/
def State.powerErase (s : State) : State :=
  let e := s.slotsErase true (fun _ => true)
  if e.2 = 0 then e.1 else ((e.1).raise TQE_KSTS.fPWRERASE).report (tqeRec .error 0 0x85 0 [e.2])

end Sys2Proof.Machine
end

