-- ==== Sys2Proof/Machine/TqeInst.lean ====
section
/-!
DEFINITION. Tenant instances (R412 to R429): the mailbox between PF0 and a VF, freezing, the state image, and dirty
logging.
-/
namespace Sys2Proof.Machine

/-! ### The mailbox of a VF (R413 to R416): `pf` names the PF0 end -/

def mbOutLo (pf : Bool) (f : Nat) : Fld := if pf then MBP_OUT_LO.MSG f else MBV_OUT_LO.MSG f
def mbOutHi (pf : Bool) (f : Nat) : Fld := if pf then MBP_OUT_HI.MSG f else MBV_OUT_HI.MSG f
def mbInLo (pf : Bool) (f : Nat) : Fld := if pf then MBP_IN_LO.MSG f else MBV_IN_LO.MSG f
def mbInHi (pf : Bool) (f : Nat) : Fld := if pf then MBP_IN_HI.MSG f else MBV_IN_HI.MSG f
def mbBusy (pf : Bool) (f : Nat) : Fld := if pf then MBP_STS.OUT_BUSY f else MBV_STS.OUT_BUSY f
def mbFull (pf : Bool) (f : Nat) : Flag := if pf then MBP_STS.fIN_FULL f else MBV_STS.fIN_FULL f
def mbAck (pf : Bool) (f : Nat) : Flag := if pf then MBP_STS.fACK f else MBV_STS.fACK f
def mbOvf (pf : Bool) (f : Nat) : Flag := if pf then MBP_STS.fOVF f else MBV_STS.fOVF f
def mbFlr (pf : Bool) (f : Nat) : Flag := if pf then MBP_STS.fFLR f else MBV_STS.fFLR f

/-- TQE_MBPEND shows the PF0 ends with IN_FULL or FLR set (R415). -/
def State.mbPend (s : State) (f : Nat) : State :=
  let v := s.on (MBP_STS.IN_FULL f) || s.on (MBP_STS.FLR f)
  let w := s.rd (TQE_MBPEND.VF (f / 64))
  s.wr (TQE_MBPEND.VF (f / 64)) (w - (w / 2 ^ (f % 64) % 2) * 2 ^ (f % 64) + v.toNat * 2 ^ (f % 64))

/-- An end raises an event while its IE is 1 (R415). -/
def State.mbEvent (s : State) (pf : Bool) (f : Nat) : State :=
  if pf then (if s.on (MBP_CTL.IE f) then s.tqeEvent 0 (s.rd TQE_MBCTL.VECTOR) else s)
  else if s.on (MBV_CTL.IE f) then s.tqeEvent f (s.rd (MBV_CTL.VECTOR f)) else s

/-- An end sends its MB_OUT (R414). -/
def State.mbSend (s : State) (pf : Bool) (f : Nat) : State :=
  if s.on (mbBusy pf f) then s.raise (mbOvf pf f)
  else
    let s := (s.wr (mbInLo (!pf) f) (s.rd (mbOutLo pf f))).wr (mbInHi (!pf) f) (s.rd (mbOutHi pf f))
    ((((s.raise (mbFull (!pf) f)).wr (mbBusy pf f) 1).mbPend f).mbEvent (!pf) f)

/-- An end clears its IN_FULL: the slot is free, and the sender learns it (R414). -/
def State.mbTake (s : State) (pf : Bool) (f : Nat) : State :=
  if s.on (mbFull pf f).bit = false then s
  else
    let s := (s.wr (mbFull pf f).bit 0).mbPend f
    if s.on (mbBusy (!pf) f) then ((s.wr (mbBusy (!pf) f) 0).raise (mbAck (!pf) f)).mbEvent (!pf) f else s

/-- An access to an end of a mailbox: the function that decodes it, and its address. -/
def State.mbAccess (s : State) (f : Nat) (pf : Bool) (off : Nat) (d : Dev) (k : State → State) : State :=
  let addr := if pf then s.ep.bar0 + 0x40000 + 0x40 * f + off else s.ep.vfBar0 + (f - 1) * 0x10000 + 0x1000 + off
  s.barAccess (if pf then 0 else f) addr 4 true d (fun s => if f = 0 then (s.logRegBy (0x0F, f) addr).reply 0 0 else (k s).reply 0 0)

def execMbSend (f : Fn) (pf : Bool) (d : Dev) (s : State) : Host.Outcome State Fault Refusal :=
  s.ifRuns fun s => (s.mbAccess f.val pf 0x24 d (fun s => s.mbSend pf f.val))

def execMbInFullClear (f : Fn) (pf : Bool) (d : Dev) (s : State) : Host.Outcome State Fault Refusal :=
  s.ifRuns fun s => (s.mbAccess f.val pf 0x20 d (fun s => s.mbTake pf f.val))

/-- Back to the reset values: every register field whose address lies in a range. -/
def State.regsReset (s : State) (lo hi : Nat) : State :=
  { s with regs := s.regs.filter (fun e => decide (e.1 < 64 * lo) || decide (64 * hi ≤ e.1)) }

/-- An FLR of a VF resets its end and empties both slots; the PF0 end sees FLR (R416). -/
def State.mbFlrVf (s : State) (f : Nat) : State :=
  let s := s.regsReset (MBV_OUT_LO.MSG f).addr ((MBV_OUT_LO.MSG f).addr + 0x40)
  let s := ((s.wr (MBP_STS.IN_FULL f) 0).wr (MBP_STS.OUT_BUSY f) 0).raise (MBP_STS.fFLR f)
  (s.mbPend f).mbEvent true f

/-! ### Instance commands (R418 to R421) -/

/-- As `admRun`, for a command that accesses memory: it stays at the head while an access must wait. -/
def State.admRunT (s : State) (f opc : Nat) (k : State → AdmCmd → Option (State × Nat × Nat × Nat)) : State :=
  match (s.q f).ready with
  | some c =>
    if c.opc ≠ opc ∨ c.drop then s
    else
      match k (s.admPop f) c with
      | some r =>
        if s.admFrozen f opc r.2.1 then ((s.admPop f).admSay f ESTATE c.tag 0 0).admGo f
        else (r.1.admSay f r.2.1 c.tag r.2.2.1 r.2.2.2).admGo f
      | none => if s.admFrozen f opc OK then ((s.admPop f).admSay f ESTATE c.tag 0 0).admGo f else s
  | none => s

/-- The VF that an instance command names (R420). -/
def AdmCmd.fn (c : AdmCmd) : Nat := c.w 1 % 4096

/-- The checks that come before the state of the VF (R420, R421). -/
def State.instBad (s : State) (f : Nat) (c : AdmCmd) (bytes : Nat) (bad : Bool) : List (Bool × Nat) :=
  [(f != 0 || s.keyTagBad 0 c, EPERM),
   (c.badHead bytes || c.fn == 0 || c.w 1 / 4096 % 2 ^ 20 != 0 || bad, EINVAL),
   (!s.fnEnabled c.fn, ENODEV)]

def State.instSt (s : State) (f : Nat) : Nat := Tbl.getD s.inst f 0

def State.instFreeze (s : State) (f : Nat) (c : AdmCmd) : State × Option (Nat × Nat × Nat) :=
  let sts := firstBad (s.instBad f c 16 (c.w 1 / 2 ^ 32 != 0) ++ [(s.instSt c.fn != 0, ESTATE)])
  if sts ≠ OK then (s, some (sts, 0, 0)) else ((s.admHold f c.tag (.freeze c.fn)).freezeBegin c.fn, none)

def execInstFreeze (f : Fn) (s : State) : Host.Outcome State Fault Refusal :=
  s.ifRuns fun s => (s.admRunW f.val 0x30 (fun s c => s.instFreeze f.val c))

/-! ### The state image (R422) -/

/-- The rings granted to a VF, ascending. -/
def State.ringsOf (s : State) (f : Nat) : List (Nat × RingCtx) := s.rings.filter (fun p => p.2.fn == f)

/-- The slots bound to a VF, ascending. -/
def State.slotsOf (s : State) (f : Nat) : List (Nat × Slot) := s.slots.filter (fun p => p.2.fn == f)

/-- A slot has a key record. -/
def Slot.recorded (x : Slot) : Bool := x.type != 0 || x.lost

def State.imageLen (s : State) (f : Nat) : Nat :=
  64 + 48 * (s.ringsOf f).length + 8 * ((s.slotsOf f).filter (fun p => p.2.recorded)).length

/-- Numbers side by side: each value with its size in bytes. -/
def packBytes (l : List (Nat × Nat)) : List (BitVec 8) := (l.map (fun p => bytesOf p.1 p.2)).flatten

/-- A ring record. -/
def RingCtx.record (x : RingCtx) (i : Nat) : List (BitVec 8) :=
  packBytes [(i % 2 ^ 20 + (if x.st = 5 then x.saved else x.st) * 2 ^ 20 + x.lg * 2 ^ 24, 4), (x.vec, 2), (x.err, 1),
    (x.bell.toNat + 2 * x.lapSat.toNat, 1), (x.done, 4), (x.piSeen, 4), (x.sq, 8), (x.cq, 8), (x.db, 8), (x.lap, 2), (0, 6)]

/-- A key record. -/
def Slot.record (x : Slot) (i : Nat) : List (BitVec 8) :=
  packBytes [(i, 4), (x.type + x.exp.toNat * 16 + x.scrub.toNat * 32 + x.lost.toNat * 64, 1), (0, 3)]

/-- The engine revision (R338). -/
def tqeRev : Nat := 0x201

/-- The bits of a list of vectors. -/
def vecBits (l : List Nat) : Nat := ((List.range 32).map (fun v => if l.contains v then 2 ^ v else 0)).sum

/-- The image of a VF with a value in its CRC field. -/
def State.imageWith (s : State) (f crc : Nat) : List (BitVec 8) :=
  let rs := s.ringsOf f
  let ks := (List.range (s.slotsOf f).length).filterMap (fun i =>
    match (s.slotsOf f)[i]? with
    | some p => if p.2.recorded then some (p.2.record i) else none
    | none => none)
  let k := Tbl.getD s.classes f (0, 0, 0)
  packBytes [(0x49514554, 4), (1, 1), (0, 1), (s.rd (MBV_STS.IN_FULL f), 2), (tqeRev, 4), (f, 2), (0, 2), (s.imageLen f, 4),
    (rs.length, 4), (ks.length, 4), (crc, 4), (k.1 + k.2.1 * 16 + k.2.2 * 65536, 8), (vecBits (s.fn f).pend, 4), (0, 4),
    (s.rd (MBV_IN_LO.MSG f), 8), (s.rd (MBV_IN_HI.MSG f), 8)] ++
  ((List.range rs.length).map (fun i => (rs.getD i (0, RingCtx.init)).2.record i)).flatten ++ ks.flatten

/-- The CRC32C of bytes (R372, R422). -/
def crc32c (l : List (BitVec 8)) : Nat := (~~~(crcBytes 0xFFFFFFFF#32 l)).toNat

/-- INST_SAVE (R423): the buffer is translated first; the CRC field is written last. -/
def State.instSave (s : State) (f : Nat) (c : AdmCmd) : Option (State × Nat × Nat × Nat) :=
  let n := s.imageLen c.fn
  let buf := c.w 2
  let sts := firstBad (s.instBad f c 32 (c.w 1 / 2 ^ 32 != 0 || buf % 64 != 0 || decide (2 ^ 52 ≤ buf) ||
      decide (2 ^ 32 ≤ c.w 3)) ++
    [(s.instSt c.fn != 2, ESTATE), (decide (c.w 3 < n), ENORES)])
  if sts ≠ OK then some (s, sts, 0, 0)
  else
    match (linePieces buf n).findSome? (fun p => match s.winData 0 (buf + p.1) true false with
      | .inr reason => some (buf + p.1, reason)
      | .inl _ => none) with
    | some (a, reason) => some (s.winMiss 0 a true reason, WINFAULT, 0, 0)
    | none =>
      let crc := crc32c (s.imageWith c.fn 0)
      let img := s.imageWith c.fn crc
      let a := s.markAttr
      let put (j : Job) (off k : Nat) : Job := j.write 0 a (buf + off) k (ofBytes ((img.drop off).take k)) false
      let j := put (put (put s.job 0 0x1C) 0x20 (n - 0x20)) 0x1C 4
      if j.wait then none
      else
        match j.err with
        | some e => some (j.s, e.1, 0, 0)
        | none => some (j.s, OK, n, 0)

def execInstSave (f : Fn) (s : State) : Host.Outcome State Fault Refusal :=
  s.ifRuns fun s => (s.admRunT f.val 0x31 (fun s c => s.instSave f.val c))

/-- n bytes at an offset of an image, as a number. -/
def imgNat (l : List (BitVec 8)) (off n : Nat) : Nat := ofBytes ((l.drop off).take n)

/-- The header names a format that this engine restores (R422, R424). -/
def headerOk (h : List (BitVec 8)) : Bool :=
  imgNat h 0 4 == 0x49514554 && imgNat h 4 1 == 1 && imgNat h 5 1 == 0 && decide (imgNat h 6 2 < 2) &&
    imgNat h 0x0E 2 == 0 && decide (imgNat h 0x14 4 ≤ 1048576) && decide (imgNat h 0x18 4 ≤ 65536) &&
    imgNat h 0x10 4 == 64 + 48 * imgNat h 0x14 4 + 8 * imgNat h 0x18 4 &&
    decide (imgNat h 0x20 8 < 2 ^ 32) && imgNat h 0x20 8 / 2 ^ 6 % 2 ^ 10 == 0 && imgNat h 0x2C 4 == 0

/-- A ring record has legal fields. -/
def ringRecOk (r : List (BitVec 8)) (rings : Nat) : Bool :=
  let w := imgNat r 0 4
  let st := w / 2 ^ 20 % 8
  decide (w % 2 ^ 20 < rings) && (st == 0 || st == 1 || st == 2 || st == 4) && !w.testBit 23 && decide (w < 2 ^ 29) &&
    (st == 0 || (decide (4 ≤ w / 2 ^ 24) && decide (w / 2 ^ 24 ≤ 16))) && decide (imgNat r 4 2 < 32) &&
    decide (imgNat r 7 1 < 4) && imgNat r 0x10 8 % 4096 == 0 && imgNat r 0x18 8 % 4096 == 0 && imgNat r 0x20 8 % 64 == 0 &&
    decide (imgNat r 0x10 8 < 2 ^ 52) && decide (imgNat r 0x18 8 < 2 ^ 52) && decide (imgNat r 0x20 8 < 2 ^ 52) &&
    imgNat r 0x2A 6 == 0

/-- A key record has legal fields. -/
def keyRecOk (r : List (BitVec 8)) : Bool :=
  decide (imgNat r 0 4 < 2 ^ 17) && decide (imgNat r 4 1 % 16 < 7) && decide (imgNat r 4 1 < 128) && imgNat r 5 3 == 0

/-- The image passes the checks of its format (R424). -/
def imageOk (l : List (BitVec 8)) : Bool :=
  let rings := imgNat l 0x14 4
  crc32c (l.take 0x1C ++ [0, 0, 0, 0] ++ l.drop 0x20) == imgNat l 0x1C 4 &&
  (List.range rings).all (fun i => ringRecOk (l.drop (64 + 48 * i)) rings) &&
  (List.range (imgNat l 0x18 4)).all (fun i => keyRecOk (l.drop (64 + 48 * rings + 8 * i)))

/-- The context that a ring record gives, FROZEN (R424). -/
def ringOf (r : List (BitVec 8)) (fn : Nat) (k : Nat × Nat × Nat) : RingCtx :=
  let w := imgNat r 0 4
  let d := imgNat r 8 4
  { RingCtx.init with
    st := 5, saved := w / 2 ^ 20 % 8, lg := w / 2 ^ 24, fn := fn, pcls := k.1, qos := k.2.1, mtag := k.2.2,
    vec := imgNat r 4 2, err := imgNat r 6 1, bell := (imgNat r 7 1).testBit 0, lapSat := (imgNat r 7 1).testBit 1,
    fetch := d, fetchDup := d, done := d, doneDup := d, piSeen := imgNat r 0x0C 4, sq := imgNat r 0x10 8,
    cq := imgNat r 0x18 8, db := imgNat r 0x20 8, lap := imgNat r 0x28 2 }

/-- Load an image into a VF (R424). -/
def State.imageLoad (s : State) (f : Nat) (l : List (BitVec 8)) : State :=
  let v := imgNat l 0x20 8
  let k := (v % 16, v / 16 % 4, v / 65536)
  let ids := (s.ringsOf f).map (fun p => p.1)
  let s := (List.range ids.length).foldl (fun s i =>
    let r := l.drop (64 + 48 * i)
    s.setRing (ids.getD (imgNat r 0 4 % 2 ^ 20) 0) (ringOf r f k)) s
  let s := { s with classes := Tbl.put s.classes f (0, 0, 0) k, inst := Tbl.put s.inst f 0 2 }
  let s := s.setFn f { s.fn f with pend := (List.range 32).filter (fun b => (imgNat l 0x28 4).testBit b) }
  ((s.wr (MBV_IN_LO.MSG f) (imgNat l 0x30 8)).wr (MBV_IN_HI.MSG f) (imgNat l 0x38 8)).wr (MBV_STS.IN_FULL f)
    (imgNat l 6 2)

/-- INST_RESTORE (R424). -/
def State.instRestore (s : State) (f : Nat) (c : AdmCmd) : Option (State × Nat × Nat × Nat) :=
  let buf := c.w 2
  let sts := firstBad (s.instBad f c 32 (c.w 1 / 2 ^ 32 != 0 || buf % 64 != 0 || decide (2 ^ 52 ≤ buf) ||
      decide (2 ^ 32 ≤ c.w 3)))
  if sts ≠ OK then some (s, sts, 0, 0)
  else
    let a := s.markAttr
    let fail (j : Job) : Option (State × Nat × Nat × Nat) := some (j.s, (j.outcome (OK, 0)).1, 0, 0)
    let h := s.job.gather 0 a buf 64
    if h.1.wait then none
    else if h.1.err.isSome ∨ h.1.psn.isSome then fail h.1
    else if headerOk h.2.1 = false then some (h.1.s, EINVAL, 0, 0)
    else
      let g := h.1.gather 0 a (buf + 64) (imgNat h.2.1 0x10 4 - 64)
      let img := h.2.1 ++ g.2.1
      let s := g.1.s
      let rs := s.ringsOf c.fn
      let sts := firstBad [
        (!imageOk img, EINVAL),
        (s.instSt c.fn != 0 || rs.any (fun p => p.2.st != 0) || rs.length != imgNat img 0x14 4 ||
          decide ((s.slotsOf c.fn).length < imgNat img 0x18 4), ESTATE),
        (decide (c.w 3 < imgNat img 0x10 4), ENORES)]
      if g.1.wait then none
      else if g.1.err.isSome ∨ g.1.psn.isSome then fail g.1
      else if sts ≠ OK then some (s, sts, 0, 0)
      else some (s.imageLoad c.fn img, OK, 0, 0)

def execInstRestore (f : Fn) (s : State) : Host.Outcome State Fault Refusal :=
  s.ifRuns fun s => (s.admRunT f.val 0x32 (fun s c => s.instRestore f.val c))

/-- A FROZEN ring takes its saved state again (R419). An ACTIVE ring's doorbell line that has no usable translation, or
that another octet watches, cannot be read. -/
def State.ringThaw (s : State) (r : Nat) : State :=
  let x := s.ring r
  if x.st ≠ 5 then s
  else if x.saved ≠ 2 then s.setRing r { x with st := x.saved, saved := 0 }
  else
    let s := s.setRing r { x with st := 2, saved := 0 }
    match s.winData x.fn x.db false false with
    | .inr reason => (s.winMiss x.fn x.db false reason).ringError r 0x47
    | .inl pa =>
      if (match Tbl.get? s.watch (pa / 64) with | some w => w.octet != r / 8 | none => false) then s.ringError r 0x47
      else (s.setRing r { s.ring r with phys := pa / 64 }).bellArm r (pa / 64)

def State.instResume (s : State) (f : Nat) (c : AdmCmd) : State × Nat × Nat × Nat :=
  let sts := firstBad (s.instBad f c 16 (c.w 1 / 2 ^ 32 != 0) ++ [(s.instSt c.fn != 2, ESTATE)])
  if sts ≠ OK then (s, sts, 0, 0)
  else
    let s := { s with inst := Tbl.put s.inst c.fn 0 0 }
    let s := (s.ringsOf c.fn).foldl (fun s p => s.ringThaw p.1) s
    (((s.fn c.fn).pend.foldl (fun s v => s.msixTry c.fn v) s).admGo c.fn, OK, 0, 0)

def execInstResume (f : Fn) (s : State) : Host.Outcome State Fault Refusal :=
  s.ifRuns fun s => (s.admRun f.val 0x33 (fun s c => s.instResume f.val c))

/-! ### Dirty logging (R426 to R428) -/

def State.logging (s : State) (f : Nat) : Bool := (Tbl.get? s.dirty f).any (fun d => d.on)

def State.dirtyStart (s : State) (f : Nat) (c : AdmCmd) : State × Nat × Nat × Nat :=
  let pages := c.w 1 / 2 ^ 32
  let sts := firstBad (s.instBad f c 32 (pages == 0 || c.w 2 % 4096 != 0 || decide (2 ^ 52 ≤ c.w 2) ||
    decide (2 ^ 52 ≤ c.w 3)) ++ [(s.logging c.fn, ESTATE)])
  if sts ≠ OK then (s, sts, 0, 0)
  else ({ s with dirty := Tbl.set s.dirty c.fn ⟨true, c.w 2, pages, c.w 3, false, []⟩ }, OK, 0, 0)

def execDirtyStart (f : Fn) (s : State) : Host.Outcome State Fault Refusal :=
  s.ifRuns fun s => (s.admRun f.val 0x34 (fun s c => s.dirtyStart f.val c))

/-- Every mark has been answered when DIRTY_SYNC or DIRTY_STOP is: marks are made with the writes they record; the filter is
emptied. LOG_OVF stays until logging starts again. -/
def State.dirtySync (s : State) (f : Nat) (c : AdmCmd) (stop : Bool) : State × Nat × Nat × Nat :=
  let sts := firstBad (s.instBad f c 16 (c.w 1 / 2 ^ 32 != 0) ++ [(!s.logging c.fn, ESTATE)])
  if sts ≠ OK then (s, sts, 0, 0)
  else
    match Tbl.get? s.dirty c.fn with
    | some d => ({ s with dirty := Tbl.set s.dirty c.fn { d with filter := [], on := !stop } }, OK, 0, 0)
    | none => (s, OK, 0, 0)

def execDirtySync (f : Fn) (s : State) : Host.Outcome State Fault Refusal :=
  s.ifRuns fun s => (s.admRun f.val 0x35 (fun s c => s.dirtySync f.val c false))

def execDirtyStop (f : Fn) (s : State) : Host.Outcome State Fault Refusal :=
  s.ifRuns fun s => (s.admRun f.val 0x36 (fun s c => s.dirtySync f.val c true))

def State.instQuery (s : State) (f : Nat) (c : AdmCmd) : State × Nat × Nat × Nat :=
  let sts := firstBad (s.instBad f c 16 (c.w 1 / 2 ^ 32 != 0))
  if sts ≠ OK then (s, sts, 0, 0)
  else
    (s, OK, s.instSt c.fn + (s.logging c.fn).toNat * 4 + ((Tbl.get? s.dirty c.fn).any (fun d => d.ovf)).toNat * 8,
      s.imageLen c.fn)

def execInstQuery (f : Fn) (s : State) : Host.Outcome State Fault Refusal :=
  s.ifRuns fun s => (s.admRun f.val 0x37 (fun s c => s.instQuery f.val c))

end Sys2Proof.Machine
end

