-- ==== Sys2Proof/Machine/TqeEndpoint.lean ====
section
/-!
DEFINITION. The TQE as an endpoint: Bus Master Enable (R358, R359), Function Level Reset (R360 to R362), MSI-X control
(R345 to R347), the window table and its fence (R352 to R354), and peer traffic (R350).
-/
namespace Sys2Proof.Machine

/-! ### Bus Master Enable (R358, R359) -/

/-- The function issues no new request: outstanding reads are marked for discard, and work that has not been committed is
abandoned. -/
def State.stopIssue (s : State) (f : Nat) : State :=
  let s := { s with
    watch := s.watch.map (fun (e : Nat × Watch) =>
      if e.2.fn ≠ f then e
      else if e.2.got.isSome then (e.1, { e.2 with got := none, reading := false, rung := true })
      else if e.2.reading then (e.1, { e.2 with discard := true })
      else e)
    pieces := if f = 0 then
        s.pieces.map (fun (p : Piece) => if p.sent && p.out.opc == Opc.rdOnce then { p with discard := true } else p)
      else s.pieces
    runs := s.runs.map (fun (p : Nat × List Run) =>
      if (s.ring p.1).fn ≠ f then p
      else (p.1, p.2.map (fun (x : Run) => { x with mover := none, lane := none, key := 0, fin := none }))) }
  s.laneNext.eraseCheck

def State.bmeClear (s : State) (f : Nat) : State :=
  if (s.fn f).bme = false then s else (s.setFn f { s.fn f with bme := false }).stopIssue f

def execBmeClear (f : Fn) (s : State) : Host.Outcome State Fault Refusal := s.ifRuns fun s => (s.bmeClear f.val)

/-- Work goes on: doorbells rung meanwhile are read (R358, R381), pending messages sent (R359), peer pieces issued. -/
def State.resumeIssue (s : State) (f : Nat) : State :=
  let s := s.watch.foldl (fun (s : State) (e : Nat × Watch) =>
    if e.2.fn = f ∧ e.2.rung = true then s.bellRead e.1 else s) s
  let s := (s.fn f).pend.foldl (fun s v => s.msixTry f v) s
  if f = 0 then s.piecesGo else s

def State.bmeSet (s : State) (f : Nat) : State :=
  if (s.fn f).bme then s else (s.setFn f { s.fn f with bme := true }).resumeIssue f

def execBmeSet (f : Fn) (s : State) : Host.Outcome State Fault Refusal := s.ifRuns fun s => (s.bmeSet f.val)

/-! ### Function Level Reset (R360 to R362) -/

/-- A command queue is emptied without answers (R389): a command that the wrap engine holds ends with it. -/
def State.queueDrop (s : State) (f : Nat) : State :=
  let s := match (s.q f).busy with
    | some (_, .wrap true slot _ _ _ _ _ _) => s.setSlot slot { s.slot slot with filling := false }
    | _ => s
  { s with kwq := s.kwq.filter (fun g => g != f) }.setQ f AdmQ.init

/-- Rings are disabled and cleared: their doorbell shares go, and a RING_DISABLE of PF0 that waits is answered. -/
def State.ringsClear (s : State) (p : Nat → RingCtx → Bool) : State :=
  let mine := s.rings.filter (fun e => p e.1 e.2)
  let s := mine.foldl (fun s e =>
    ((s.setRing e.1 { RingCtx.init with fn := e.2.fn }).setRuns e.1 []).bellRelease (e.1 / 8)) s
  mine.foldl (fun s e => (s.disablers e.1).foldl (fun s f => s.admDone f OK e.2.done 0) s) s

/-- FGEN advances (R360). -/
def State.fgenNext (s : State) (f : Nat) : State :=
  let v := (s.fn f).fgen
  let v' := (v + 1) % 4
  (s.setFn f { s.fn f with fgen := v' }).bell 2 v v' TQE_FGEN_LAP.LAP TQE_FGEN_LAP.LAP_SAT TQE_STS.fFGEN_BELL

/-- The state that the FLR of a function resets in the same way for PF0 and a VF (R361, R398, R417, R427). -/
def State.flrCommon (s : State) (f : Nat) : State :=
  let s := ((s.setFn f { s.fn f with bme := false }).stopIssue f).queueDrop f
  let s := s.ringsClear (fun _ x => x.fn == f)
  let s := s.fgenNext f
  let x := s.fn f
  let s := s.setFn f { FnSt.init with fgen := x.fgen, flr := some s.now.toNat, aer := x.aer }
  let s := (s.slots.filter (fun e => e.2.fn == f)).foldl (fun (s : State) (e : Nat × Slot) =>
    (s.setSlot e.1 { Slot.init with filling := e.2.filling }).cancelFill e.1) s
  let s := { s with dirty := Tbl.erase s.dirty f, inst := Tbl.put s.inst f 0 0 }
  (if (s.q 0).busy.any (fun b => b.2 == .freeze f) then s.admEnd 0 ESTATE 0 0 else s).eraseCheck

/-- An FLR of a VF. -/
def State.flrVf (s : State) (f : Nat) : State := (s.flrCommon f).mbFlrVf f

/-- Refuse a piece that has not been issued: a read is answered Unsupported Request, a posted piece is dropped. -/
def State.pieceRefuse (s : State) (m : Msg) : State :=
  if m.opc = .rdOnce then s.launch { m.reply .dataOnce with data := onesLine } else s.launch (m.reply .wrAck)

/-- An FLR of PF0: every VF is reset, and PF0's own tables (R361, R362). -/
def State.flrPf (s : State) : State :=
  let s := (List.range s.ep.numVfs).foldl (fun s i => if s.fnEnabled (i + 1) then s.flrVf (i + 1) else s) s
  let idle := s.pieces.filter (fun p => !p.sent)
  let s := idle.foldl (fun s p => s.pieceRefuse p.orig) { s with pieces := s.pieces.filter (fun p => p.sent) }
  let s := s.flrCommon 0
  let s := { s with
    rings := []
    winStage := none
    ep := { s.ep with bar0 := 0, bar2 := 0, bar4 := 0, vfBar0 := 0, vfEn := false, vfMse := false, numVfs := 0, ari := false, overlap := false }
    regs := s.regs.filter (fun e =>
      !(decide (64 * 0x10000100000 ≤ e.1) && decide (e.1 < 64 * 0x10000200000) && e.1 % (64 * 16) == 0)) }
  let s := s.slotsErase false (fun _ => true)
  let left := s.1.slots.filter (fun (e : Nat × Slot) => e.2.filling)
  let s := { s.1 with slots := left.map (fun (e : Nat × Slot) => (e.1, { Slot.init with filling := true })) }
  let s := ((s.regsReset (TQE_FNWIN.COUNT 0).addr ((TQE_FNWIN.COUNT 0).addr + 0x8000)).regsReset TQE_INTX.EVENT.addr
    (TQE_INTX.EVENT.addr + 1)).regsReset TQE_INTX.fEVENT.cnt.addr (TQE_INTX.fEVENT.cnt.addr + 1)
  let s := ((s.regsReset TQE_ADM_STS.OVF.addr (TQE_ADM_STS.OVF.addr + 1)).regsReset 0x10000010080 0x10000010098)
  -- every mailbox (R416): the PF0 ends, the VF ends, and TQE_MBPEND
  let s := (s.regsReset 0x10000040000 0x10000080000).regsReset 0x10000001000 0x10000001200
  let s := { s with regs := s.regs.filter (fun e => !(decide (64 * 0x20000000000 ≤ e.1) &&
    decide (0x1000 ≤ e.1 / 64 % 0x10000) && decide (e.1 / 64 % 0x10000 < 0x1040))) }
  let s := s.wr TQE_CTL.EP_FWD TQE_CTL.EP_FWD.rst
  let s := if s.on TQE_CTL.LOCK then s else s.wr TQE_CTL.BAR4_LOG2 TQE_CTL.BAR4_LOG2.rst
  s.intaSync

def State.flr (s : State) (f : Nat) : State := if f = 0 then s.flrPf else s.flrVf f

def execFlr (f : Fn) (s : State) : Host.Outcome State Fault Refusal := s.ifRuns fun s => (s.flr f.val)

/-- A request of a function carries a generation. -/
def State.fgenUsed (s : State) (f g : Nat) : Bool :=
  s.strays.any (fun x => x.fn == f && x.fgen == g) || (f == 0 && s.pieces.any (fun p => p.fgen == g)) ||
    s.watch.any (fun e => e.2.fn == f && e.2.reading && e.2.got.isNone)

/-- The FLR completes once no request carries the new generation, or after 50 ms (R362). -/
def State.flrDone (s : State) (f : Nat) : State :=
  match (s.fn f).flr with
  | some t =>
    if s.fgenUsed f (s.fn f).fgen = false ∨ 50000000 ≤ s.now.toNat - t then s.setFn f { s.fn f with flr := none } else s
  | none => s

def execFlrComplete (f : Fn) (s : State) : Host.Outcome State Fault Refusal := s.ifRuns fun s => (s.flrDone f.val)

/-! ### MSI-X control (R345, R347) -/

def State.msixEnable (s : State) (f : Nat) : State :=
  let s := s.setFn f { s.fn f with msixEn := true }
  let s := (s.fn f).pend.foldl (fun s v => s.msixTry f v) s
  if f = 0 then s.intaSync else s

def execMsixEnableSet (f : Fn) (s : State) : Host.Outcome State Fault Refusal := s.ifRuns fun s => (s.msixEnable f.val)

/-- A vector, or the function, is unmasked: its pending message is sent. -/
def State.msixUnmask (s : State) (f : Nat) (v : Option Nat) : State :=
  let x := s.fn f
  match v with
  | some v =>
    if (if f = 0 then 2048 else 32) ≤ v then s
    else
      (s.setFn f { x with table := Tbl.put x.table v ⟨0, 0, true⟩ { x.entry v with mask := false } }).msixTry f v
  | none =>
    let s := s.setFn f { x with msixMask := false }
    x.pend.foldl (fun s v => s.msixTry f v) s

def execMsixVectorUnmask (f : Fn) (v : Option (BitVec 11)) (s : State) : Host.Outcome State Fault Refusal :=
  s.ifRuns fun s => (s.msixUnmask f.val (v.map (fun v => v.toNat)))

/-! ### The window table (R348, R352) -/

/-- The system address of a half of a window entry. -/
def State.winAddr (s : State) (n : Nat) (hi : Bool) : Nat := s.ep.bar0 + 0x100000 + 16 * n + hi.toNat * 8

def State.winLow (s : State) (n v : Nat) : State := { s with winStage := some (n, v) }

/-- The low half of an entry as it stands. -/
def State.winLowNow (s : State) (n : Nat) : Nat :=
  s.rd (TQE_WIN.EN n) + s.rd (TQE_WIN.PR n) * 4 + s.rd (TQE_WIN.PW n) * 8 + s.rd (TQE_WIN.MT n) * 16 +
    s.rd (TQE_WIN.GRAN n) * 32 + s.rd (TQE_WIN.ID n) * 2 ^ 12 + s.rd (TQE_WIN.SIZE n) * 2 ^ 28 +
    s.rd (TQE_WIN.IBASE n) % 65536 * 2 ^ 48

/-- The high half replaces the whole entry with the staged low half, or the present one, and empties the staging register.
MT 1 in a peer window leaves MT unchanged; an enabled entry that never matches is logged (R348, R352). -/
def State.winHigh (s : State) (n v : Nat) : State :=
  let lo := match s.winStage with
    | some (k, w) => if k = n then w else s.winLowNow n
    | none => s.winLowNow n
  let w := lo + v * 2 ^ 64
  let badMt := decide (65280 ≤ n) && lo.testBit 4
  let mt := if badMt then s.rd (TQE_WIN.MT n) else lo / 16
  let s := { s with winStage := none }
  let s := ((((s.wr (TQE_WIN.EN n) lo).wr (TQE_WIN.PR n) (lo / 4)).wr (TQE_WIN.PW n) (lo / 8)).wr (TQE_WIN.MT n) mt).wr
    (TQE_WIN.GRAN n) (lo / 32)
  let s := (((s.wr (TQE_WIN.ID n) (w / 2 ^ 12)).wr (TQE_WIN.SIZE n) (w / 2 ^ 28)).wr (TQE_WIN.IBASE n) (w / 2 ^ 48)).wr
    (TQE_WIN.OBASE n) (w / 2 ^ 88)
  let s := if badMt then s.logRegBy (0x0F, 0) (s.winAddr n true) else s
  if s.on (TQE_WIN.EN n) = true ∧ s.winLen n = 0 then s.logRegBy (0x0F, 0) (s.winAddr n true) else s

def execTqeWinLowWrite (n : BitVec 16) (v : BitVec 64) (d : Dev) (s : State) : Host.Outcome State Fault Refusal :=
  s.ifRuns fun s => (s.barAccess 0 (s.winAddr n.toNat false) 8 true d (fun s => (s.winLow n.toNat v.toNat).reply 0 0))

def execTqeWinHighWrite (n : BitVec 16) (v : BitVec 64) (d : Dev) (s : State) : Host.Outcome State Fault Refusal :=
  s.ifRuns fun s => (s.barAccess 0 (s.winAddr n.toNat true) 8 true d (fun s => (s.winHigh n.toNat v.toNat).reply 0 0))

/-! ### The window fence (R353): the accesses of a descriptor end with their own command, so that pieces and doorbell reads
alone can be pending -/

/-- The doorbell lines whose read is on its way. -/
def State.bellsOut (s : State) : List Nat :=
  (s.watch.filter (fun p => p.2.reading && p.2.got.isNone)).map (fun p => p.1) ++ s.strays.map (fun x => x.line)

def State.fenceRead (s : State) : State :=
  { s with fence := s.fence ++ [⟨s.pieces.map (fun p => p.id), s.bellsOut, s.now.toNat, none⟩] }

def execTqeWinFenceRead (d : Dev) (s : State) : Host.Outcome State Fault Refusal :=
  s.ifRuns fun s => (s.barAccess 0 (s.ep.bar0 + 0x20) 4 false d State.fenceRead)

/-- The wait limit of a fence read, in nanoseconds. -/
def State.fenceLimit (s : State) : Nat := min 10000 (s.rd MESH_RQ_TMO.TMO_US * 500)

/-- The oldest fence read returns: when every access it waits for has completed, or at its limit. -/
def State.fenceReturn (s : State) : State :=
  match s.fence with
  | [] => s
  | x :: l =>
    let n := (s.pieces.filter (fun p => x.ids.contains p.id)).length + x.lines.length
    if n ≠ 0 ∧ s.now.toNat - x.since < s.fenceLimit then s
    else
      let done := decide (n = 0)
      let s := ({ s with fence := l }.wr TQE_WIN_FENCE.DONE done.toNat).wr TQE_WIN_FENCE.PENDING (min n 0xFFFF)
      let v := done.toNat * 2 ^ 31 + min n 0xFFFF
      let s := s.reply 0 v
      match x.rq with
      | some m => (s.returnCredit m).answer m .dataOnce 0 (BitVec.ofNat 512 (v % 2 ^ (8 * 2 ^ m.size.toNat) * 2 ^ (8 * m.low.toNat))) false
      | none => s

def execTqeWinFenceReturn (s : State) : Host.Outcome State Fault Refusal := s.ifRuns fun s => s.fenceReturn

/-! ### Peer traffic (R350) -/

/-- The output address of a peer piece at an offset of BAR4, or the reason that it has none. -/
def State.winPeer (s : State) (rid off : Nat) (wr : Bool) : Sum Nat Nat :=
  match (List.range 256).find? (fun i =>
      (s.rd (TQE_WIN.ID (65280 + i)) == rid || s.rd (TQE_WIN.ID (65280 + i)) == 0xFFFF) && s.winHit (65280 + i) off) with
  | none => .inr 0
  | some i =>
    let n := 65280 + i
    let o := s.rd (TQE_WIN.OBASE n) * 4096 + (off - s.rd (TQE_WIN.IBASE n) * 4096)
    if s.on (if wr then TQE_WIN.PW n else TQE_WIN.PR n) = false then .inr 1
    else if (regionOf o).isMem then .inl o
    else .inr 2

/-- Set bits of a function's AER uncorrectable error status. -/
def State.setAer (s : State) (f b : Nat) : State :=
  s.setFn f { s.fn f with aer := (s.fn f).aer ||| 2 ^ b }

/-- The AER bits of the PCI Express base specification. -/
def aerPoisoned : Nat := 12
def aerTimeout : Nat := 14
def aerUnsupported : Nat := 20

/-- A piece of an inbound request of requester `rid` reaches the TQE. -/
def State.peerPiece (s : State) (m : Msg) (rid : Nat) : State :=
  s.deliver m (fun s m =>
    let wr := decide (m.opc ≠ .rdOnce)
    let off := m.line.toNat * 64 - s.ep.bar4
    let s := if wr && m.poison then s.setAer 0 aerPoisoned else s
    let on := s.fnMse 0 && s.fnBme 0 && (s.fn 0).flr.isNone
    match (if on then s.winPeer rid off wr else .inr 0) with
    | .inr reason =>
      let s := s.winLog rid true wr reason off
      let s := if wr then s.raise TQE_STS.fPEERDROP else (s.raise TQE_STS.fPEERUR).setAer 0 aerUnsupported
      s.pieceRefuse m
    | .inl pa =>
      let opc := if wr then (if m.be = BitVec.allOnes 64 then Opc.wrFull else .wrPart) else .rdOnce
      let out : Msg := { homeReq opc tqeStop (pa / 64) m.attr with be := m.be, data := m.data, poison := m.poison }
      let p : Piece := ⟨s.pieceSeq, rid, m, out, false, false, (s.fn 0).fgen⟩
      State.piecesGo { s with pieceSeq := s.pieceSeq + 1, pieces := s.pieces ++ [p] })

def execPeerPiece (m : Msg) (rid : BitVec 16) (s : State) : Host.Outcome State Fault Refusal :=
  s.ifRuns fun s => (s.peerPiece m rid.toNat)

/-! ### Completion timeout (R340, R358) -/

/-- A read of the TQE has waited 50 ms: it is over, CPLTMO is set, and its data, should it still come, is stray. -/
def State.cplTimeout (s : State) (line : Nat) : State :=
  let end_ (s : State) (f : Nat) : State := ((s.raise TQE_STS.fCPLTMO).setAer f aerTimeout).fenceGot line
  match s.strays.find? (fun x => x.line == line) with
  | some x => end_ { s with strays := s.strays.erase x } x.fn
  | none =>
    match s.pieces.find? (fun p => p.sent && p.out.opc == .rdOnce && p.out.line.toNat == line) with
    | some p =>
      let s := end_ { s with pieces := s.pieces.filter (fun (q : Piece) => q.id != p.id) } 0
      (if p.discard ∨ p.fgen ≠ (s.fn 0).fgen then s
       else s.launch { p.orig.reply .dataOnce with data := onesLine, poison := true, sts := 4 }).piecesGo
    | none =>
      match Tbl.get? s.watch line with
      | some w =>
        if w.reading = false ∨ w.got.isSome = true then s
        else if w.discard then (end_ (s.setWatch line { w with reading := false, discard := false }) w.fn).bellRead line
        else end_ (s.setWatch line { w with got := some (0, true, 4) }) w.fn
      | none => s

def execTqeCompletionTimeout (line : LineAddr) (s : State) : Host.Outcome State Fault Refusal :=
  s.ifRuns fun s => (s.cplTimeout line.toNat)

end Sys2Proof.Machine
end

