-- ==== Sys2Proof/Machine/Faults.lean ====
section
/-!
DEFINITION. Error records and what they lead to: ERR's queues, coalescing, its two paths (R506 to R513), ring alarms
(R514), QUARANTINE (R498, R499), the start of a photo-finish (R546, R547), and a domain that loses power (R457 to R460).
-/
namespace Sys2Proof.Machine

/-- The package changes mode; the mode it leaves is kept (R37, R38). -/
def State.setMode (s : State) (m : Nat) : State :=
  (s.wr HUB_PKG_MODE.PREV_MODE s.pkgMode).wr HUB_PKG_MODE.PKG_MODE m

/-- A write of a PRS register: refused unless its sender passes the check of R322; `secure` marks the registers that need
WORLD 1 and ENC 0. -/
def State.prsWrite (s : State) (d : Dev) (off n : Nat) (secure : Bool) (k : State → State) : State :=
  if d.attr.enc ≠ 0 ∨ (secure = true ∧ d.attr.world = false) then s.devRefused d (prsAddr off) n true
  else k (s.reply 0 0)

/-! ### The relay port sends (R521, R535) -/

/-- The port takes the next SEQ. -/
def State.rlySeq (s : State) : State := s.advance RLY_SEQ.SEQ RLY_SEQ.LAP RLY_SEQ.LAP_SAT RLY_STS.fSEQ_BELL

/-- Something leaves on RLY_OUT while the port is ACTIVE (R518). -/
def State.rlyOut (s : State) (x : RingOut) : State :=
  if s.rd RLY_POS.STATE = 2 then { s with rly := { s.rly with out := s.rly.out ++ [x] } } else s

/-- The port sends a frame of its own: SRC, SEQ and EPOCH are its own (R521). -/
def State.rlySend (s : State) (cls code dst tag : Nat) (ans : Bool) (sts : Nat) (payload : List (BitVec 8)) : State :=
  if s.rd RLY_POS.STATE ≠ 2 then s
  else
    (s.rlyOut (.frame {
      cls := BitVec.ofNat 3 cls, code := BitVec.ofNat 5 code, dst := BitVec.ofNat 8 dst,
      src := BitVec.ofNat 8 (s.rd RLY_POS.POS), hops := 0, seq := BitVec.ofNat 16 (s.rd RLY_SEQ.SEQ),
      tag := BitVec.ofNat 16 tag, auth := false, ans := ans, sts := BitVec.ofNat 8 sts,
      epoch := BitVec.ofNat 8 (s.rd RLY_POS.EPOCH), payload := payload, mac := 0, badCrc := false })).rlySeq

/-! ### Records (R506) -/

def Sev.num : Sev → Nat
  | .info => 0 | .corr => 1 | .error => 2 | .fatal => 3

def RecKind.num : RecKind → Nat
  | .single => 0 | .first => 1 | .last => 2 | .lost => 3

/-- The eight words of a record. -/
def ErrRec.words (r : ErrRec) : List Nat :=
  [r.sev.num + r.kind.num * 4 + r.code % 256 * 2 ^ 8 + r.unit % 256 * 2 ^ 16 + r.sts % 256 * 2 ^ 24 + r.seq % 2 ^ 32 * 2 ^ 32,
   r.time % 2 ^ 64,
   (match r.addr with
    | some a => a % 2 ^ 52 + 2 ^ 52
    | none => 0) + r.world.toNat * 2 ^ 53 + r.enc % 1024 * 2 ^ 54,
   r.inst % 65536 + r.mtag % 65536 * 2 ^ 16 + min r.count 0xFFFFFFFF * 2 ^ 32,
   r.lap % 65536 + r.src % 64 * 2 ^ 16,
   r.detail.getD 0 0 % 2 ^ 64, r.detail.getD 1 0 % 2 ^ 64, r.detail.getD 2 0 % 2 ^ 64]

/-- The 64 bytes of a record as a line. -/
def ErrRec.line (r : ErrRec) : LineData := BitVec.ofNat 512 (r.words.foldr (fun w v => w + 2 ^ 64 * v) 0)

/-! ### The log FIFO (R512, R513) -/

/-- The FIFO's registers show its state, and the sources follow (R513, R516). -/
def State.errSync (s : State) : State :=
  let q := s.err.fifo
  let has (v : Sev) : Nat := (q.any (fun r => r.sev == v)).toNat
  let s := (((((s.wr ERR_FIFO_STS.COUNT q.length).wr ERR_FIFO_STS.EMPTY q.isEmpty.toNat).wr ERR_FIFO_STS.PEND_FATAL
    (has .fatal)).wr ERR_FIFO_STS.PEND_ERR (has .error)).wr ERR_FIFO_STS.PEND_CORR (has .corr))
  let ws := match q with
    | r :: _ => r.words
    | [] => s.err.last
  let s := (List.range 8).foldl (fun s i => s.wr (ERR_FIFO_OUT.WORD i) (ws.getD i 0)) s
  ((s.srcSync 49).srcSync 50).srcSync 51

def State.setErr (s : State) (e : ErrSt) : State := { s with err := e }

/-- A loss grows by one record. -/
def Loss.add (l : Option Loss) (r : ErrRec) : Loss :=
  let l := l.getD ⟨0, r.seq, r.seq, 0, 0, 0, 0⟩
  let b := l.by_
  let up (n : Nat) (v : Sev) : Nat := if r.sev = v then min (n + 1) 0xFFFF else n
  ⟨l.n + 1, l.first, r.seq, up b.1 .info, up b.2.1 .corr, up b.2.2.1 .error, up b.2.2.2 .fatal⟩

/-- The LOST record of a loss (R508, R509, R512). -/
def State.lostRec (s : State) (l : Loss) : ErrRec :=
  let b := l.by_
  let v : Sev := if b.2.2.2 ≠ 0 then .fatal else if b.2.2.1 ≠ 0 then .error else if b.2.1 ≠ 0 then .corr else .info
  { rec0 v 0x0D 0 0xCF with
    kind := .lost, time := s.now.toNat, count := l.n, seq := l.first, lap := s.rd ERR_SEQ.LAP
    detail := [l.last, b.1 + b.2.1 * 2 ^ 16 + b.2.2.1 * 2 ^ 32 + b.2.2.2 * 2 ^ 48] }

/-- The FIFO has room for a record (R512). -/
def State.fifoRoom (s : State) (v : Sev) : Bool :=
  decide (s.err.fifo.length < if v = .fatal then 256 else 240)

/-- With room for it, the FIFO takes the LOST record of its loss. -/
def State.fifoFlush (s : State) : State :=
  match s.err.fifoLoss with
  | some l =>
    let r := s.lostRec l
    if s.fifoRoom r.sev then s.setErr { s.err with fifo := s.err.fifo ++ [r], fifoLoss := none } else s
  | none => s

/-- The FIFO takes a record, or loses it. -/
def State.fifoTake (s : State) (r : ErrRec) : State :=
  let s := s.fifoFlush
  if s.fifoRoom r.sev then (s.setErr { s.err with fifo := s.err.fifo ++ [r] }).errSync
  else
    let s := s.setErr { s.err with fifoLoss := some (Loss.add s.err.fifoLoss r) }
    ((s.wr ERR_LOST.FIFO (min (s.rd ERR_LOST.FIFO + 1) 0xFFFFFFFF)).raise ERR_STS.fFIFO_LOST).errSync

/-- A read of ERR_FIFO_OUT 7 pops the head (R513). -/
def State.fifoPop (s : State) : State :=
  match s.err.fifo with
  | [] => s.raise ERR_STS.fUNDERRUN
  | r :: rs => ((s.setErr { s.err with fifo := rs, last := r.words }).fifoFlush).errSync

/-! ### The memory error ring (R512) -/

def State.errFill (s : State) : Nat := (s.rd ERR_RING_PI.PI + 2 ^ 32 - s.rd ERR_RING_CI.CI) % 2 ^ 32

def State.ringRoom (s : State) (v : Sev) : Bool :=
  let n := 2 ^ s.rd ERR_RING.LOG2SZ
  if v = .fatal then decide (s.errFill < n) else decide (16 * s.errFill < 15 * n)

/-- The attributes of ring writes. -/
def errAttr (w : Bool) : Attr := ⟨w, 0, 0, 0, 0⟩

/-- Write one record to the ring; none where its line is at work. -/
def State.ringPut (s : State) (r : ErrRec) : Option State :=
  let i := s.rd ERR_RING_PI.PI % 2 ^ s.rd ERR_RING.LOG2SZ
  (s.dmaWrite errStop (s.rd ERR_RING.BASE * 64 + i) (errAttr (s.on ERR_CTL.WORLD)) fullBe r.line false false).map (fun p =>
    if 2 ≤ p.2 then ((p.1).wr ERR_CTL.RING_EN 0).raise ERR_STS.fRINGERR
    else
      let v := s.rd ERR_RING_PI.PI
      let t := p.1
      { t.wr ERR_RING_PI.PI (v + 1) with
        err := { t.err with piLap := t.err.piLap.moved 32 v ((v + 1) % 2 ^ 32) } })

/-- With room for it, the ring takes the LOST record of its loss. -/
def State.ringFlush (s : State) : Option State :=
  match s.err.ringLoss with
  | some l =>
    let r := s.lostRec l
    if s.on ERR_CTL.RING_EN && s.ringRoom r.sev then
      (s.ringPut r).map (fun s => s.setErr { s.err with ringLoss := none })
    else some s
  | none => some s

/-- The ring loses a record. -/
def State.ringLose (s : State) (r : ErrRec) : State :=
  let s := s.setErr { s.err with ringLoss := some (Loss.add s.err.ringLoss r) }
  (s.wr ERR_LOST.RING (min (s.rd ERR_LOST.RING + 1) 0xFFFFFFFF)).raise ERR_STS.fRING_LOST

/-- The ring takes a record, or loses it. -/
def State.ringTake (s : State) (r : ErrRec) : Option State :=
  if s.on ERR_CTL.RING_EN = false then some s
  else
    match s.ringFlush with
    | none => none
    | some s =>
      if s.on ERR_CTL.RING_EN = false then some s
      else if s.ringRoom r.sev then s.ringPut r
      else some (s.ringLose r)

/-! ### Ring alarms (R514, R532) -/

/-- Send the alarm frame of a record, with the alarms not sent since the last one. -/
def State.alarmSend (s : State) (r : ErrRec) : State :=
  let bytes := ((r.words.take 4).map (fun w => bytesOf w 8)).flatten ++ bytesOf (s.rd ERR_ALARM.SUPP) 8
  (s.rlySend 2 4 0 0 false 0 bytes).wr ERR_ALARM.SUPP 0

def State.alarmSupp (s : State) : State :=
  (s.wr ERR_ALARM.SUPP (min (s.rd ERR_ALARM.SUPP + 1) 0xFFFF)).raise ERR_STS.fALM_SUPP

/-- An emitted record asks for an alarm. -/
def State.alarm (s : State) (r : ErrRec) : State :=
  let wants := r.sev == .fatal || (r.sev == .error && s.on ERR_CTL.ALM_ERR && (r.kind == .first || r.kind == .single))
  if wants = false then s
  else if s.rd ERR_ALARM.TOKENS ≠ 0 then (s.wr ERR_ALARM.TOKENS (s.rd ERR_ALARM.TOKENS - 1)).alarmSend r
  else if r.sev = .fatal ∧ s.err.almq.length < 8 then
    let q := s.err.almq ++ [r]
    (s.setErr { s.err with almq := q }).wr ERR_ALARM.QUEUED q.length
  else s.alarmSupp

/-- The bucket gains a token, which a waiting FATAL alarm takes. -/
def State.alarmRefill (s : State) : State :=
  match s.err.almq with
  | r :: rs => ((s.setErr { s.err with almq := rs }).wr ERR_ALARM.QUEUED rs.length).alarmSend r
  | [] => s.wr ERR_ALARM.TOKENS (min (s.rd ERR_ALARM.TOKENS + 1) 64)

/-! ### Coalescing (R509 to R511) -/

/-- A record as it is emitted, with the next SEQ. -/
def State.stamped (s : State) (r : ErrRec) (k : RecKind) : ErrRec :=
  { r with kind := k, seq := s.rd ERR_SEQ.SEQ, lap := s.rd ERR_SEQ.LAP }

/-- The next SEQ is taken, and the FIFO takes the record. -/
def State.emitFifo (s : State) (r : ErrRec) : State :=
  (s.advance ERR_SEQ.SEQ ERR_SEQ.LAP ERR_SEQ.LAP_SAT ERR_STS.fSEQ_BELL).fifoTake r

/-- A record is emitted: it takes the next SEQ and goes to both paths. -/
def State.emit (s : State) (r : ErrRec) (k : RecKind) : Option State :=
  let r := s.stamped r k
  ((s.emitFifo r).ringTake r).map (fun s => s.alarm r)

/-- A fatal record that stops the package is emitted without waiting for the ring's line: the ring loses it (R499). -/
def State.emitNow (s : State) (r : ErrRec) : State :=
  let r := s.stamped r .single
  let s := s.emitFifo r
  (if s.on ERR_CTL.RING_EN then s.ringLose r else s).alarm r

/-- Records that coalesce (R511). -/
def ErrRec.same (a b : ErrRec) : Bool :=
  a.sev == b.sev && a.unit == b.unit && a.inst == b.inst && a.code == b.code && a.sts == b.sts && a.world == b.world &&
  a.enc == b.enc

/-- An entry closes: with two occurrences or more it emits LAST. -/
def State.coalClose (s : State) (c : Coal) : Option State :=
  let s := s.setErr { s.err with coal := s.err.coal.erase c }
  if 2 ≤ c.count then s.emit { c.last with count := c.count } .last else some s

/-- ERR processes a record. -/
def State.errProcess (s : State) (r : ErrRec) : Option State :=
  if r.sev = .fatal ∨ s.rd ERR_CTL.COAL = 0 then s.emit r .single
  else
    match s.err.coal.find? (fun c => c.first.same r) with
    | some c =>
      some (s.setErr { s.err with coal := s.err.coal.map (fun (x : Coal) =>
        if x = c then { c with last := r, count := min (c.count + 1) 0xFFFFFFFF } else x) })
    | none =>
      let v := match s.err.coal with
        | c :: _ => if 64 ≤ s.err.coal.length then (s.raise ERR_STS.fCOAL_EVICT).coalClose c else some s
        | [] => some s
      match v with
      | none => none
      | some s => State.emit (s.setErr { s.err with coal := s.err.coal ++ [⟨r, r, 1, s.now.toNat⟩] }) r .first

/-! ### A domain without power (R459, R460) -/

/-- The stops of a domain's units (R35, R459). -/
def domStops (d : Nat) : List Nat :=
  if d < 12 then [tcdStop d]
  else if d = 12 then [tqeStop]
  else if d = 16 then [iowStop]
  else if d = 17 then [ioeStop]
  else if d = 18 then [hbcStop 0 false, hbcStop 0 true, hbcStop 1 false, hbcStop 1 true]
  else if d = 19 then [hbcStop 2 false, hbcStop 2 true, hbcStop 3 false, hbcStop 3 true]
  else []

/-- Stops take a state; a DEAD stop stays DEAD (R180). -/
def State.setStops (s : State) (d v : Nat) : State :=
  (domStops d).foldl (fun s n => if s.stopState n = 3 then s else s.wr (MESH_STOP.STATE n) v) s

/-- A range of a table is dropped. -/
def Tbl.dropRange {α : Type} (t : Tbl α) (lo hi : Nat) : Tbl α := t.filter (fun e => decide (e.1 < lo) || decide (hi ≤ e.1))

/-- A die loses its contents: caches, evictions, requests, cores (R460, R568). -/
def State.dieLose (s : State) (t : Nat) : State :=
  State.bcastLost (t := t) { s with
    l3 := s.l3.dropRange (t * 2 ^ 46) ((t + 1) * 2 ^ 46)
    evp := s.evp.dropRange (t * 2 ^ 46) ((t + 1) * 2 ^ 46)
    outReq := Tbl.erase s.outReq t
    up := s.up.filter (fun m => m.src.val != tcdStop t)
    cores := s.cores.dropRange (24 * t) (24 * t + 24)
    bcasts := s.bcasts.filter (fun b => decide (dieOf b.core ≠ t))
    links := Tbl.put s.links t Link.init { Link.init with bad := (s.link t).bad, corr := (s.link t).corr } }

/-- Register values of a range of cores return to reset (R571). -/
def State.coreRegsReset (s : State) (c n : Nat) : State :=
  s.regsReset (2 ^ 32 + c * 0x10000) (2 ^ 32 + (c + n) * 0x10000)

/-- The TQE loses its power or is reset: every ring CLEARED, every slot EMPTY, its functions as at reset (R409, R460,
R568). -/
def State.tqeLose (s : State) : State :=
  let s := s.powerErase
  let s := { s with
    rings := [], runs := [], ctxCache := [], ctxWait := [], ctxLast := 0, rrRing := 0, rrLane := 0, classes := [], kwq := [], admq := [], inst := [],
    dirty := [], fns := [], watch := [], strays := [], pieces := [], fence := [], winStage := none, alarms := [],
    meterTqe := [], evp := s.evp.dropRange (12 * 2 ^ 46) (13 * 2 ^ 46),
    slots := s.slots.map (fun (e : Nat × Slot) => (e.1, (e.2.emptied e.2.lost))) }
  s

/-- What a domain loses with its power, once it is isolated (R409, R410, R459, R460). -/
def State.domLose (s : State) (d : Nat) : State :=
  if d < 12 then
    let s := (s.dieLose d).coreRegsReset (24 * d) 24
    (List.range 6).foldl (fun s k => s.wr (PMC_CLUS.ONLINE (6 * d + k)) 0) s
  else if d = 12 then s.tqeLose
  else if d = 18 ∨ d = 19 then
    { s with mem := s.mem.filter (fun (e : Nat × MemLine) => !isHbmLine e.1 || hla e.1 / 4 % 2 != d - 18) }
  else s

/-- The die's link goes DOWN, and any hold of its traffic ends (R197, R210). A FAILED link leaves its state only by the die's
reset (assumption 61). -/
def State.linkDown (s : State) (t : Nat) : State :=
  let s := if s.rd (STR_STATE.STATE t) = 4 ∧ s.sys.rst ≠ some t then s else s.wr (STR_STATE.STATE t) 0
  s.wr (STR_STATE.HOLD t) 0

/-- A domain is isolated and shows a state: 0 OFF or 4 GATED (R459); its lanes follow (R410), and its mailboxes where it was
still ON (R450). -/
def State.domShow (s : State) (d v : Nat) : State :=
  let on := s.rd (PMC_DOM.STATE d) == 2
  let s := (s.wr (PMC_DOM.STATE d) v).setStops d 2
  let s := if d < 12 then s.linkDown d else s
  let s := if d = 13 then s.lanesEnd DOMAIN_OFF true else s
  let s := if v = 0 then s.domLose d else s
  if on then s.mbDomOff d else s

/-! ### QUARANTINE (R499) -/

/-- Every channel that is not FROZEN or FENCED places its ranks in self-refresh and keeps its queues. -/
def State.selfRefresh (s : State) : State :=
  (List.range 80).foldl (fun s ch => if s.chActive ch then s.setChan ch { s.chan ch with sref := true } else s) s

/-- The package enters QUARANTINE. -/
def State.quarantine (s : State) : State :=
  let s := s.setMode 6
  let s := (s.keyAlarm 16).selfRefresh
  [12, 13, 16, 17].foldl (fun s d => s.domShow d 0) s

/-! ### Photo-finish (R546, R547) -/

/-- A trigger; `bit` is its place in SRC. Triggers of one nanosecond are those of one SVP cycle (DEDUCED, assumption 85). -/
def State.photo (s : State) (bit : Nat) : State :=
  if s.pf.any (fun p => !p.stopped) && s.rd DBG_PF_TIME.TIME == s.now.toNat then
    s.wr DBG_PF_STS.SRC (s.rd DBG_PF_STS.SRC ||| 2 ^ bit)
  else if s.pkgMode = 5 ∨ s.pf.isSome then
    s.raise (if bit = 1 then RLY_STS.fFRZDUP else DBG_PF_STS.fDUP)
  else if s.pkgMode ≠ 2 ∧ s.pkgMode ≠ 3 ∧ s.pkgMode ≠ 4 ∧ s.pkgMode ≠ 6 then s.raise DBG_PF_STS.fIGN
  else
    let s := (s.wr DBG_PF_TIME.TIME s.now.toNat).wr DBG_PF_STS.SRC (2 ^ bit)
    let s := if bit ≠ 1 ∧ s.on RLY_CTL.FRZ_OUT then
        let s := s.rlyOut (.set true (s.rd RLY_POS.POS))
        { s with rly := { s.rly with reps := s.rly.reps ++ [(true, 8)] } }
      else s
    let s := if s.on DBG_PF_CTL.DRIVE then
        { s with sys := { s.sys with photoPulses := s.sys.photoPulses + 1 } } else s
    { s with pf := some ⟨(List.range 80).filter (fun c => s.chActive c), false⟩ }

/-! ### ERR takes a record (R498, R510) -/

/-- The queue's next record: the oldest of the highest severity. -/
def nextRec (q : List ErrRec) : Option ErrRec :=
  [Sev.fatal, .error, .corr, .info].findSome? (fun v => q.find? (fun r => r.sev == v))

/-- A record of R498 starts QUARANTINE, or a photo-finish where that is its trigger (R472, R546): the SVP then keeps the
record. -/
def State.errFatal (s : State) (r : ErrRec) : State :=
  if s.on DBG_PF_CTL.ON_FATAL then
    let s := (s.keyAlarm 16).photo 4
    s.setErr { s.err with kept := some r }
  else
    ((s.errProcess r).getD (s.emitNow r)).quarantine

/-- ERR is at work. -/
def State.errWorks (s : State) : Bool := !s.stopped && s.pkgMode != 1

/-- ERR takes what units hold for it, and emits one record (R510). -/
def State.errTake (s : State) : State :=
  if s.errWorks = false then s
  else
    let s' := { s with
      errIn := []
      err := { s.err with q := s.err.q ++ s.errIn.filter (fun r => decide (s.rd ERR_CTL.MIN_SEV ≤ r.sev.num)) } }
    match nextRec s'.err.q with
    | none => s'
    | some r =>
      let s'' := s'.setErr { s'.err with q := s'.err.q.erase r }
      if r.quar ∧ s.coresRun = true then s''.errFatal r
      else s.orWait (s''.errProcess r)

def execErrRecordTake (s : State) : Host.Outcome State Fault Refusal := s.done s.errTake

/-- An entry's quiet time or its 1 s has passed (R511); `i` counts from the entry that opened first. -/
def State.coalExpire (s : State) (i : Nat) : State :=
  if s.errWorks = false then s
  else
    match s.err.coal[i]? with
    | some c => s.orWait (s.coalClose c)
    | none => s

def execCoalEntryExpire (id : BitVec 6) (s : State) : Host.Outcome State Fault Refusal := s.done (s.coalExpire id.toNat)

/-- A read of ERR_FIFO_OUT 7; `lg` is its size, `half` the 4-byte half it starts at (R10, R513). -/
def State.errOut (s : State) (lg half : Nat) : State :=
  let addr := prsAddr (ERR_FIFO_OUT.WORD 7).addr + 4 * half
  if lg < 2 ∨ (lg = 3 ∧ half ≠ 0) ∨ 2 ≤ half then (s.logReg addr).reply 0 0
  else
    let v := s.rd (ERR_FIFO_OUT.WORD 7) / 2 ^ (32 * half)
    let s := if lg = 3 ∨ half = 1 then s.fifoPop else s
    s.reply 0 (if lg = 3 then v else v % 2 ^ 32)

def execErrFifoPop (lg half : BitVec 2) (s : State) : Host.Outcome State Fault Refusal :=
  s.ifRuns fun s => s.errOut lg.toNat half.toNat

/-- A write of ERR_RING_CI: a value outside the ring's span is a reserved encoding (R512, R516). -/
def State.errCi (s : State) (v : Nat) : State :=
  let n := 2 ^ s.rd ERR_RING.LOG2SZ
  if n < (s.rd ERR_RING_PI.PI + 2 ^ 32 - v % 2 ^ 32) % 2 ^ 32 then (s.logReg (prsAddr ERR_RING_CI.CI.addr)).reply 0 0
  else
    let s' := (s.wr ERR_RING_CI.CI v).reply 0 0
    s.orWait s'.ringFlush

def execErrRingCiWrite (v : BitVec 32) (s : State) : Host.Outcome State Fault Refusal :=
  s.ifRuns fun s => s.errCi v.toNat

def execAlarmTokenRefill (s : State) : Host.Outcome State Fault Refusal := s.done s.alarmRefill

/-- ERR's own table or record path is uncorrectable (R498, R508). -/
def execErrInternalError (s : State) : Host.Outcome State Fault Refusal :=
  s.ifRuns fun s => s.report { rec0 .fatal 0x0D 0 0xCA with quar := true }

/-- The configuration tree is uncorrectable (R498, R508). -/
def execTreeFatal (s : State) : Host.Outcome State Fault Refusal :=
  s.ifRuns fun s => s.report { rec0 .fatal 0x13 0 0xCB with quar := true }

/-- A tag is uncorrectable (R152): arrays 0 L1D, 1 L1I, 2 L2, 3 L3, 4 HMC. With both dirty copies clean the way is
invalidated and the error counts as correctable. -/
def State.tagFatal (s : State) (arr die index set way : Nat) (dirty : Bool) : State :=
  if 4 < arr then s
  else if dirty = false then
    if arr = 4 then
      ((s.hmcPut (index % 32) set way none).raise HMC_STS.fCORR).report (rec0 .corr 2 (index % 32) 0)
    else
      let c := 24 * die + index % 24
      let k := if arr = 3 then bankArr die (index % 16) else coreArr c arr
      let s := match (s.arr k).at_ set way with
        | some line => if arr = 3 then s.l3Drop die line else s.privDrop c arr line
        | none => s
      (s.setArr k ((s.arr k).drop set way)).dieCorr (if arr = 3 then 0xFFFF else c) none
  else
    let hmc := arr == 4
    let d := arr + (if hmc then 0 else index * 2 ^ 8 + die * 2 ^ 16) + set * 2 ^ 24 + way * 2 ^ 40
    let inst := if hmc then index % 32 else if arr = 3 then 0xFFFF else 24 * die + index
    s.report { rec0 .fatal (if hmc then 2 else 0x10) inst 0xC4 with quar := true, detail := [d] }

def execTagFatal (arr : BitVec 3) (die : Tcd) (index : BitVec 8) (set : BitVec 16) (way : BitVec 4) (dirty : Bool)
    (s : State) : Host.Outcome State Fault Refusal :=
  s.ifRuns fun s => s.tagFatal arr.toNat die.val index.toNat set.toNat way.toNat dirty

end Sys2Proof.Machine
end

