-- ==== Sys2Proof/Machine/Mesh.lean ====
section
/-!
DEFINITION. The hub mesh's own events: returned credits (R166), link errors (R161), request timers (R168 to R171), the
pacers (R174 to R177), and dead routers with route epochs (R182 to R186).
-/
namespace Sys2Proof.Machine

/-! ### Credits (R166) -/

/-- A unit stands behind a DUNIT of a stop (R156). -/
def unitAt (st u : Nat) : Bool :=
  if u = 0 then st != 56 && st != 60 && st != 63
  else if u = 1 then st == svcStop || (List.range 16).any (fun k => mchStop k == st)
  else u == 2 && st == svcStop

/-- A control flit reaches the control logic of a stop: a CRD flit (control code 0x01) adds its credits to the pool; one that
the rule forbids, or with a reserved control code, is dropped and logged. -/
def State.crdFlit (s : State) (ctl : Nat) (x : Crd) (rsv : Bool) : State :=
  if s.behind (.crd x) then s
  else
  let s := s.dropFlit (.crd x)
  if ctl ≠ 1 ∨ 4 ≤ x.kind ∨ unitAt x.src x.sunit = false ∨ (x.kind ≠ 0 ∧ (x.b ≠ 0 ∨ rsv = true)) then
    s.report { rec0 .error 3 x.dst 0xC8 with src := x.src }
  else
    let add (s : State) (k n : Nat) : State := s.setPool x.dst x.src x.sunit k (s.pool x.dst x.src x.sunit k + n)
    let s := match x.kind with
      | 0 => add (add s 0 x.a) 1 x.b
      | 1 => add s 2 x.a
      | 2 => add s 3 x.a
      | _ => add s 4 x.a
    let s := s.retryStalled.retryMem
    if x.dst = xcpStop then s.xcpGo else s

def execCrdFlit (dst src : Stop) (sunit : BitVec 4) (x : CtlOpc) (a b : BitVec 8) (rsv : Bool) (s : State) :
    Host.Outcome State Fault Refusal :=
  s.ifRuns fun s => s.crdFlit x.ctl.toNat ⟨dst.val, src.val, sunit.toNat, x.kind.toNat, a.toNat, b.toNat⟩ rsv

/-! ### Link errors (R161) -/

/-- A flit is lost in the mesh: where it was a snoop or its answer, no late answer is to come of it (R107). -/
def State.loseFlit (s : State) (l : Load) : State :=
  let s := s.dropFlit l
  match l with
  | .msg m =>
    if m.opc.isSnoop then (slotOfStop m.dst.val).elim s (fun a => s.snoopGone m.line.toNat a)
    else if m.opc.plane = .rsp ∧ m.opc.isAnswer = false ∧ m.opc ≠ .compAck then
      (slotOfStop m.src.val).elim s (fun a => s.snoopGone m.line.toNat a)
    else s
  | _ => s

/-- The load with the POISON mark; an error in the flit of a write's byte enables marks the write. -/
def Load.poisoned : Load → Load
  | .msg m => .msg { m with poison := true }
  | .part m => .part { m with poison := true }
  | .mem r => .mem { r with poison := true }
  | .crd c => .crd c

/-- Mark the first flit with a load, and the other flit of the same write. -/
def State.poisonFlit (s : State) (l : Load) : State :=
  let twin (x : Load) : Bool := x == l || (match x, l with
    | .part m, .msg n | .msg m, .part n => m == n
    | _, _ => false)
  { s with mesh := { s.mesh with net := s.mesh.net.map (fun f => if twin f.load then { f with load := f.load.poisoned } else f) } }

/-- An error on a link into router r: 0 corrected, 1 uncorrectable in the segment with the header, others uncorrectable
elsewhere. A flit of the SNP plane is one segment (R158). The record names the link by its router and plane, in CODE and INST
(R507); the flit's source in SRC. -/
def State.linkError (s : State) (r : Nat) (l : Load) (err : Nat) : State :=
  if err = 0 then s.raise MESH_STS.fCECC
  else if err = 1 ∨ l.plane.segments = 1 then
    let s := (s.loseFlit l).raise MESH_STS.fHDROP
    match l with
    | .msg m | .part m => s.report { rec0 .error 3 r 1 with src := m.src.val, addr := some (m.line.toNat * 64) }
    | .mem q => s.report { rec0 .error 3 r 1 with src := q.src.stop, addr := some (q.line.toNat * 64) }
    | .crd c => s.report { rec0 .error 3 r 1 with src := c.src }
  else s.poisonFlit l

def execMeshLinkEccError (r : Stop) (l : Load) (err : BitVec 2) (s : State) : Host.Outcome State Fault Refusal :=
  s.ifRuns fun s => s.linkError r.val l err.toNat

/-! ### Request timers (R168 to R171, R209) -/

/-- Some link holds traffic, so request timers are paused (R209). -/
def State.timersHeld (s : State) : Bool := (List.range 12).any (fun t => s.on (STR_STATE.HOLD t))

/-- The answer that a stop gives in the place of one that has not come. -/
def timeoutAnswer (rq : Msg) : Msg :=
  match rq.opc with
  | .wrFull | .wrPart => { rq.reply .wrAck with sts := 4 }
  | .maintCln | .maintInv => { rq.reply .maintAck with sts := 4 }
  | .upgrade => { rq.reply .grantE with sts := 4, poison := true, data := onesLine }
  | .rdShared => { rq.reply .dataS with sts := 4, poison := true, data := onesLine }
  | .rdUnique => { rq.reply .dataE with sts := 4, poison := true, data := onesLine }
  | _ => { rq.reply .dataOnce with sts := 4, poison := true, data := onesLine }

/-- The unit of the request receives that answer. -/
def State.timeoutDeliver (s : State) (rq : Msg) : State :=
  let m := timeoutAnswer rq
  match slotOfStop rq.src.val with
  | none => if rq.src.val = pirStop then s.intAnswered rq 4 else s
  | some a =>
    match rq.opc with
    | .rdShared => if a = 12 then s.tqeShared m else s.dieGrant a m rq .s false
    | .rdUnique => if a = 12 then s else s.dieGrant a m rq .e false
    | .upgrade => if a = 12 then s else s.dieGrant a m rq .e true
    | .rdOnce => if a = 12 then s.tqeOnce m rq else s.dieOnce a m rq
    | _ => if a = 12 then s.tqeAck m rq else s.dieAck a m rq

/-- A TCD has not answered an invalidation within MESH_RQ_TMO: it is declared dead and counts as having answered (R299). The
broadcaster's stores stand outside the response buffers of its stop: 1008 + n names those to TCD n (assumption 80). -/
def State.invTimeout (s : State) (t : Nat) : State :=
  if s.tcdInv.any (fun e => e.tcd == t) then
    State.bcastLost (if s.agentState t = 2 ∨ s.agentState t = 3 then s else s.agentDead t) t
  else s

/-- The timer of response buffer i at a stop expires: an eviction is sent again, with the TXN of its first copy (R170,
assumption 55), any other request is completed by the stop. A request that its pacer still holds has no timer yet. -/
def State.requestTimeout (s : State) (st i : Nat) : State :=
  if s.timersHeld then s
  else
    match Tbl.get? s.mesh.txnBusy (st * 1024 + i) with
    | none => if st = svcStop ∧ 1008 ≤ i then s.invTimeout (i - 1008) else s
    | some rq =>
      if s.mesh.pq.any (fun q => q.2.contains rq) then s
      else
        let s := (s.raise MESH_STS.fRQTMO).report { rec0 .error 3 st 3 with
          addr := some (rq.line.toNat * 64), world := rq.attr.world, enc := rq.attr.enc.toNat, mtag := rq.attr.mtag.toNat,
          src := st, sts := TIMEOUT }
        if rq.opc = .wbDirty ∨ rq.opc = .evClean then s.inject rq
        else
          let s := { s with mesh := { s.mesh with txnBusy := Tbl.erase s.mesh.txnBusy (st * 1024 + i) } }
          ((s.nextGen st i).timeoutDeliver rq).retryStalled

def execRequestTimeout (st : Stop) (id : BitVec 10) (s : State) : Host.Outcome State Fault Refusal :=
  s.ifRuns fun s => s.requestTimeout st.val id.toNat

/-! ### Pacers (R175 to R177) -/

/-- The head of a class's queue may leave (R175). -/
def State.paceReady (s : State) (p c : Nat) (m : Msg) : Bool :=
  match m.pace with
  | .held cost =>
    !s.on (MESH_PCR.EN p c) ||
    decide (1024 * (min cost (s.rd (MESH_PCR.BURST p c)) : Nat) ≤ s.level p c)
  | _ => true

/-- The class that leaves next through one of the free ports: the highest QOS, then round-robin (R176). -/
def State.pacePick (s : State) (p : Nat) (free : List Nat) : Option (Nat × Msg) :=
  let start := Tbl.getD s.mesh.paceRr p 0
  let cs := (List.range 16).map (fun i => (start + i) % 16)
  let heads := cs.filterMap (fun c =>
    match s.pqueue p c with
    | m :: _ => if free.contains (m.dst.val % 3) && s.paceReady p c m then some (c, m) else none
    | [] => none)
  [3, 2, 1, 0].findSome? (fun q => heads.find? (fun h => s.rd (MESH_PCR.QOS p h.1) == q))

/-- A held message leaves: its full cost is deducted. -/
def State.paceGo (s : State) (p c : Nat) (m : Msg) : State :=
  let s := s.setPqueue p c (s.pqueue p c).tail
  let s := { s with mesh := { s.mesh with paceRr := Tbl.set s.mesh.paceRr p ((c + 1) % 16) } }
  let s := match m.pace with
    | .held cost => if s.on (MESH_PCR.EN p c) then s.setLevel p c (s.level p c - 1024 * (cost : Int)) else s
    | _ => s
  s.launch (s.paceQos p m)

/-- One cycle of a pacer point: at most one held message for each REQ-plane port that is free. -/
def State.paceCycle (p : Nat) : Nat → List Nat → State → State
  | 0, _, s => s
  | n + 1, free, s =>
    match s.pacePick p free with
    | some (c, m) => State.paceCycle p n (free.erase (m.dst.val % 3)) (s.paceGo p c m)
    | none => s

def execPacerRelease (p : BitVec 4) (free : BitVec 3) (s : State) : Host.Outcome State Fault Refusal :=
  s.ifRuns fun s => State.paceCycle p.toNat 3 (bitsOf free) s

/-- A write of MESH_PCR p c (R175, R177, R187): RATE and BURST of 0 are reserved encodings (R8). The level stays at BURST
while EN is 0 and starts there when EN becomes 1. -/
def State.pcrWrite (s : State) (p c v : Nat) : State :=
  let was := s.on (MESH_PCR.EN p c)
  let l := s.level p c
  let rate := v % 4096
  let burst := v / 2 ^ 32 % 4096
  let s := if rate = 0 ∨ burst = 0 then s.logReg (prsAddr (MESH_PCR.RATE p c).addr) else s
  let s := (s.wr (MESH_PCR.EN p c) (v / 2 ^ 63)).wr (MESH_PCR.QOS p c) (v / 2 ^ 48)
  let s := if rate = 0 then s else s.wr (MESH_PCR.RATE p c) rate
  let s := if burst = 0 then s else s.wr (MESH_PCR.BURST p c) burst
  let top := 1024 * (s.rd (MESH_PCR.BURST p c) : Int)
  s.setLevel p c (if was && s.on (MESH_PCR.EN p c) then min l top else top)

def execMeshPcrWrite (p c : BitVec 4) (v : BitVec 64) (d : Dev) (s : State) : Host.Outcome State Fault Refusal :=
  s.ifRuns fun s => if p = 15 then (s.logReg (prsAddr (MESH_PCR.RATE 15 c.toNat).addr)).reply 0 0
    else s.prsWrite d (MESH_PCR.RATE p.toNat c.toNat).addr 8 false (fun s => s.pcrWrite p.toNat c.toNat v.toNat)

/-! ### Dead routers (R182 to R186) -/

/-- The stops whose loss stops the package (R186, R498). -/
def vitalStop (r : Nat) : Bool :=
  (homeOfStop r).isSome || r == svcStop || r == pirStop || r == mbxStop || r == splStop || r == errStop

/-- The units at a dead router's stop are lost (R186). -/
def State.stopLost (s : State) (r : Nat) : State :=
  if s.stopState r = 4 then s
  else
    let s := s.wr (MESH_STOP.STATE r) 3
    -- the four ports of an I/O group are lost, with what they had still to send (R75, R186)
    let s : State := if r = iowStop then { s with portQ := s.portQ.filter (fun e => decide (4 ≤ e.1 / 8)) }
      else if r = ioeStop then { s with portQ := s.portQ.filter (fun e => decide (e.1 / 8 < 4)) } else s
    match slotOfStop r with
    | some a => if s.agentState a = 2 ∨ s.agentState a = 3 then s else s.agentDead a
    | none =>
      if r = xcpStop ∧ s.parMode ≠ 0 then
        let s := s.breakGroup 0
        if s.parMode = 2 then s.breakGroup 1 else s
      else s

/-- A reconfiguration for a router starts, or waits for the one that runs (R182, R184). -/
def State.recfgStart (s : State) (r : Nat) : State :=
  if s.on MESH_RECFG_STS.BUSY then { s with mesh := { s.mesh with toMark := s.mesh.toMark ++ [r] } }
  else
    let s := { s with mesh := { s.mesh with spare := BitVec.ofNat 64 (s.rd MESH_DEADRTR.DEAD) } }
    ((s.wr MESH_RECFG_STS.BUSY 1).wr MESH_RECFG_STS.PHASE 1).wr MESH_RECFG_STS.ROUTER r

/-- A router is dead: its bit, the fatal record, the units at its stop (R182, R186). -/
def State.routerDie (s : State) (r : Nat) : State :=
  let s := s.wr MESH_DEADRTR.DEAD (s.rd MESH_DEADRTR.DEAD ||| 2 ^ r)
  -- a dead router's stop is never shown in MESH_UNREACH (R185)
  let s := s.wr MESH_UNREACH.STOP ((BitVec.ofNat 64 (s.rd MESH_UNREACH.STOP) &&& ~~~(BitVec.ofNat 64 (2 ^ r))).toNat)
  let s := s.report { rec0 .fatal 3 r 0xC1 with quar := vitalStop r }
  s.stopLost r

/-- An uncorrectable error in a router. -/
def State.routerFault (s : State) (r : Nat) : State :=
  if (s.rd MESH_DEADRTR.DEAD).testBit r then s
  else
    let s := s.routerDie r
    if s.on MESH_CTL.RECFG_AUTO then s.recfgStart r else s

def execRouterFault (r : Stop) (s : State) : Host.Outcome State Fault Refusal := s.ifRuns fun s => s.routerFault r.val

/-- A write of MESH_RECFG (R182). -/
def State.markDead (s : State) (op r : Nat) : State :=
  let sts := if op ≠ 1 then EINVAL
    else if s.on MESH_RECFG_STS.BUSY ∨ (s.rd MESH_DEADRTR.DEAD).testBit r then ESTATE else OK
  let s := s.wr MESH_RECFG_STS.LAST_STS sts
  if sts = OK then (s.routerDie r).recfgStart r else s.logCmd 3 r sts

def execMarkDead (op : BitVec 4) (r : Stop) (d : Dev) (s : State) : Host.Outcome State Fault Refusal :=
  s.ifRuns fun s => s.prsWrite d MESH_RECFG.OP.addr 4 false (fun s => s.markDead op.toNat r.val)

/-- Every stop has computed its spare bank. -/
def execRecfgComputeDone (s : State) : Host.Outcome State Fault Refusal :=
  s.ifRuns fun s => if s.rd MESH_RECFG_STS.PHASE = 1 then s.wr MESH_RECFG_STS.PHASE 2 else s

/-- The live stops that cannot be reached from some other live stop (R185). -/
def unreachable (dead : BitVec 64) : Nat :=
  let live := (List.range 64).filter (fun n => !dead.getLsbD n)
  live.foldl (fun v d => if live.all (fun s => s == d || (chooseRoute dead s d).isSome) then v else v + 2 ^ d) 0

/-- Every stop has switched its banks (R184, R185). -/
def State.recfgInstall (s : State) : State :=
  if s.rd MESH_RECFG_STS.PHASE ≠ 2 then s
  else
    let s := { s with mesh := { s.mesh with mask := s.mesh.spare } }
    let s := s.advance MESH_EPOCH.EPOCH MESH_EPOCH.LAP MESH_GEN_LAP.EPOCH_LAP_SAT MESH_STS.fEPOCH_BELL
    let u := unreachable s.mesh.mask
    let new := (List.range 64).any (fun n => u.testBit n && !(s.rd MESH_UNREACH.STOP).testBit n)
    let s := s.wr MESH_UNREACH.STOP u
    let s := if new then s.raise MESH_STS.fUNREACH else s
    s.wr MESH_RECFG_STS.PHASE 3

def execRecfgInstallDone (s : State) : Host.Outcome State Fault Refusal := s.ifRuns fun s => s.recfgInstall

/-- A flit in the routers carries another epoch than the current one (R184). -/
def State.oldFlit (s : State) (f : Flit) : Bool := !f.out && f.epoch != s.rd MESH_EPOCH.EPOCH % 4

/-- The flit is inside the router, or has still to cross it. -/
def Flit.meets (f : Flit) (r : Nat) : Bool := !f.out && (f.route.drop (f.hop - 1)).contains r

/-- DRAIN has ended (R184): the dead router is isolated, and the flits inside it are lost, those named and those that the model
knows to be there or bound for it. -/
def State.recfgIsolate (s : State) (lost : List Load) : State :=
  if s.rd MESH_RECFG_STS.PHASE ≠ 3 then s
  else
    let r := s.rd MESH_RECFG_STS.ROUTER
    let inside := (s.mesh.net.filter (fun f => s.oldFlit f && f.meets r)).map (fun f => f.load)
    ((lost ++ inside).foldl (fun s l => s.loseFlit l) s).wr MESH_RECFG_STS.PHASE 4

/-- The reconfiguration ends; one that waits starts (R182, R184). It takes a mesh cycle after DRAIN (assumption 67). -/
def State.recfgEnd (s : State) : State :=
  if s.rd MESH_RECFG_STS.PHASE ≠ 4 then s
  else
    let s := (s.wr MESH_RECFG_STS.PHASE 0).wr MESH_RECFG_STS.BUSY 0
    match s.mesh.toMark with
    | r :: rs => State.recfgStart { s with mesh := { s.mesh with toMark := rs } } r
    | [] => s

/-- No flit of the old epoch is left: those that the model still has in the routers have arrived (assumption 67). -/
def State.recfgEmpty (s : State) : State :=
  if s.rd MESH_RECFG_STS.PHASE ≠ 3 then s
  else
    State.recfgIsolate { s with mesh := { s.mesh with
      net := s.mesh.net.map (fun f => if s.oldFlit f then { f with hop := f.route.length + 1 } else f) } } []

def execRecfgDrainEmpty (s : State) : Host.Outcome State Fault Refusal := s.ifRuns fun s => s.recfgEmpty

def execRecfgDrainTimeout (lost : List Load) (s : State) : Host.Outcome State Fault Refusal :=
  s.ifRuns fun s => s.recfgIsolate lost

end Sys2Proof.Machine
end

