-- ==== Sys2Proof/Machine/Pdt.lean ====
section
/-!
DEFINITION. The Package Description Table (R563, R564, R338): its header and its seven entries, as the SEP writes them at
the end of every boot. The spec gives the fields of an entry and, but for the TQE entry, no layout of its body: the model
lays them out in the order of R564, little-endian, in whole bytes (assumption 51).
-/
namespace Sys2Proof.Machine

/-- The bytes of a number list with zero bytes up to a multiple of 8. -/
def pad8 (l : List (BitVec 8)) : List (BitVec 8) := l ++ List.replicate ((8 - l.length % 8) % 8) 0

/-- An entry: the common header and the body (R564). -/
def pdtEntry (type : Nat) (body : List (BitVec 8)) : List (BitVec 8) :=
  pad8 (packBytes [(type, 2), (1, 1), (0, 1), (body.length, 4)] ++ body)

/-- The core exists in this SKU (R5). -/
def State.coreFitted (s : State) (c : Nat) : Bool :=
  decide (c % 4 < s.rd HUB_POP.CORES_PER_CLUSTER) && (s.rd HUB_POP.TCD_PRESENT).testBit (c / 24)

/-- PACKAGE: HUB_ID, HUB_POP, the fused serial, the map of the cores that are present. -/
def State.pdtPackage (s : State) : List (BitVec 8) :=
  packBytes [(s.regWord HUB_ID.VENDOR.addr, 8), (s.regWord HUB_POP.TCD_PRESENT.addr, 4), (Config.serial.toNat, 8),
    (((List.range 288).map (fun c => if s.coreFitted c then 2 ^ c else 0)).sum, 36)]

/-- What the training told the SEP of a channel (R240, R252): whether it passed, and its capacity in MiB. -/
structure Trained where
  ddr : BitVec 16
  hbm : BitVec 64
  gib : Nat
  parityOff : Bool
deriving DecidableEq, Repr

/-- MEMORY: for each channel 0 where it trained or else the step that failed, which the training's end does not tell, its
state, SPD serial numbers and capacity in MiB; then the interleave set, the parity mode and whether R561 switched it off,
the usable DDR5 capacity and the HBM stacks. `free` are the open values. -/
def State.pdtMemory (s : State) (t : Trained) (frz : Nat → Fld) (free : Nat → Nat) : List (BitVec 8) :=
  packBytes ((List.range 80).flatMap (fun ch =>
    let ok := if ch < 16 then t.ddr.getLsbD ch else t.hbm.getLsbD (ch - 16)
    [(if ok then 0 else 1 + free (2 * ch) % 255, 1), (s.rd (frz ch), 1), (if ch < 16 then free (2 * ch + 1) else 0, 8),
      (if ok then (if ch < 16 then t.gib * 1024 else 1536) else 0, 4)]) ++
    [(s.rd (MCH_MAP.CHW 0), 1), (s.rd (MCH_MAP.CHBASE 0), 1), (s.rd XCP_CTL.MODE, 1), (t.parityOff.toNat, 1),
      (s.ddrUsable, 8), (s.rd HUB_ID.HBM_STACKS, 1)])

/-- LINKS: for each Stride port STR_CAP_RES and the width. -/
def State.pdtLinks (s : State) : List (BitVec 8) :=
  packBytes ((List.range 12).flatMap (fun p =>
    [(s.regWord (STR_CAP_RES_LO.CAP p).addr, 8), (s.regWord (STR_CAP_RES_HI.CAP p).addr, 8), (s.rd (STR_STATE.WIDTH p), 1)]))

/-- POWER: the efficiency of each regulator at tenths of its rated current, in thousandths; LIMIT_W, WINDOW_MS, PLATE_LIM;
R0 in µK/W, F0 and FLOW_FLOOR in 0.01 L/min (R469, R474, R475). -/
def State.pdtPower (s : State) (rated : Nat → Nat) : List (BitVec 8) :=
  packBytes ((List.range 92).flatMap (fun r => (List.range 10).map (fun k =>
      (Config.efficiency r (rated r * (k + 1) / 10), 2))) ++
    [(s.rd PMC_LIMIT.LIMIT_W, 2), (s.rd PMC_LIMIT.WINDOW_MS, 2), (s.rd PMC_THERM.PLATE_LIM, 2), (s.pmc.r0, 4), (s.pmc.f0, 2),
      (s.pmc.floor, 2)])

/-- IO: for each x16 port the root port functions that the bifurcation gives it, then the CXL window bindings. -/
def State.pdtIo (s : State) : List (BitVec 8) :=
  packBytes ((List.range 8).map (fun p => (((List.range 8).map (fun k =>
      if (Tbl.get? s.ports (8 * p + k)).isSome then 2 ^ k else 0)).sum, 1)) ++
    (List.range 16).map (fun k => (s.regWord (HUB_CXLWIN.EN k).addr, 8)))

/-- TQE (R338); INTA is PIR source 16 (R430). -/
def pdtTqe : List (BitVec 8) :=
  packBytes [(tqeRev, 4), (0xF000, 2), (4095, 2), (1048576, 4), (16384, 4), (131072, 4), (65536, 4), (16, 2), (2048, 2),
    (32, 2), (256, 2), (65536, 4), (32, 2), (16, 2), (59, 1), (0, 7)]

/-- BOOT: the directory copy, the SVN, the versions of the images and whether TRAIN was used, which the spec gives no values
for; LAST_FAIL; the ownership call that a memory-preserving boot completed (R327). -/
def State.pdtBoot (s : State) (free : Nat → Nat) : List (BitVec 8) :=
  let o := s.ownDone.getD (0, 0, 0)
  packBytes [(free 0 % 2, 1), (free 1 % 65536, 2), (free 2, 28), (free 3 % 2, 1), (s.rd HUB_BOOT.LAST_FAIL, 1), (o.1, 1),
    (o.2.1, 2), (o.2.2, 8)]

/-- The table with a value in its CRC field. -/
def pdtWith (entries : List (BitVec 8)) (time : Nat) (kept : Bool) (crc : Nat) : List (BitVec 8) :=
  packBytes [(0x44505849, 4), (1, 2), (7, 2), (0x40 + entries.length, 4), (crc, 4), (time, 8), (kept.toNat, 1), (0, 39)] ++
    entries

/-- The table with its CRC. -/
def State.pdtSeal (s : State) (es : List (BitVec 8)) : State :=
  let kept := s.on HUB_BOOT.MEMKEPT
  { s with pdt := pdtWith es s.now.toNat kept (crc32c (pdtWith es s.now.toNat kept 0)) }

/-- An ownership call completed after the table was written: its BOOT entry, the last one, takes the call (R327). -/
def State.pdtOwned (s : State) : State :=
  if s.pdt = [] then s
  else
    let es := s.pdt.drop 0x40
    let o := s.ownDone.getD (0, 0, 0)
    s.pdtSeal (es.take (es.length - 15) ++ packBytes [(o.1, 1), (o.2.1, 2), (o.2.2, 8), (0, 4)])

/-- The SEP writes the table (R560 step 9): the open values of this table are the free values from a place on. -/
def State.pdtWrite (s : State) (t : Trained) (frz : Nat → Fld) (rated : Nat → Nat) : State :=
  let free (k i : Nat) : Nat := (Config.freeValue (s.freeCtr + 1000 * k + i)).toNat
  let es := pdtEntry 1 s.pdtPackage ++ pdtEntry 2 (s.pdtMemory t frz (free 0)) ++ pdtEntry 3 s.pdtLinks ++
    pdtEntry 4 (s.pdtPower rated) ++ pdtEntry 5 s.pdtIo ++ pdtEntry 6 pdtTqe ++ pdtEntry 7 (s.pdtBoot (free 1))
  ({ s with freeCtr := s.freeCtr + 2000 } : State).pdtSeal es

end Sys2Proof.Machine
end

