-- ==== Sys2Proof/Machine/Worlds.lean ====
section
/-!
DEFINITION. Calls of the Security Processor (R323 to R332): enclaves, ownership of granules, attestation, assignment of
resources and the debug policy. Each row executes the call at the head of one of the four call mailboxes.
-/
namespace Sys2Proof.Machine

/-! ### Calls (R325) -/

/-- A call: its eight words and its sender. -/
structure SepCall where
  words : List Nat
  len : Nat
  dmg : Bool
  world : Bool
  enc : Nat
deriving DecidableEq, Repr

def SepCall.w (c : SepCall) (i : Nat) : Nat := c.words.getD i 0
def SepCall.tag (c : SepCall) : Nat := c.w 0 / 2 ^ 16 % 65536

/-- The record is no well-formed call with n arguments (R325). -/
def SepCall.bad (c : SepCall) (n : Nat) : Bool :=
  c.len != 64 || c.dmg || c.w 0 / 2 ^ 8 % 256 != 0 || c.w 0 / 2 ^ 32 != 0 || (c.words.drop (n + 1)).any (fun w => w != 0)

/-- The call in a message. -/
def FwMsg.call (x : FwMsg) : SepCall :=
  ⟨(List.range 8).map (fun i => x.val / 2 ^ (64 * i) % 2 ^ 64), x.len, x.dmg, x.world, x.enc⟩

/-- The SEP answers a call in the mailbox paired with it (R325, R444); ESTATE is logged (R18). -/
def State.sepAnswer (s : State) (q tag : Nat) (world : Bool) (enc sts val : Nat) : State :=
  let s := if sts = ESTATE then s.logCmd 0x0B 0 sts else s
  (s.fwAnswer (2 * q + 1) (sts + tag * 65536 + (if sts = OK then val * 2 ^ 64 else 0)) 16 world enc).fwGo (2 * q)

/-- Execute the call at the head of a call mailbox, if it has the code: `k` gives its status and the value it returns.
It waits while an ownership change is in progress, and for room in the answer mailbox. -/
def State.sepRun (s : State) (q code : Nat) (k : State → SepCall → State × Nat × Nat) : State :=
  match s.fwPeek (2 * q) with
  | none => s
  | some x =>
    if x.val % 256 ≠ code ∨ s.own.isSome = true ∨ s.fwRoom (2 * q + 1) 4 = false then s
    else
      let r := k (s.fwTake (2 * q)) x.call
      r.1.sepAnswer q x.call.tag x.world x.enc r.2.1 r.2.2

/-! ### Enclaves (R323, R326, R328) -/

def State.encl (s : State) (e : Nat) : Option Enclave := Tbl.get? s.encs e

/-- An enclave number. -/
def isEnc (e : Nat) : Bool := decide (1 ≤ e) && decide (e ≤ 1023)

/-- The sender may not act on the enclave (R326). -/
def State.encAuth (s : State) (c : SepCall) (e : Nat) : Bool :=
  c.enc != 0 || (match (if isEnc e then s.encl e else none) with
    | some x => x.world != c.world
    | none => false)


def State.encCreate (s : State) (c : SepCall) : State × Nat × Nat :=
  let free := (List.range 1023).find? (fun i => (s.encl (i + 1)).isNone)
  let sts := firstBad [
    (c.enc != 0 || (c.w 1 == 1 && !c.world), EPERM),
    (c.bad 3 || decide (2 ≤ c.w 1) || decide (65536 ≤ c.w 2) || decide (2 ≤ c.w 3), EINVAL),
    (free.isNone, ENORES)]
  match sts, free with
  | 0, some i =>
    let x : Enclave := ⟨.building, c.w 1 == 1, c.w 2, c.w 3 == 1, 0, 0⟩
    ({ s.newKey (i + 1) with encs := Tbl.set s.encs (i + 1) x }, OK, i + 1)
  | e, _ => (s, e, 0)

def execEncCreate (q : BitVec 2) (s : State) : Host.Outcome State Fault Refusal :=
  s.done (s.sepRun q.toNat 1 State.encCreate)

def State.encSeal (s : State) (c : SepCall) : State × Nat × Nat :=
  let e := c.w 1
  let x := s.encl e
  let sts := firstBad [
    (s.encAuth c e, EPERM), (c.bad 1 || !isEnc e, EINVAL), (!x.any (fun y => y.st == .building), ESTATE)]
  match sts, x with
  | 0, some y => ({ s with encs := Tbl.set s.encs e { y with st := .running } }, OK, 0)
  | v, _ => (s, v, 0)

def execEncSeal (q : BitVec 2) (s : State) : Host.Outcome State Fault Refusal :=
  s.done (s.sepRun q.toNat 3 State.encSeal)

/-- The entry of a granule, as the ownership unit reads it. -/
def State.motOf (s : State) (gran : Nat) : MotEntry := s.motRaw (gran * 32768)

/-- A granule is owned by the enclave. -/
def State.ownsAny (s : State) (e : Nat) : Bool :=
  (List.range 16).any (fun k =>
    s.on (OWN_SEG.V k) && (List.range (s.rd (OWN_SEG.LEN k))).any (fun i =>
      let m := s.motOf (s.rd (OWN_SEG.BASE k) + i)
      (m.kind == .owned || m.kind == .locked) && m.enc == e))

def State.encDestroy (s : State) (c : SepCall) : State × Nat × Nat :=
  let e := c.w 1
  let sts := firstBad [
    (s.encAuth c e, EPERM), (c.bad 1 || !isEnc e, EINVAL),
    ((s.encl e).isNone || s.ownsAny e || s.assigns.any (fun p => p.2 % 1024 == e), ESTATE)]
  if sts ≠ OK then (s, sts, 0) else ({ s.newKey e with encs := Tbl.erase s.encs e }, OK, 0)

def execEncDestroy (q : BitVec 2) (s : State) : Host.Outcome State Fault Refusal :=
  s.done (s.sepRun q.toNat 5 State.encDestroy)

/-! ### Ownership changes (R327) -/

/-- The attributes of the ownership unit for an enclave's data (R310, R319). -/
def ownAttr (world : Bool) (enc : Nat) : Attr := ⟨world, BitVec.ofNat 10 enc, 0, 0, 0⟩

/-- Step 2: invalidate the lines of a granule from index i on; the first line that must wait ends it. -/
def State.ownClean (o : OwnOp) : Nat → Nat → State → State × Bool
  | 0, _, s => (s, true)
  | n + 1, i, s =>
    match s.dmaInv (o.gran * 32768 + i) (ownAttr o.sWorld o.enc) with
    | some s => State.ownClean o n (i + 1) s
    | none => (s, false)

/-- Step 3: write the lines of a granule from index i on, each read first for a copy; the lines done and the text read. A
line read with poison is written with poison. -/
def State.ownWrite (o : OwnOp) : Nat → Nat → List LineData → State → State × Nat × List LineData
  | 0, i, t, s => (s, i, t)
  | n + 1, i, t, s =>
    let line := o.gran * 32768 + i
    let w := ownAttr o.world (if o.code = 2 then o.enc else 0)
    let all : BitVec 64 := BitVec.allOnes 64
    if o.copy then
      match s.dmaRead svcStop line (ownAttr o.sWorld 0) true with
      | none => (s, i, t)
      | some (s', r) =>
        match s'.dmaWrite svcStop line w all r.data (r.psn || r.sts != 0) true with
        | none => (s, i, t)
        | some (s', _) => State.ownWrite o n (i + 1) (t ++ [r.data]) s'
    else
      match s.dmaWrite svcStop line w all 0 false true with
      | none => (s, i, t)
      | some (s', _) => State.ownWrite o n (i + 1) t s'

/-- The measurement after an add (R326). -/
def Enclave.extend (x : Enclave) (copy : Bool) (text : List LineData) : Enclave :=
  let bytes := bytesOf x.meas.toNat 48 ++ bytesOf x.adds 4 ++ [if copy then 1 else 0] ++
    (text.map (fun d => bytesOf d.toNat 64)).flatten
  { x with meas := Config.sha384 bytes, adds := x.adds + 1 }

/-- Step 4: the entry takes its new value; an add made in BUILDING extends the measurement. -/
def State.ownEnd (s : State) (o : OwnOp) : State :=
  let s := { s with own := none }
  if o.code = 2 then
    let s := s.setMot o.gran 1 o.world o.enc
    match s.encl o.enc with
    | some x => if x.st = .building then { s with encs := Tbl.set s.encs o.enc (x.extend o.copy o.text) } else s
    | none => s
  else s.setMot o.gran 0 false 0

/-- Go on with the change in progress as far as lines allow; whether it has ended. -/
def State.ownGo (s : State) : State × Option OwnOp :=
  match s.own with
  | none => (s, none)
  | some o =>
    let c := if o.cleaned then (s, true) else State.ownClean o 32768 0 s
    if c.2 = false then (c.1, none)
    else
      let o := { o with cleaned := true }
      let r := State.ownWrite o (32768 - o.next) o.next o.text c.1
      let o := { o with next := r.2.1, text := r.2.2 }
      if o.next < 32768 then ({ r.1 with own := some o }, none) else (r.1.ownEnd o, some o)

/-- The modes in which the ownership unit is stopped (R327): PHOTO and QUARANTINE. -/
def State.ownHeld (s : State) : Bool := s.pkgMode == 5 || s.pkgMode == 6

/-- Go on with the change that a mailbox's call began, and answer the call when it has ended. -/
def State.ownStep (s : State) : State :=
  if s.ownHeld then s
  else
    match s.ownGo with
    | (s, some o) => s.sepAnswer o.q o.tag o.sWorld o.sEnc OK 0
    | (s, none) => s

/-- The checks of a call that changes a granule, after its sender's (R320, R326). -/
def State.granBad (s : State) (pa : Nat) : Bool :=
  pa % 0x200000 != 0 || decide (2 ^ 52 ≤ pa) || (s.motIndex (pa / 0x200000)).isNone

/-- ENC_ADD and ENC_REMOVE: the call at the head of a mailbox begins, or goes on. -/
def State.ownCall (s : State) (q code nargs : Nat) (check : State → SepCall → Nat) : State :=
  match s.own with
  | some o => if o.q = q ∧ o.code = code then s.ownStep else s
  | none =>
    match s.fwPeek (2 * q) with
    | none => s
    | some x =>
      if x.val % 256 ≠ code ∨ s.fwRoom (2 * q + 1) 4 = false ∨ s.ownHeld = true then s
      else
        let c := x.call
        let s := s.fwTake (2 * q)
        let sts := firstBad [(s.encAuth c (c.w 1), EPERM), (c.bad nargs || !isEnc (c.w 1) || s.granBad (c.w 2), EINVAL)]
        let sts := if sts = OK then check s c else sts
        if sts ≠ OK then s.sepAnswer q c.tag x.world x.enc sts 0
        else
          let g := c.w 2 / 0x200000
          let m := s.motOf g
          let w := match s.encl (c.w 1) with
            | some y => y.world
            | none => c.world
          let s := s.setMot g 2 m.world m.enc
          let o : OwnOp := ⟨code, q, c.tag, x.world, x.enc, c.w 1, g, decide (code = 2 ∧ c.w 3 = 1), w, false, 0, []⟩
          State.ownStep { s with own := some o }

def State.encAddCheck (s : State) (c : SepCall) : Nat :=
  firstBad [
    (decide (2 ≤ c.w 3) || isCxlLine (c.w 2 / 64), EINVAL),
    ((s.encl (c.w 1)).isNone || (s.motOf (c.w 2 / 0x200000)).kind != .open_ ||
      (c.w 3 == 1 && (s.encl (c.w 1)).any (fun y => y.st == .running)), ESTATE)]

def execEncAdd (q : BitVec 2) (s : State) : Host.Outcome State Fault Refusal :=
  s.done (s.ownCall q.toNat 2 3 State.encAddCheck)

def State.encRemoveCheck (s : State) (c : SepCall) : Nat :=
  let m := s.motOf (c.w 2 / 0x200000)
  firstBad [((s.encl (c.w 1)).isNone || m.kind != .owned || m.enc != c.w 1, ESTATE)]

def execEncRemove (q : BitVec 2) (s : State) : Host.Outcome State Fault Refusal :=
  s.done (s.ownCall q.toNat 4 2 State.encRemoveCheck)

/-- A change that was interrupted is completed in a memory-preserving BOOT: step 2 again, then step 3 from the kept line. No
answer is sent; the PDT BOOT entry records the call (R327, R564). -/
def State.ownResume (s : State) : State :=
  if s.pkgMode ≠ 2 ∨ s.on HUB_BOOT.MEMKEPT = false then s
  else
    match ({ s with own := s.own.map (fun o => { o with cleaned := false }) } : State).ownGo with
    | (s, some o) => State.pdtOwned { s with ownDone := some (o.code, o.enc, o.gran * 0x200000) }
    | (s, none) => s

def execOwnershipCallResume (s : State) : Host.Outcome State Fault Refusal := s.done s.ownResume

/-! ### Attestation (R326, R595) -/

/-- The first half of a report, which is signed. -/
def State.reportHead (s : State) (e : Nat) (x : Enclave) (data : LineData) : List (BitVec 8) :=
  bytesOf x.meas.toNat 48 ++ packBytes [(e, 2), (x.vmid, 2), (x.world.toNat, 1), ((Enclave.debug x).toNat, 1),
    (s.rd HUB_ID.STEPPING, 1), (0, 1), (s.sepVer, 8)] ++ bytesOf data.toNat 64

def State.encAttest (s : State) (c : SepCall) : Option (State × Nat × Nat) :=
  let buf := c.w 1
  let x := s.encl c.enc
  let inside := (s.motIndex (buf / 0x200000)).isSome
  let m := s.motOf (buf / 0x200000)
  let sts := firstBad [
    (c.enc == 0 || x.any (fun y => y.world != c.world) || (inside && !(m.kind == .owned && m.enc == c.enc &&
      m.world == c.world)), EPERM),
    (c.bad 1 || buf % 64 != 0 || decide (0x200000 < buf % 0x200000 + 256) || !inside || decide (2 ^ 52 ≤ buf), EINVAL),
    (!x.any (fun y => y.st == .running), ESTATE)]
  match sts, x with
  | 0, some x =>
    let a := ownAttr c.world c.enc
    let line := buf / 64
    match s.dmaRead svcStop (line + 1) a true with
    | none => none
    | some (s, r) =>
      if r.psn ∨ r.sts ≠ 0 then some (s, POISONED, 0)
      else
        let head := s.reportHead c.enc x r.data
        let sig := Config.ecdsa (Config.sha384 head)
        let tail := toBe sig.1.toNat 48 ++ toBe sig.2.toNat 48 ++ bytesOf 0 32
        let put (acc : Option State) (k : Nat) (l : List (BitVec 8)) : Option State :=
          acc.bind (fun s => (s.dmaWrite svcStop (line + k) a (BitVec.allOnes 64) (BitVec.ofNat 512 (ofBytes l)) false
            true).map (fun p => p.1))
        (put (put (put (some s) 0 (head.take 64)) 2 (tail.take 64)) 3 (tail.drop 64)).map (fun s => (s, OK, 0))
  | v, _ => some (s, v, 0)

def execEncAttest (q : BitVec 2) (s : State) : Host.Outcome State Fault Refusal :=
  s.done (match s.fwPeek (2 * q.toNat) with
    | none => s
    | some x =>
      if x.val % 256 ≠ 6 ∨ s.own.isSome = true ∨ s.fwRoom (2 * q.toNat + 1) 4 = false then s
      else
        match (s.fwTake (2 * q.toNat)).encAttest x.call with
        | none => s
        | some r => r.1.sepAnswer q.toNat x.call.tag x.world x.enc r.2.1 r.2.2)

/-! ### Assignment (R329, R330) -/

/-- The resource exists under its kind code. -/
def resourceOk (kind n : Nat) : Bool :=
  match kind with
  | 0 => decide (n < 16)
  | 1 => decide (1 ≤ n) && decide (n ≤ 4095)
  | 2 => decide (n < 1048576)
  | 3 => decide (n < 192)
  | 4 => decide (n < 65536)
  | _ => false

/-- The resource is active (R330). -/
def State.resActive (s : State) (kind n : Nat) : Bool :=
  match kind with
  | 1 => (s.ringsOf n).any (fun p => decide (2 ≤ p.2.st))
  | 2 => decide (2 ≤ (s.ring n).st) || (s.ring n).fn != 0
  | 3 => !s.on (PIR_SRC.MASK n)
  | 4 => s.bmeExt.contains n
  | _ => false

/-- The assignment needs an IDE selective stream (R330, R331). -/
def needsStream (kind world enc : Nat) : Bool := kind == 4 && (world == 1 || enc != 0)

def State.assignCall (s : State) (c : SepCall) : State × Nat × Nat :=
  let kind := c.w 1
  let n := c.w 2
  let w := c.w 3
  let e := c.w 4
  let fresh := needsStream kind w e && (Tbl.get? s.ide n).isNone
  let sts := firstBad [
    (c.enc != 0 || (!c.world && w != 0), EPERM),
    (c.bad 4 || !resourceOk kind n || decide (2 ≤ w) || decide (1024 ≤ e) || (kind == 0 && e != 0), EINVAL),
    (s.resActive kind n || (e != 0 && !(s.encl e).any (fun x => x.world == (w == 1))), ESTATE),
    (fresh && decide (64 ≤ s.ide.length), ENORES)]
  if sts ≠ OK then (s, sts, 0)
  else
    let ide := if fresh then Tbl.set s.ide n 1 else if kind = 4 ∧ w = 0 ∧ e = 0 then Tbl.erase s.ide n else s.ide
    ({ s with assigns := Tbl.put s.assigns (asgKey kind n) 0 (w * 1024 + e), ide := ide }, OK, 0)

def execAssign (q : BitVec 2) (s : State) : Host.Outcome State Fault Refusal :=
  s.done (s.sepRun q.toNat 7 State.assignCall)

/-- A TLP fails its stream: the stream is Insecure (R331). -/
def State.ideFail (s : State) (rid : Nat) : State :=
  match Tbl.get? s.ide rid with
  | none => s
  | some _ => ({ s with ide := Tbl.set s.ide rid 2 }.raise OWN_STS.fIDE).report (rec0 .error 0x0B 0 4)

def execIdeTlpFail (rid : BitVec 16) (s : State) : Host.Outcome State Fault Refusal := s.done (s.ideFail rid.toNat)

/-! ### Claims and the debug policy (R334, R337) -/

/-- A domain is claimed (R334). -/
def State.claimed (s : State) (d : Nat) : Bool := (s.rd SEP_CLAIMS.CLAIMED).testBit d

/-- A domain of hardware that the SKU lacks: HBM-N or HBM-S without stacks (R4). -/
def State.noHbm (s : State) (d : Nat) : Bool := (d == 18 || d == 19) && !s.on HUB_ID.HBM_STACKS

/-- CLAIM (R326, R334, R4). -/
def State.claimCall (s : State) (c : SepCall) : State × Nat × Nat :=
  let d := c.w 1
  let sts := firstBad [
    (!c.world || c.enc != 0, EPERM), (c.bad 1 || decide (22 ≤ d), EINVAL), (s.noHbm d, ENODEV),
    (!s.domOn d || s.claimed d, ESTATE)]
  if sts ≠ OK then (s, sts, 0) else (s.wr SEP_CLAIMS.CLAIMED (s.rd SEP_CLAIMS.CLAIMED + 2 ^ d), OK, 0)

def execClaim (q : BitVec 2) (s : State) : Host.Outcome State Fault Refusal :=
  s.done (s.sepRun q.toNat 8 State.claimCall)

def State.dbgSet (s : State) (c : SepCall) : State × Nat × Nat :=
  let v := c.w 1
  let sts := firstBad [
    (!c.world || c.enc != 0, EPERM), (c.bad 1 || decide (2 ^ 32 ≤ v) || v / 16 % 2 ^ 27 != 0, EINVAL),
    (s.on DBG_POLICY.LOCK, ESTATE)]
  if sts ≠ OK then (s, sts, 0)
  else
    (((((s.wr DBG_POLICY.NI_N v).wr DBG_POLICY.INV_N (v / 2)).wr DBG_POLICY.NI_S (v / 4)).wr DBG_POLICY.INV_S
      (v / 8)).wr DBG_POLICY.LOCK (v / 2 ^ 31), OK, 0)

def execDbgSet (q : BitVec 2) (s : State) : Host.Outcome State Fault Refusal :=
  s.done (s.sepRun q.toNat 10 State.dbgSet)

end Sys2Proof.Machine
end

