-- ==== Sys2Proof/Machine/Power.lean ====
section
/-!
DEFINITION. The PMC: domains (R457 to R460), its requests (R461 to R465) and the claims on them (R334 to R336), operating
points and the control interval (R466 to R469), idle states (R470), the cooling loop (R474 to R476) and ride-through
(R477).
-/
namespace Sys2Proof.Machine

/-! ### Requests and answers (R461) -/

/-- A PMC request: its mailbox, TAG, TARGET, ARG, whether its record is malformed, its sender's ENC. -/
structure PmcCall where
  mbx : Nat
  tag : Nat
  target : Nat
  arg : Nat
  bad : Bool
  enc : Nat
deriving DecidableEq, Repr

/-- The request comes from the Secure world. -/
def PmcCall.secure (c : PmcCall) : Bool := c.mbx == 10

def FwMsg.pmc (x : FwMsg) (m : Nat) : PmcCall :=
  { mbx := m, tag := x.val / 2 ^ 16 % 65536, target := x.val / 2 ^ 32 % 65536, arg := x.val / 2 ^ 64 % 2 ^ 64
    bad := x.len != 16 || x.dmg || x.val / 2 ^ 8 % 256 != 0 || x.val / 2 ^ 48 % 65536 != 0, enc := x.enc }

/-- An answer in the mailbox paired with a request's; ESTATE is logged (R18). -/
def State.pmcAnswer (s : State) (mbx tag enc inst sts result : Nat) : State :=
  let s := if sts = ESTATE then s.logCmd 0x0A inst sts else s
  (s.fwAnswer (mbx + 1) (sts + tag * 65536 + (if sts = OK then result * 2 ^ 32 else 0)) 4 (mbx == 10) enc).fwGo mbx

/-- Mailbox m holds the request that arrived first among mailboxes 8 and 10 (R461). -/
def State.pmcFirst (s : State) (m : Nat) : Bool :=
  s.pmc.order.find? (fun n => (s.fwPeek n).isSome) == some m

/-- Execute the request at the head of mailbox 8 or 10, if it has the code and none arrived before it (R461): `k` gives its
status and result, or none where the answer comes later. -/
def State.pmcRun (s : State) (q : BitVec 1) (code : Nat) (k : State → PmcCall → State × Option (Nat × Nat)) : State :=
  let m := 8 + 2 * q.toNat
  match s.fwPeek m with
  | none => s
  | some x =>
    if x.val % 256 ≠ code ∨ s.fwRoom (m + 1) 1 = false ∨ s.pmcFirst m = false then s
    else
      let c := x.pmc m
      match k (s.fwTake m) c with
      | (s, some (sts, r)) => s.pmcAnswer m c.tag c.enc c.target sts r
      | (s, none) => s.fwGo m

/-- The status of a domain's last request (R481). -/
def State.domSts (s : State) (d sts : Nat) : State := if d < 20 then s.wr (PMC_DOM.LAST_STS d) sts else s

/-- A request whose answer comes at the end of a domain's transition is answered. -/
def State.domAnswer (s : State) (d : Nat) : State :=
  match Tbl.get? s.pmc.waits d with
  | none => s
  | some r =>
    (State.domSts { s with pmc := { s.pmc with waits := Tbl.erase s.pmc.waits d } } d OK).pmcAnswer r.mbx r.tag r.enc d OK 0

/-! ### Domains (R457 to R460) -/

/-- A domain starts POWERING (R460). -/
def State.domPower (s : State) (d : Nat) : State := s.wr (PMC_DOM.STATE d) 1

/-- Every stop of a CLOSING domain is drained: it is isolated and shows OFF or GATED (R459); its request is answered, and a
wake request or a reset that waits powers it on (R465, R570). -/
def State.domClosed (s : State) (d : Nat) : State :=
  let gate := (Tbl.get? s.pmc.waits d).any (fun r => r.code == 3)
  let s := { s with pmc := { s.pmc with drained := s.pmc.drained.filter (fun n => !(domStops d).contains n) } }
  let s := (s.domShow d (if gate then 4 else 0)).domAnswer d
  let rst := match s.sys.rst with
    | some t => t == d || (t == 12 && d == 13)
    | none => false
  if s.wakes.contains d || rst then State.domPower { s with wakes := s.wakes.filter (fun x => x != d) } d else s

/-- A domain starts CLOSING (R459), and so leaves ON for its mailboxes (R450); a domain without a stop of its own has nothing
to drain (R458). -/
def State.domClose (s : State) (d : Nat) : State :=
  let s := State.mbDomOff ((s.wr (PMC_DOM.STATE d) 3).setStops d 1) d
  if (domStops d).all (fun n => s.stopState n == 3) then s.domClosed d else s

/-- The domain that a stop belongs to. -/
def stopDom (n : Nat) : Option Nat := (List.range 20).find? (fun d => (domStops d).contains n)

/-- A CLOSING stop reports its drain (R181, R459). -/
def State.stopDrained (s : State) (n : Nat) : State :=
  if s.stopState n ≠ 1 then s
  else
    match stopDom n with
    | none => s
    | some d =>
      let l := if s.pmc.drained.contains n then s.pmc.drained else s.pmc.drained ++ [n]
      let s := { s with pmc := { s.pmc with drained := l } }
      if (domStops d).all (fun m => l.contains m || s.stopState m == 3) then s.domClosed d else s

def execStopDrained (st : Stop) (s : State) : Host.Outcome State Fault Refusal := s.ifRuns fun s => s.stopDrained st.val

/-- Work of a CLOSING stop that is unanswered at 10 µs is answered by the absorber (R181): messages for the stop, and
requests that its memory controller still holds. -/
def State.absorbWork (s : State) (n : Nat) : State :=
  let mine := s.msgs.filter (fun m => m.dst.val == n)
  let s := mine.foldl (fun s m => (s.arrive m).absorb n m 3) s
  (List.range 80).foldl (fun s ch =>
    let x := s.chan ch
    let r := x.rq.filter (fun e => (s.chanTarget ch e.req.line.toNat).1 == n)
    let s := s.setChan ch { x with rq := x.rq.filter (fun e => !r.contains e) }
    r.foldl (fun s e => s.memAnswer e.req onesLine true 3) s) s

def State.drainTimeout (s : State) (n : Nat) : State :=
  if s.stopState n ≠ 1 then s
  else
    match stopDom n with
    | some d => State.domClosed ((domStops d).foldl (fun s m => if s.stopState m = 1 then s.absorbWork m else s) s) d
    | none => s

def execStopDrainTimeout (st : Stop) (s : State) : Host.Outcome State Fault Refusal :=
  s.ifRuns fun s => s.drainTimeout st.val

/-- A POWERING domain shows ON and its stops become ACTIVE (R460); the stops of a die or a TQE under reset wait for the
end of the reset (R570). In BOOT the TQE's slot becomes ACTIVE with its domain, as a die's does at its link-up (R118). -/
def State.domPowered (s : State) (d : Nat) : State :=
  if s.rd (PMC_DOM.STATE d) ≠ 1 then s
  else
    let s := s.wr (PMC_DOM.STATE d) 2
    let s := if d = 12 ∧ s.pkgMode = 2 ∧ s.agentState 12 = 3 then s.wr (HUB_AGENT_STATE.SLOT 12) 0 else s
    let s := if s.sys.rst = some d then s else s.setStops d 0
    s.domAnswer d

def execDomainPowered (d : Dom) (s : State) : Host.Outcome State Fault Refusal := s.done (s.domPowered d.val)

/-! ### Checks (R463, R464) -/

/-- A die or TQE reset of the domain is running (R570). -/
def State.domReset (s : State) (d : Nat) : Bool :=
  match s.sys.rst with
  | some t => t == d || (t == 12 && d == 13)
  | none => false

/-- A function behind the ports of IOW (g = 0) or IOE (g = 1) has Bus Master Enable 1. -/
def State.groupBme (s : State) (g : Nat) : Bool :=
  s.ports.any (fun e => e.1 / 8 / 4 == g && e.2.bme) ||
  s.bmeExt.any (fun rid => match s.busPort (rid / 256) with
    | some p => p / 8 / 4 == g
    | none => false)

/-- An HBM granule is OWNED or LOCKED. -/
def State.hbmHeld (s : State) : Bool :=
  (List.range 49152).any (fun i =>
    let k := (s.motOf (0x4000000000000 / 0x200000 + i)).kind
    k == .owned || k == .locked)

/-- The domain may not leave ON (R464). -/
def State.domBusy (s : State) (d : Nat) : Bool :=
  (Tbl.get? s.pmc.held d).isSome || s.domReset d ||
  ((d == 14 || d == 15) && s.rd (halfState (16 * (d - 14))) != 0) ||
  (d == 12 && s.rings.any (fun e => e.2.st == 2 || e.2.st == 3 || e.2.st == 5)) ||
  (d < 12 && (List.range 24).any (fun k => (s.core (24 * d + k)).online)) ||
  ((d == 16 || d == 17) && s.groupBme (d - 16)) ||
  ((d == 18 || d == 19) && s.on OWN_CTL.EN && s.hbmHeld)

/-- The status of DOM_ON (1), DOM_OFF (2) or DOM_GATE (3). -/
def State.domCheck (s : State) (code : Nat) (c : PmcCall) : Nat :=
  let d := c.target
  let st := s.rd (PMC_DOM.STATE d)
  firstBad [
    (c.bad || c.arg != 0 || decide (20 ≤ d) || (code == 3 && (d == 14 || d == 15 || d == 18 || d == 19)), EINVAL),
    (s.noHbm d, ENODEV),
    (match code with
      | 1 => (st != 0 && st != 4) || s.pkgMode == 4 || s.domReset d
      | 2 => (st != 2 && st != 4) || s.domBusy d
      | _ => st != 2 || s.domBusy d, ESTATE)]

/-- A request that passed its checks is executed; its answer follows the transition. -/
def State.domExec (s : State) (code d : Nat) (r : PmcReq) : State :=
  let s := { s with pmc := { s.pmc with waits := Tbl.set s.pmc.waits d r } }
  if code = 1 then s.domPower d
  else if s.rd (PMC_DOM.STATE d) = 4 then (s.domShow d 0).domAnswer d
  else s.domClose d

/-- DOM_ON, DOM_OFF and DOM_GATE. A Normal-world request against a claimed domain is held (R335, R465). -/
def State.domReq (s : State) (code : Nat) (c : PmcCall) : State × Option (Nat × Nat) :=
  let d := c.target
  let sts := s.domCheck code c
  let r : PmcReq := ⟨code, c.tag, c.mbx, c.enc, s.now.toNat⟩
  if sts ≠ OK then (s.domSts d sts, some (sts, 0))
  else if code ≠ 1 ∧ c.secure = false ∧ s.claimed d then
    (({ s with pmc := { s.pmc with held := Tbl.set s.pmc.held d r } }.wr (PMC_DOM.HELD d) 1).domSts d DEFERRED,
      some (DEFERRED, 0))
  else (s.domExec code d r, none)

def execDomOn (q : BitVec 1) (s : State) : Host.Outcome State Fault Refusal :=
  s.done (s.pmcRun q 1 (fun s c => s.domReq 1 c))

def execDomOff (q : BitVec 1) (s : State) : Host.Outcome State Fault Refusal :=
  s.done (s.pmcRun q 2 (fun s c => s.domReq 2 c))

def execDomGate (q : BitVec 1) (s : State) : Host.Outcome State Fault Refusal :=
  s.done (s.pmcRun q 3 (fun s c => s.domReq 3 c))

/-- A held request ends with a status. -/
def State.heldEnd (s : State) (d : Nat) (r : PmcReq) (sts : Nat) : State :=
  ((({ s with pmc := { s.pmc with held := Tbl.erase s.pmc.held d } }.wr (PMC_DOM.HELD d) 0).domSts d sts).pmcAnswer r.mbx
    r.tag r.enc d sts 0)

/-- A held request is checked again and executed (R335, R465). -/
def State.heldRun (s : State) (d : Nat) : State :=
  match Tbl.get? s.pmc.held d with
  | none => s
  | some r =>
    if r.since + 100000000 < s.now.toNat then s.heldEnd d r CLAIM_TIMEOUT
    else
      let s' := { s with pmc := { s.pmc with held := Tbl.erase s.pmc.held d } }.wr (PMC_DOM.HELD d) 0
      let sts := s'.domCheck r.code ⟨r.mbx, r.tag, d, 0, false, r.enc⟩
      if sts ≠ OK then s.heldEnd d r sts else s'.domExec r.code d r

/-- RELEASE (R334, R335). -/
def State.releaseCall (s : State) (c : SepCall) : State × Nat × Nat :=
  let d := c.w 1
  let sts := firstBad [
    (!c.world || c.enc != 0, EPERM), (c.bad 1 || decide (22 ≤ d), EINVAL), (s.noHbm d, ENODEV),
    (!s.claimed d, ESTATE)]
  if sts ≠ OK then (s, sts, 0)
  else (State.heldRun (s.wr SEP_CLAIMS.CLAIMED (s.rd SEP_CLAIMS.CLAIMED - 2 ^ d)) d, OK, 0)

def execRelease (q : BitVec 2) (s : State) : Host.Outcome State Fault Refusal :=
  s.done (s.sepRun q.toNat 9 State.releaseCall)

/-- 100 ms have passed since a deferral (R335). -/
def State.claimExpire (s : State) (d : Nat) : State :=
  match Tbl.get? s.pmc.held d with
  | some r => s.heldEnd d r CLAIM_TIMEOUT
  | none => s

def execClaimTimeoutExpire (d : Dom) (s : State) : Host.Outcome State Fault Refusal := s.done (s.claimExpire d.val)

/-! ### Clusters and cores (R462, R466, R467, R470, R571) -/

/-- The die is isolated, or was never present. -/
def State.dieGone (s : State) (t : Nat) : Bool := !(s.rd HUB_POP.TCD_PRESENT).testBit t

def State.clusPerf (s : State) (c : PmcCall) : State × Option (Nat × Nat) :=
  let k := c.target
  let lo := c.arg % 8
  let hi := c.arg / 16 % 8
  let deep := c.arg / 256 % 4
  let sts := firstBad [
    (c.bad || decide (72 ≤ k) || c.arg != lo + 16 * hi + 256 * deep || decide (hi < lo) || hi == 7 || deep == 3, EINVAL),
    (s.dieGone (k / 6) || s.pmc.tripped.contains k, ENODEV), (!s.domOn (k / 6), ESTATE)]
  if sts ≠ OK then (s, some (sts, 0))
  else
    ((((s.wr (PMC_CLUS.MIN_PS k) lo).wr (PMC_CLUS.MAX_PS k) hi).wr (PMC_CLUS.DEEP k) deep),
      some (OK, s.rd (PMC_CLUS.PS k)))

def execClusPerf (q : BitVec 1) (s : State) : Host.Outcome State Fault Refusal := s.done (s.pmcRun q 4 State.clusPerf)

/-- The set point of an operating point in mV, and its frequency in MHz (R466). -/
def psVolt (ps : Nat) : Nat := [550, 650, 720, 800, 880, 960, 1050].getD ps 0
def psFreq (ps : Nat) : Nat := [1000, 1600, 2000, 2400, 2800, 3200, 3600].getD ps 0

/-- A core's L1 and L2 hold nothing any more: what they held dirty is in the L3 (R470, R568). -/
def State.coreFlush (s : State) (c : Nat) : State :=
  let t := dieOf c
  { s with l3 := s.l3.map (fun (e : Nat × L3Line) => if e.1 / 2 ^ 46 = t then (e.1, e.2.dropCore (c % 24)) else e) }

/-- The core is powered off; its registers are lost (R462, R568, R571). -/
def State.coreOff (s : State) (c : Nat) : State :=
  let s := (s.coreFlush c).coreRegsReset c 1
  let s := s.setCore c CoreSt.init
  -- a core that is off has nothing to acknowledge (R297)
  let s : State := { s with tcdInv := s.tcdInv.map (fun (e : TcdInv) =>
    if e.tcd = dieOf c then { e with cores := clrBit e.cores (c % 24) } else e) }
  s.wr (PMC_CLUS.ONLINE (c / 4)) (s.rd (PMC_CLUS.ONLINE (c / 4)) &&& (15 - 2 ^ (c % 4)))

/-- The number of online cores. -/
def State.onlineCores (s : State) : Nat := (s.cores.filter (fun e => e.2.online)).length

/-- The core exists on this SKU, on a die that is not isolated, in a cluster that has not lost its regulator (R213). -/
def State.coreReal (s : State) (c : Nat) : Bool :=
  decide (c % 4 < s.rd HUB_POP.CORES_PER_CLUSTER) && !s.dieGone (dieOf c) && !s.pmc.tripped.contains (c / 4)

/-- The PMC keeps from which world the last offline request of a core came (R463). -/
def State.offFrom (s : State) (c : Nat) (secure : Bool) : State :=
  let l := s.pmc.secOff.filter (fun k => k != c)
  { s with pmc := { s.pmc with secOff := if secure then l ++ [c] else l } }

def State.coreOffline (s : State) (c : PmcCall) : State × Option (Nat × Nat) :=
  let n := c.target
  let x := s.core n
  let sts := firstBad [
    (c.bad || decide (288 ≤ n) || c.arg != 0, EINVAL), (!s.coreReal n, ENODEV),
    (x.idle == 0 || (x.online && s.onlineCores == 1), ESTATE)]
  if sts ≠ OK then (s, some (sts, 0)) else ((s.coreOff n).offFrom n c.secure, some (OK, 0))

def execCoreOffline (q : BitVec 1) (s : State) : Host.Outcome State Fault Refusal := s.done (s.pmcRun q 5 State.coreOffline)

/-- A core starts at W in the Secure world at an address (R571). -/
def State.coreStart (s : State) (c pc : Nat) : State :=
  let s := s.coreRegsReset c 1
  let s := s.setCore c { CoreSt.init with online := true, pc := pc, idle := 0 }
  (s.wr (WCTL.WORLD c) 1).wr (PMC_CLUS.ONLINE (c / 4)) (s.rd (PMC_CLUS.ONLINE (c / 4)) ||| 2 ^ (c % 4))

def State.coreOnline (s : State) (c : PmcCall) : State × Option (Nat × Nat) :=
  let n := c.target
  let sts := firstBad [
    (!c.secure && s.pmc.secOff.contains n, EPERM),
    (c.bad || decide (288 ≤ n) || c.arg % 4 != 0 || decide (2 ^ 52 ≤ c.arg), EINVAL), (!s.coreReal n, ENODEV),
    ((s.core n).online || !s.domOn (dieOf n) || s.domReset (dieOf n), ESTATE)]
  if sts ≠ OK then (s, some (sts, 0)) else (s.coreStart n c.arg, some (OK, 0))

def execCoreOnline (q : BitVec 1) (s : State) : Host.Outcome State Fault Refusal := s.done (s.pmcRun q 6 State.coreOnline)

/-- SET_LIMIT with an authority that may lock (R462 to R464, R481). -/
def State.setLimit (s : State) (secure : Bool) (v : Nat) (bad : Bool) : State × Nat :=
  let w := v % 2048
  let sts := firstBad [
    (!secure && s.on PMC_LIMIT.LOCK, EPERM),
    (bad || v != w + v / 2 ^ 31 % 2 * 2 ^ 31 || decide (w < 700) || decide (1100 < w), EINVAL), (s.pkgMode == 4, ESTATE)]
  if sts ≠ OK then (s, sts)
  else
    let s := s.wr PMC_LIMIT.LIMIT_W w
    (if secure ∧ v / 2 ^ 31 % 2 = 1 then s.wr PMC_LIMIT.LOCK 1 else s, OK)

def execSetLimit (q : BitVec 1) (s : State) : Host.Outcome State Fault Refusal :=
  s.done (s.pmcRun q 7 (fun s c => let r := s.setLimit c.secure c.arg (c.bad || c.target != 0); (r.1, some (r.2, 0))))

def State.setRide (s : State) (c : PmcCall) : State × Option (Nat × Nat) :=
  let w := c.arg % 2048
  let ms := c.arg / 2 ^ 16 % 65536
  let sts := firstBad [
    (!c.secure && s.on PMC_LIMIT.LOCK, EPERM),
    (c.bad || c.target != 0 || c.arg != w + ms * 65536 || decide (w < 200) || decide (700 < w) || decide (ms < 10) || decide (60000 < ms),
      EINVAL)]
  if sts ≠ OK then (s, some (sts, 0))
  else ((s.wr PMC_LIMIT.RIDE_CAP_W w).wr PMC_RIDE.RETURN_MS ms, some (OK, 0))

def execSetRide (q : BitVec 1) (s : State) : Host.Outcome State Fault Refusal := s.done (s.pmcRun q 8 State.setRide)

def State.pmcQuery (s : State) (c : PmcCall) : State × Option (Nat × Nat) :=
  let d := c.target
  let sts := firstBad [(c.bad || decide (20 ≤ d) || c.arg != 0, EINVAL), (s.noHbm d, ENODEV)]
  if sts ≠ OK then (s, some (sts, 0))
  else (s, some (OK, s.rd (PMC_DOM.STATE d) + (s.claimed d).toNat * 8 + s.rd (PMC_DOM.HELD d) * 16))

def execPmcQuery (q : BitVec 1) (s : State) : Host.Outcome State Fault Refusal := s.done (s.pmcRun q 9 State.pmcQuery)

/-! ### Power and operating points (R467 to R469) -/

/-- The rated current of a regulator in mA, by the numbers of R213's units: clusters, TCD uncores, the two hub core ones,
the HMC halves, TQE and CX, IOW and IOE (R211). -/
def regRated (r : Nat) : Nat :=
  if r < 72 then 30000 else if r < 84 then 20000 else if r < 86 then 100000 else if r < 90 then 30000 else 20000

/-- The output range of a regulator in mV (R211). -/
def regRange (r : Nat) : Nat × Nat := if r < 72 then (550, 1050) else (700, 900)

/-- The cluster is in IDLE3: DEEP allows it and every present core is in IDLE2; it stands at the voltage of PS 0 with its
clock generator off until a core of it wakes (R470). -/
def State.clusterOff (s : State) (k : Nat) : Bool :=
  s.rd (PMC_CLUS.DEEP k) == 2 &&
    (List.range (s.rd HUB_POP.CORES_PER_CLUSTER)).all (fun i => (s.core (4 * k + i)).idle == 2)

/-- The set point of a regulator in mV: the cluster's operating point or IDLE3 (R466, R470), 0.80 V for a TCD uncore (R466),
and for the others a step of 5 mV in their range that the spec leaves open (R211, R212; DESIGN CHOICE, assumption 66). -/
def State.setPoint (s : State) (r : Nat) : Nat :=
  if r < 72 then (if s.clusterOff r then psVolt 0 else Tbl.getD s.pmc.volts r 0)
  else if r < 84 then 800
  else (regRange r).1 + 5 * (Config.setPoint r % (((regRange r).2 - (regRange r).1) / 5 + 1))

/-- The input power of a regulator in mW. -/
def State.regMw (s : State) (r : Nat) : Nat :=
  let i := Tbl.getD s.pmc.amps r 0
  i * s.setPoint r / Config.efficiency r i

/-- The power of the stacks of an HBM half, domain 18 or 19, in mW: none while it is OFF or absent (R469). -/
def State.stackMw (s : State) (d : Nat) : Nat :=
  if s.noHbm d ∨ s.rd (PMC_DOM.STATE d) = 0 then 0 else Config.hbmMw (d - 18) s.freeCtr

/-- The package's power, and the part of it inside the cores, in mW (R469). -/
def State.powerMw (s : State) : Nat × Nat :=
  let cores := ((List.range 72).map (fun r => s.regMw r)).sum
  let rest := ((List.range 20).map (fun r => s.regMw (72 + r))).sum
  (cores + rest + s.pmc.rails + s.stackMw 18 + s.stackMw 19, cores)

/-- The loop's flow is known: a report has come, or the PDT's floor stands in for it (R474, R475). -/
def State.flowKnown (s : State) : Bool := s.rd PMC_THERM.FLOW != 0 || s.pmc.tins != []

/-- The budget in force, in W (R468). -/
def State.budget (s : State) : Nat :=
  let b := min (s.rd PMC_LIMIT.LIMIT_W) (if s.flowKnown then s.rd PMC_POWER.ALLOW_W else 1100)
  if s.pkgMode = 4 ∨ s.pmc.lost = true then min b (s.rd PMC_LIMIT.RIDE_CAP_W) else b

/-- The power of the clusters at their points, busy clusters with k eighths of their clocks stopped. -/
def ptsMw (busy : BitVec 72) (ps : List Nat) (k : Nat) : Nat :=
  ((List.range 72).map (fun i =>
    let w := Config.clusterMw i (ps.getD i 0)
    if busy.getLsbD i then w * (8 - k) / 8 else w)).sum

/-- The busy cluster that is lowered next: the highest, above its floor, the lowest-numbered on a tie. -/
def lowerNext (busy : BitVec 72) (ps floor : List Nat) : Option Nat :=
  [6, 5, 4, 3, 2, 1].findSome? (fun v =>
    (List.range 72).find? (fun i => busy.getLsbD i && ps.getD i 0 == v && decide (floor.getD i 0 < v)))

/-- Busy clusters are lowered one step at a time, highest first, until the budget is met (R468). -/
def fitPts (busy : BitVec 72) (floor : List Nat) (cap : Nat) : Nat → List Nat → List Nat
  | 0, ps => ps
  | n + 1, ps =>
    if ptsMw busy ps 0 ≤ cap then ps
    else
      match lowerNext busy ps floor with
      | some i => fitPts busy floor cap n (ps.set i (ps.getD i 0 - 1))
      | none => ps

/-- A cluster takes an operating point: a fall at once, a rise when its voltage has risen (R467). -/
def State.takePs (s : State) (k ps : Nat) : State :=
  if ps ≤ s.rd (PMC_CLUS.PS k) then
    { s.wr (PMC_CLUS.PS k) ps with pmc := { s.pmc with
        psNext := Tbl.erase s.pmc.psNext k, volts := Tbl.set s.pmc.volts k (psVolt ps) } }
  else { s with pmc := { s.pmc with
        psNext := Tbl.set s.pmc.psNext k ps, volts := Tbl.set s.pmc.volts k (psVolt ps) } }

/-- The end of a 1 ms control interval; `busy` are the clusters that were not idle for the whole of it (R468, R469). -/
def State.pmcInterval (s : State) (busy : BitVec 72) : State :=
  let (now, cores) := s.powerMw
  let hbm := s.stackMw
  let s := { s with freeCtr := s.freeCtr + 1 }
  let hist := (s.pmc.hist ++ [now / 1000]).drop (s.pmc.hist.length + 1 - max 1 (s.rd PMC_LIMIT.WINDOW_MS))
  let s := { s with pmc := { s.pmc with hist := hist } }
  let b := s.budget
  let s := ((s.wr PMC_POWER.NOW_W (now / 1000)).wr PMC_POWER.AVG_W (hist.sum / max 1 hist.length)).wr PMC_POWER.BUDGET_W b
  let s := (List.range 20).foldl (fun s d =>
    let rs := if d < 12 then (List.range 6).map (fun k => 6 * d + k) ++ [72 + d]
      else if d = 12 then [88] else if d = 13 then [89] else if d = 14 then [86] else if d = 15 then [87]
      else if d = 16 then [90] else if d = 17 then [91] else []
    s.wr (PMC_DOM.EST_W d) (((rs.map (fun r => s.regMw r)).sum + (if d < 18 then 0 else hbm d)) / 1000)) s
  let outside := now - cores
  let cap := 1000 * b - outside
  let lim (k : Nat) : Nat :=
    let m := s.rd (PMC_CLUS.MAX_PS k)
    if s.pmc.hot.contains k then min m (s.rd (PMC_CLUS.PS k)) else m
  let floor := (List.range 72).map (fun k => min (s.rd (PMC_CLUS.MIN_PS k)) (lim k))
  let want := (List.range 72).map (fun k => if busy.getLsbD k then lim k else floor.getD k 0)
  let ps := fitPts busy floor cap 432 want
  let k := if ptsMw busy ps 0 ≤ cap then 0 else ((List.range 8).find? (fun k => decide (ptsMw busy ps k ≤ cap))).getD 7
  let s := if ptsMw busy ps k ≤ cap then s else s.raise PMC_STS.fCAPMISS
  let s := (List.range 72).foldl (fun s i =>
    (s.takePs i (ps.getD i 0)).wr (PMC_CLUS.STOP8 i) (if busy.getLsbD i then k else 0)) s
  s.srcSync 52

def execPmcControlInterval (busy : BitVec 72) (s : State) : Host.Outcome State Fault Refusal := s.done (s.pmcInterval busy)

/-- A rising voltage has reached its set point: the frequency switches (R467). -/
def State.rampDone (s : State) (k : Nat) : State :=
  match Tbl.get? s.pmc.psNext k with
  | some ps => { s.wr (PMC_CLUS.PS k) ps with pmc := { s.pmc with psNext := Tbl.erase s.pmc.psNext k } }
  | none => s

def execVoltageRampDone (k : BitVec 7) (s : State) : Host.Outcome State Fault Refusal := s.done (s.rampDone k.toNat)

/-- 50 µs in IDLE1: a core enters IDLE2 where its cluster allows it (R470); its cluster is then in IDLE3 once every present
core is in IDLE2 (`clusterOff`). -/
def State.idle2 (s : State) (c : Nat) : State :=
  let k := c / 4
  let x := s.core c
  if x.idle ≠ 1 ∨ s.rd (PMC_CLUS.DEEP k) = 0 then s
  else (s.coreFlush c).modCore c (fun x => { x with idle := 2 })

def execIdle2Entry (c : Core) (s : State) : Host.Outcome State Fault Refusal := s.ifRuns fun s => s.idle2 c.val

/-- A regulator's sample (R212), in mA. -/
def execRegulatorSample (r : BitVec 7) (ma : BitVec 24) (s : State) : Host.Outcome State Fault Refusal :=
  s.done { s with pmc := { s.pmc with amps := Tbl.set s.pmc.amps r.toNat ma.toNat } }

/-- The board's rails, in mW (R469). -/
def execRailReport (mw : BitVec 24) (s : State) : Host.Outcome State Fault Refusal :=
  s.done { s with pmc := { s.pmc with rails := mw.toNat } }

/-! ### The cooling loop (R474 to R476) -/

/-- The inlet temperature 10 s ahead, in 0.25 °C: the last report and ten seconds of the slope of the last 10 s. -/
def State.tinPred (s : State) : Nat :=
  let t := s.rd PMC_THERM.T_IN
  match s.pmc.tins, s.pmc.tins.getLast? with
  | (t0, v0) :: _, some (t1, v1) =>
    if t0 < t1 then ((t : Int) + 10000000000 * ((v1 : Int) - v0) / ((t1 : Int) - t0)).toNat else t
  | _, _ => t

/-- The greatest r of at most n bits with r^5 ≤ v. -/
def root5 (v : Nat) : Nat → Nat → Nat
  | 0, r => r
  | n + 1, r => if (r + 2 ^ n) ^ 5 ≤ v then root5 v n (r + 2 ^ n) else root5 v n r

/-- The cold plate's resistance r0 · (f0 / flow)^0.8 in µK/W, rounded down, for a flow in 0.01 L/min (R474; the rounding is
assumption 84). At no flow the formula has no value, and 0 stands here. -/
def State.plateRes (s : State) (flow : Nat) : Nat := root5 (s.pmc.r0 ^ 5 * s.pmc.f0 ^ 4 / flow ^ 4) 46 0

/-- The plate's temperature in µK above 0 °C after n steps of 100 ms towards its steady value: a first-order lag of 8 s,
e^(-0.0125) to seven places (R474; assumption 84). -/
def plateAfter (t ss n : Nat) : Nat := ((ss : Int) + ((t : Int) - ss) * 9875778 ^ n / 10000000 ^ n).toNat

/-- The modelled plate moves on to the present time (R474). It stands still while no flow is known. -/
def State.plateMove (s : State) : State :=
  let n := min 4096 ((s.now.toNat - s.pmc.plateAt) / 100000000)
  let flow := s.rd PMC_THERM.FLOW
  if s.flowKnown = false then { s with pmc := { s.pmc with plateAt := s.now.toNat } }
  else
    let ss := s.tinPred * 250000 + s.rd PMC_POWER.NOW_W * s.plateRes flow
    let t := if flow = 0 then Config.plateNoFlow s.pmc.plate n else plateAfter s.pmc.plate ss n
    { s with pmc := { s.pmc with plate := t, plateAt := s.pmc.plateAt + 100000000 * n } }.wr PMC_THERM.PLATE
      (min 1023 (t / 250000))

/-- The power the loop allows is computed from the flow and inlet in use (R474): none at all without flow. -/
def State.coolUpdate (s : State) : State :=
  if s.flowKnown = false then s
  else
    -- a division by 0 gives 0, the limit of P_ALLOW as the flow goes to 0
    let allow := min 2047 ((s.rd PMC_THERM.PLATE_LIM - s.tinPred) * 250000 / s.plateRes (s.rd PMC_THERM.FLOW))
    let s := s.wr PMC_POWER.ALLOW_W allow
    (if allow < s.rd PMC_LIMIT.LIMIT_W then s.raise PMC_STS.fFLOWTHR else s).srcSync 52

/-- A CDU frame's report, in the units of PMC_THERM (R474, R532). -/
def State.cduReport (s : State) (flow tin tout : Nat) : State :=
  let t := s.now.toNat
  let s := s.plateMove
  let s := (((s.wr PMC_THERM.FLOW flow).wr PMC_THERM.T_IN tin).wr PMC_THERM.T_OUT tout).wr PMC_THERM.AGE 0
  State.coolUpdate { s with pmc := { s.pmc with
    tins := s.pmc.tins.filter (fun e => decide (t ≤ e.1 + 10000000000)) ++ [(t, tin)] } }

/-- No report for 1 s: the PDT's floor and 45 °C are used (R475). -/
def execCduStale (s : State) : Host.Outcome State Fault Refusal :=
  s.done (State.coolUpdate ({ (s.plateMove.wr PMC_THERM.FLOW s.pmc.floor).wr PMC_THERM.T_IN 180 with
    pmc := { s.pmc with tins := [] } }.raise PMC_STS.fCDU_STALE))

/-- A junction sensor reads `tj` while its cluster is hot or has reached 100 °C: the cluster drops one operating point,
until the sensor reads below 98 °C (R475). -/
def State.junctionHot (s : State) (k tj : Nat) : State :=
  let s := s.wr (PMC_CLUS.TJ k) tj
  let hot := s.pmc.hot.contains k
  if 100 ≤ tj ∨ (hot = true ∧ 98 ≤ tj) then
    let s := if hot then s else { s with pmc := { s.pmc with hot := s.pmc.hot ++ [k] } }
    let s := if 100 ≤ tj then s.raise PMC_STS.fTJHOT else s
    (s.takePs k (s.rd (PMC_CLUS.PS k) - 1)).srcSync 52
  else { s with pmc := { s.pmc with hot := s.pmc.hot.filter (fun x => x != k) } }

def execJunctionHot (k : BitVec 7) (tj : BitVec 8) (s : State) : Host.Outcome State Fault Refusal :=
  s.done (if 72 ≤ k.toNat then s else s.junctionHot k.toNat tj.toNat)

/-- A junction reaches 115 °C (R475, R498). -/
def execJunctionFatal (k : BitVec 7) (s : State) : Host.Outcome State Fault Refusal :=
  s.done ((s.wr (PMC_CLUS.TJ k.toNat) 115).report { rec0 .fatal 0x0A k.toNat 0xC3 with quar := true })

/-- The forecast of R476: P_1S and P_10S in W. -/
def State.forecast (s : State) : Nat × Nat :=
  let (now, cores) := s.powerMw
  let full := ((List.range 72).map (fun k =>
    if s.rd (PMC_CLUS.ONLINE k) = 0 then 0 else Config.clusterMw k (s.rd (PMC_CLUS.MAX_PS k)))).sum
  (min s.budget ((now - cores + full) / 1000), s.budget)

/-- The HEAT frame (R476, R532). -/
def State.heatSend (s : State) : State :=
  let h := s.pmc.hist.drop (s.pmc.hist.length - 100)
  let w0 := h.sum / max 1 h.length + s.rd PMC_FCAST.P_1S * 2 ^ 16 + s.rd PMC_FCAST.P_10S * 2 ^ 32 +
    s.rd PMC_THERM.PLATE * 2 ^ 48
  let w1 := s.rd PMC_THERM.FLOW + s.rd PMC_THERM.T_IN * 2 ^ 16 + s.pkgMode * 2 ^ 32
  s.rlySend 2 1 0 0 false 0 (bytesOf w0 8 ++ bytesOf w1 8)

/-- Every 100 ms: the age of the last report grows, and the forecast leaves. -/
def State.heatForecast (s : State) : State :=
  let s := s.plateMove
  let f := s.forecast
  let s := ((s.wr PMC_FCAST.P_1S f.1).wr PMC_FCAST.P_10S f.2).wr PMC_THERM.AGE (min 255 (s.rd PMC_THERM.AGE + 1))
  State.heatSend { s with freeCtr := s.freeCtr + 1 }

def execHeatForecast (s : State) : Host.Outcome State Fault Refusal := s.done s.heatForecast

/-! ### Mains loss (R477) -/

/-- A mains-loss notice; one from PWRFAIL_N originates MAINS_LOST while ML_OUT is 1 (R477, R531). A second notice of the
same loss is ignored, but holds off the return (R479). -/
def State.mainsLoss (s : State) (ring : Bool) : State :=
  let s : State := if ring then s else { s with sys := { s.sys with pwrfailN := false } }
  let first : Bool := !s.pmc.lost
  let s : State := { s with pmc := { s.pmc with lost := true, backAt := none } }
  let s : State := if ring = false ∧ s.on RLY_CTL.ML_OUT ∧ first then
      let s := s.rlyOut (.set false (s.rd RLY_POS.POS))
      { s with rly := { s.rly with reps := s.rly.reps ++ [(false, 8)] } }
    else s
  if first = false ∨ s.pkgMode = 0 ∨ s.pkgMode = 1 then s
  else
    let s := s.raise PMC_STS.fONBATT
    -- the ride notice on the ring is a HEAT frame, whose PKG_MODE says RIDE (assumption 84)
    let s := if s.pkgMode = 3 then (((List.range 72).foldl (fun s k => s.takePs k 0) s).setMode 4).heatSend else s
    s.srcSync 52

def execMainsLoss (ring : Bool) (s : State) : Host.Outcome State Fault Refusal := s.done (s.mainsLoss ring)

/-- PWRFAIL_N is high again: the wait for mains return starts (R479). -/
def execPwrfailNRise (s : State) : Host.Outcome State Fault Refusal :=
  s.done (if s.sys.pwrfailN then s
    else { s with sys := { s.sys with pwrfailN := true }, pmc := { s.pmc with backAt := some s.now.toNat } })

end Sys2Proof.Machine
end

