-- ==== Sys2Proof/Machine/Stride.lean ====
section
/-!
DEFINITION. Stride links: link-up and training (R197 to R201), capability records (R202 to R207), partial reset and the
width check (R208 to R210), slots from the die and link control (R190 to R195), the commands of STR_CMD (R216, R217).
-/
namespace Sys2Proof.Machine

/-! ### Capability records (R202 to R206) -/

def State.setCap (s : State) (lo hi : Fld) (r : BitVec 128) : State :=
  (s.wr lo (r.toNat % 2 ^ 64)).wr hi (r.toNat / 2 ^ 64)

/-- The hub end's own record (R217; its values that the spec does not state by assumption 58). -/
def State.capLocal (s : State) (t : Nat) : BitVec 128 := s.capReg (STR_CAP_LOCAL_LO.CAP t) (STR_CAP_LOCAL_HI.CAP t)

/-- The result of the exchange (R204); a feature bit that R203 does not define is dropped, and the bits of the record that the
table of R204 does not name read 0 (assumption 57). -/
def capResult (hub die : BitVec 128) : BitVec 128 :=
  let rev := min (capBits hub 95 92) (capBits die 95 92)
  let res := min (capBits hub 83 83) (capBits die 83 83)
  BitVec.ofNat 128 (
    capBits die 127 112 * 2 ^ 112 + rev * 2 ^ 92 + 2 ^ rev % 16 * 2 ^ 84 + res * 2 ^ 83 + (1 - res) * 2 ^ 82 +
    capBits die 81 81 * 2 ^ 81 + capBits die 79 78 * 2 ^ 78 + min (capBits hub 75 64) (capBits die 75 64) * 2 ^ 64 +
    (capBits hub 63 32 &&& capBits die 63 32 &&& 0x3FF) * 2 ^ 32 + (capBits hub 31 16 &&& capBits die 31 16) * 2 ^ 16)

/-- The groups of a set (R200). -/
def setGroups (width set : Nat) : Nat :=
  match width with
  | 0 => 0xFFFF
  | 1 => 0xFF * 2 ^ (8 * (set % 2))
  | _ => 0xF * 2 ^ (4 * (set % 4))

/-- Every group of the set is in the mask. -/
def setIn (mask width set : Nat) : Bool := mask &&& setGroups width set == setGroups width set

/-- Why the hub refuses a link (R205); 0 where it does not. -/
def capRefuse (hub die : BitVec 128) (foreign : Bool) : Nat :=
  let r := capResult hub die
  let rev := capBits r 95 92
  firstBad [
    (rev < capBits hub 91 88 || rev < capBits die 91 88 ||
      !((capBits hub 87 84).testBit rev && (capBits die 87 84).testBit rev), 1),
    (capBits die 83 82 == 0, 2),
    (capBits die 81 81 == 0, 3),
    (!(List.range 4).any (fun k => setIn (capBits r 31 16) 2 k), 4),
    (2 ≤ capBits die 79 78, 5),
    (capBits die 127 112 != 0x5D1C && !foreign, 6)]

/-! ### Link states (R197, R198) -/

def State.linkState (s : State) (t : Nat) : Nat := s.rd (STR_STATE.STATE t)

/-- A flag of the link with its record. -/
def State.strEvent (s : State) (t : Nat) (g : Flag) (sev : Sev) (bit : Nat) : State :=
  (s.raise g).report (rec0 sev 4 t bit)

/-- A training starts: no attempt has failed, nothing is proposed (R199). -/
def State.trainStart (s : State) (t st : Nat) : State :=
  let s := (s.wr (STR_STATE.STATE t) st).wr (STR_STATE.ATTEMPT t) 0
  s.setLink t { s.link t with mask := 0xFFFF, prop := none, heldMsg := none, matched := false }

/-- The link enters RETRAIN, and both ends hold every flit (R209). -/
def State.retrain (s : State) (t : Nat) : State := (s.trainStart t 3).wr (STR_STATE.HOLD t) 1

/-- The link enters FAILED; from RETRAIN its die is isolated (R198). -/
def State.linkFail (s : State) (t : Nat) : State :=
  let again := s.linkState t == 3
  let s := (s.strEvent t (STR_STS.fFAIL t) .error 7).wr (STR_STATE.STATE t) 4
  let s := s.wr (STR_STATE.HOLD t) 0
  if again && s.agentState t != 2 then s.agentDead t else s

/-- A training attempt fails; the third ends the training (R197, R199). A width-check message held meanwhile has nothing to be
compared with, and is discarded (assumption 60). -/
def State.attemptFail (s : State) (t : Nat) : State :=
  let n := s.rd (STR_STATE.ATTEMPT t) + 1
  let s := (s.strEvent t (STR_STS.fATTFAIL t) .corr 6).wr (STR_STATE.ATTEMPT t) n
  let s := s.setLink t { s.link t with prop := none, heldMsg := none, matched := false }
  if 3 ≤ n then s.linkFail t else s

/-- The link is in a training attempt: in RETRAIN, or in TRAIN once the capability result is there (R199). -/
def State.inTraining (s : State) (t : Nat) : Bool :=
  s.linkState t == 3 || (s.linkState t == 1 && s.capRes t != 0)

/-- Both sideband ends report ready (R197). No link carries traffic in DIETEST (R215). -/
def State.sidebandReady (s : State) (t : Nat) : State :=
  if s.linkState t ≠ 0 ∨ s.rd (PMC_DOM.STATE t) ≠ 2 ∨ s.pkgMode = 7 ∨ s.pkgMode = 1 then s
  else
    (((s.trainStart t 1).setCap (STR_CAP_REMOTE_LO.CAP t) (STR_CAP_REMOTE_HI.CAP t) 0).setCap
      (STR_CAP_RES_LO.CAP t) (STR_CAP_RES_HI.CAP t) 0).wr (STR_STATE.REFUSE t) 0

def execLinkSidebandReady (t : Tcd) (s : State) : Host.Outcome State Fault Refusal :=
  s.ifRuns fun s => s.sidebandReady t.val

/-- The records have been exchanged: the link is refused, or takes the result (R204 to R206). -/
def State.capExchange (s : State) (t : Nat) (r : BitVec 128) : State :=
  if s.linkState t ≠ 1 ∨ s.capRes t ≠ 0 then s
  else
    let s := s.setCap (STR_CAP_REMOTE_LO.CAP t) (STR_CAP_REMOTE_HI.CAP t) r
    let why := capRefuse (s.capLocal t) r (s.on (STR_CTL.FOREIGN_OK t))
    if why ≠ 0 then (s.wr (STR_STATE.REFUSE t) why).linkFail t
    else
      let v := capResult (s.capLocal t) r
      let s := s.setCap (STR_CAP_RES_LO.CAP t) (STR_CAP_RES_HI.CAP t) v
      let s := (s.wr (STR_STATE.REV t) (capBits v 95 92)).wr (STR_STATE.DL t) (1 - capBits v 83 83)
      s.wr (STR_STATE.MTAG0 t) (if capBits v 95 92 = 1 ∨ s.linkHas t 2 = false then 1 else 0)

def execCapabilityExchange (t : Tcd) (r : BitVec 128) (s : State) : Host.Outcome State Fault Refusal :=
  s.ifRuns fun s => s.capExchange t.val r

/-! ### Training (R199 to R201, R210) -/

/-- Bad wires of a group, as a mask over wires 0 to 87. -/
def State.badWires (s : State) (t g : Nat) : BitVec 88 := BitVec.ofNat 88 (Tbl.getD (s.link t).bad g 0)

def State.markWire (s : State) (t g w : Nat) : State :=
  s.setLink t { s.link t with bad := Tbl.put (s.link t).bad g 0 (setBit (s.badWires t g) w).toNat }

/-- The repair wires of a group as they stand, with the bad wires 0 to 85 that have none yet taking the free ones, lowest first:
what repair wires 86 and 87 replace, and whether every bad wire is replaced (R200, R201). Without REPAIR in the result no
repair wire is in use (R203, assumption 71). -/
def State.repairs (s : State) (t g : Nat) : Nat × Nat × Bool :=
  let bad := (bitsOf (s.badWires t g)).filter (fun w => decide (w < 86))
  let old := if s.linkHas t 4 then (s.rd (STR_REPAIR.REP0 t g), s.rd (STR_REPAIR.REP1 t g)) else (0x7F, 0x7F)
  let left := bad.filter (fun w => w != old.1 && w != old.2)
  if s.linkHas t 4 = false then (0x7F, 0x7F, bad.isEmpty)
  else if old.1 = 0x7F then
    (left.getD 0 0x7F, if old.2 = 0x7F then left.getD 1 0x7F else old.2, decide (left.length ≤ if old.2 = 0x7F then 2 else 1))
  else if old.2 = 0x7F then (old.1, left.getD 0 0x7F, decide (left.length ≤ 1))
  else (old.1, old.2, left.isEmpty)

/-- A group after its bad wires have been replaced: healthy with its clock locked and every bad wire replaced (R200). -/
def State.repairGroup (s : State) (t g : Nat) (lock : Bool) : State :=
  let r := s.repairs t g
  let s := ((s.wr (STR_REPAIR.CLK_LOCK t g) lock.toNat).wr (STR_REPAIR.REP0 t g) r.1).wr (STR_REPAIR.REP1 t g) r.2.1
  s.wr (STR_REPAIR.HEALTHY t g) (lock && r.2.2).toNat

/-- The groups that are healthy at the hub end. -/
def State.healthy (s : State) (t : Nat) : Nat :=
  (List.range 16).foldl (fun v g => v + s.rd (STR_REPAIR.HEALTHY t g) * 2 ^ g) 0

/-- The widest group set that a mask and the limits of R200 allow. -/
def State.propose (s : State) (t mask : Nat) : Option (Nat × Nat) :=
  [(0, 0), (1, 0), (1, 1), (2, 0), (2, 1), (2, 2), (2, 3)].find? (fun p =>
    decide (s.rd (STR_CTL.MAX_W t) ≤ p.1) && (p.1 != 1 || s.linkHas t 5) && (p.1 != 2 || s.linkHas t 6) &&
    setIn mask p.1 p.2)

/-- A width-check message is compared with the proposal (R210). -/
def State.widthCompare (s : State) (t mask w g seq : Nat) : State :=
  let s := s.wr (STR_HEALTH.REMOTE t) mask
  if (s.link t).prop = some (w, g) then
    let s := (s.wr (STR_STATE.WIDTH t) w).wr (STR_STATE.SET t) g
    s.setLink t { s.link t with matched := true, peerSeq := seq, heldMsg := none }
  else
    let s := s.strEvent t (STR_STS.fWCHK t) .corr 5
    (s.setLink t { s.link t with mask := s.rd (STR_HEALTH.LOCAL t) &&& mask }).attemptFail t

/-- The hub end's attempt ends: `lock` are the groups whose clock has locked, `bad` the wires that fail. -/
def State.attemptEnd (s : State) (t : Nat) (lock : BitVec 16) (bad : List (BitVec 4 × BitVec 7)) : State :=
  if s.inTraining t = false ∨ (s.link t).prop.isSome then s
  else
    let s := bad.foldl (fun s p => s.markWire t p.1.toNat p.2.toNat) s
    let s := (List.range 16).foldl (fun s g => s.repairGroup t g (hasBit lock g)) s
    let s := s.wr (STR_HEALTH.LOCAL t) (s.healthy t)
    match s.propose t (s.healthy t &&& (s.link t).mask &&& capBits (s.capRes t) 31 16) with
    | none => s.attemptFail t
    | some p =>
      let s := s.setLink t { s.link t with prop := some p }
      match (s.link t).heldMsg with
      | some (m, w, g, q) => s.widthCompare t m w g q
      | none => s

def execTrainingAttemptEnd (t : Tcd) (lock : BitVec 16) (bad : List (BitVec 4 × BitVec 7)) (s : State) :
    Host.Outcome State Fault Refusal :=
  s.ifRuns fun s => s.attemptEnd t.val lock bad

/-- 12 µs have passed since an attempt started, and it has not finished. -/
def State.attemptTimeout (s : State) (t : Nat) : State :=
  if s.inTraining t && (s.link t).prop.isNone then s.attemptFail t else s

def execTrainingAttemptTimeout (t : Tcd) (s : State) : Host.Outcome State Fault Refusal :=
  s.ifRuns fun s => s.attemptTimeout t.val

/-- A width-check message arrives: it waits while the hub end is still in its own attempt (R210). -/
def State.widthCheck (s : State) (t mask w g seq : Nat) : State :=
  if s.inTraining t = false ∨ (s.link t).matched then s
  else if (s.link t).prop.isNone then s.setLink t { s.link t with heldMsg := some (mask, w, g, seq) }
  else s.widthCompare t mask w g seq

def execWidthCheckMsg (t : Tcd) (mask : BitVec 16) (width set : BitVec 2) (seq : BitVec 16) (s : State) :
    Host.Outcome State Fault Refusal :=
  s.ifRuns fun s => s.widthCheck t.val mask.toNat width.toNat set.toNat seq.toNat

/-- Slots up to an RX_SEQ of the die are acknowledged (R195). -/
def Link.ack (x : Link) (seq : Nat) : Link :=
  { x with unacked := x.unacked.filter (fun e => serialNewer 16 e.1 seq) }

/-- The log of an RX_SEQ that stands half the range from a slot that it is compared with (R22). -/
def State.ackHalf (s : State) (t seq : Nat) : State :=
  match (s.link t).unacked.find? (fun e => (e.1 + 2 ^ 16 - seq % 2 ^ 16) % 2 ^ 16 == 2 ^ 15) with
  | some e => s.logHalf 4 t 16 e.1 seq
  | none => s

/-- Credits restored or returned to the hub end: 64 at most for a channel (R191). -/
def cap64 (a b : Nat × Nat × Nat) : Nat × Nat × Nat :=
  (min 64 (a.1 + b.1), min 64 (a.2.1 + b.2.1), min 64 (a.2.2 + b.2.2))

/-- The hub end sends the slots after an RX_SEQ again, and the die takes those that it has not taken (R194, R195, R199). -/
def State.resend (s : State) (t : Nat) : State :=
  let x := s.link t
  let ms := x.unacked.filter (fun e => serialNewer 16 e.1 x.dieSeq)
  ms.foldl (fun s e => s.agentTake e.2)
    (s.setLink t { x with dieSkip := false, dieSeq := (x.dieSeq + ms.length) % 65536 })

/-- Credits and RX_SEQ are restored and replay resumes: the link is ACTIVE (R199). In BOOT its die becomes present (R198,
R118). -/
def State.creditRestore (s : State) (t : Nat) (c : Nat × Nat × Nat) : State :=
  if s.inTraining t = false ∨ (s.link t).matched = false then s
  else
    let x := s.link t
    let s := s.setLink t { x.ack x.peerSeq with cred := cap64 (0, 0, 0) c, prop := none, reqSeq := none, rot := 0 }
    let s := (s.wr (STR_STATE.STATE t) 2).wr (STR_STATE.HOLD t) 0
    let s := if s.linkHas t 8 then s.resend t else s.setLink t { s.link t with unacked := [], lost := [] }
    let s := if s.pkgMode = 2 then
        let s := s.wr HUB_POP.TCD_PRESENT (s.rd HUB_POP.TCD_PRESENT ||| 2 ^ t)
        if s.agentState t = 3 then s.wr (HUB_AGENT_STATE.SLOT t) 0 else s
      else s
    s.pokeDie t

def execCreditRestoreDone (t : Tcd) (c0 c1 c2 : BitVec 7) (s : State) : Host.Outcome State Fault Refusal :=
  s.ifRuns fun s => s.creditRestore t.val (c0.toNat, c1.toNat, c2.toNat)

/-- A link reset of one end (R208): an ACTIVE link goes to RETRAIN; in a training no width check has matched since. -/
def State.linkReset (s : State) (t : Nat) : State :=
  if s.linkState t = 2 then s.retrain t
  else if s.linkState t = 1 ∨ s.linkState t = 3 then
    s.setLink t { s.link t with prop := none, heldMsg := none, matched := false }
  else s

def execLinkReset (t : Tcd) (s : State) : Host.Outcome State Fault Refusal := s.ifRuns fun s => s.linkReset t.val

/-- A group's forwarded clock loses lock: with the group active, the link logic resets itself (R197, R208). -/
def State.clockLoss (s : State) (t g : Nat) : State :=
  let s := (s.wr (STR_REPAIR.CLK_LOCK t g) 0).wr (STR_REPAIR.HEALTHY t g) 0
  if s.linkState t = 2 ∧ (setGroups (s.rd (STR_STATE.WIDTH t)) (s.rd (STR_STATE.SET t))).testBit g then s.retrain t else s

def execGroupClockLoss (t : Tcd) (g : BitVec 4) (s : State) : Host.Outcome State Fault Refusal :=
  s.ifRuns fun s => s.clockLoss t.val g.toNat

/-- A wire reaches REP_THR corrections within 1 ms: it takes a free repair wire, or its group becomes unhealthy (R201). -/
def State.wireBad (s : State) (t g w : Nat) : State :=
  if 88 ≤ w then s
  else
    let s := (s.markWire t g w).strEvent t (STR_STS.fREPAIR t) .corr 4
    let s := s.repairGroup t g (s.on (STR_REPAIR.CLK_LOCK t g))
    if s.linkState t = 2 ∧ s.on (STR_CTL.REPAIR_AUTO t) then s.retrain t else s

/-- A correction is counted against its wire; with REP_THR of them within 1 ms the wire is bad (R194, R201). -/
def State.corrected (s : State) (t g w : Nat) : State :=
  let x := s.link t
  let now := s.now.toNat
  let l := ((Tbl.getD x.corr (128 * g + w) []).filter (fun a => decide (now < a + 1000000))) ++ [now]
  if s.rd (STR_CTL.REP_THR t) ≤ l.length then
    (s.setLink t { x with corr := Tbl.erase x.corr (128 * g + w) }).wireBad t g w
  else s.setLink t { x with corr := Tbl.put x.corr (128 * g + w) [] l }

def execWireRepairThreshold (t : Tcd) (g : BitVec 4) (w : BitVec 7) (s : State) : Host.Outcome State Fault Refusal :=
  s.ifRuns fun s => s.wireBad t.val g.toNat w.toNat

/-! ### Slots from the die (R190 to R195, R206, R207) -/

/-- The message lies within what the die negotiated (R116, R203, R207). -/
def State.inResult (s : State) (t : Nat) (m : Msg) : Bool :=
  if s.nonCaching t then
    match m.opc with
    | .rdOnce | .wrFull | .wrPart | .maintCln | .maintInv | .dataOnce | .wrAck => true
    | _ => false
  else
    match m.opc with
    | .rspOFwd => s.linkHas t 0
    | .rspCurFwd => s.linkHas t 1
    | _ => true

/-- A message outside the die's result is dropped and logged (R207). -/
def State.upDrop (s : State) (t : Nat) (m : Msg) : State :=
  s.report { rec0 .error 4 t 0xC8 with
    addr := some (m.line.toNat * 64), world := m.attr.world, enc := m.attr.enc.toNat, mtag := m.attr.mtag.toNat,
    src := tcdStop t }

/-- A message as the hub end injects it: its source is the die's stop (R163), its MTAG 0 where the die sends none, its point of
effect 1 where PT is not negotiated (R206). -/
def State.upMsg (s : State) (t : Nat) (m : Msg) (psn : Bool) : Msg :=
  { m with
    src := toStop (tcdStop t), poison := m.poison || psn
    attr := if s.on (STR_STATE.MTAG0 t) then { m.attr with mtag := 0 } else m.attr
    pt := m.pt || ((m.opc = .maintCln || m.opc = .maintInv) && !s.linkHas t 9) }

/-- The fields of a slot's control byte (R190). -/
def LinkSlot.chan (x : LinkSlot) : Nat := x.ctl.toNat / 64
def LinkSlot.count (x : LinkSlot) : Nat := x.ctl.toNat / 8 % 8 + 1
def LinkSlot.kind (x : LinkSlot) : Nat := x.ctl.toNat / 2 % 4
def LinkSlot.full (x : LinkSlot) : Bool := x.ctl.getLsbD 0

/-- The control byte says what the slot carries (R190): one message with data, up to five without, up to four SNP flits, or
link-control words, which come by their own commands; all of one channel. -/
def LinkSlot.fits (x : LinkSlot) : Bool :=
  let n := x.msgs.length
  let one := x.msgs.all (fun m => upChan m == x.chan)
  if x.full = false then x.ctl == 0 && n == 0
  else match x.kind with
    | 0 => n == 1 && x.count == 1 && one && x.msgs.all (fun m => m.opc.hasData)
    | 1 => n == x.count && decide (n ≤ 5) && one && x.msgs.all (fun m => !m.opc.hasData && !m.opc.isSnoop)
    | 2 => n == x.count && decide (n ≤ 4) && one && x.msgs.all (fun m => m.opc.isSnoop)
    | _ => n == 0 && decide (x.count ≤ 5)

/-- The active groups, lowest first: the rotation of R193. -/
def State.rotation (s : State) (t : Nat) : List Nat :=
  bitsOf (BitVec.ofNat 16 (setGroups (s.rd (STR_STATE.WIDTH t)) (s.rd (STR_STATE.SET t))))

/-- The messages of a channel that the die has still to issue, oldest first. -/
def State.upQueue (s : State) (t ch : Nat) : List Msg :=
  let issued := (s.link t).lost.flatMap (fun e => e.2)
  issued.foldl (fun q m => q.erase m) (s.up.filter (fun m => m.src.val == tcdStop t && upChan m == ch))

/-- The transactions that the die has outstanding at the hub. -/
def State.dieOut (s : State) (t : Nat) : Nat :=
  let here (m : Msg) : Bool := m.src.val == tcdStop t && m.opc.isRequest
  (s.mesh.txnBusy.filter (fun e => here e.2)).length + (s.mesh.stall.filter here).length +
    ((s.link t).rx.map (fun e => (e.2.filter (fun m => m.opc.isRequest)).length)).sum

/-- The requests of the slot find their credits and response buffers, which the die holds before it sends them (R165). -/
def State.credited (s : State) (t : Nat) (ms : List Msg) : Bool :=
  (ms.foldl (fun (o : Option State) m =>
    if m.opc.isRequest && s.inResult t m then o.bind (fun s => s.trySend (s.upMsg t m false)) else o) (some s)).isSome

/-- The die may issue the slot: a link credit of its channel, its own messages in the order in which its units sent them
(R163, R193), no more transactions than its result allows (R207), and the sinks reserved unless the link is sink-always
(R165, R167). -/
def State.mayIssue (s : State) (t : Nat) (x : LinkSlot) : Bool :=
  let q := s.upQueue t x.chan
  let own := x.msgs.filter (fun m => q.contains m)
  let n := (x.msgs.filter (fun m => m.opc.isRequest)).length
  decide (((s.link t).rx.filter (fun e => e.1 == x.chan)).length < 64) && own == q.take own.length &&
    (own.isEmpty || n == 0 || decide (s.dieOut t + n ≤ capBits (s.capRes t) 75 64)) &&
    (s.on (STR_STATE.DL t) || s.credited t x.msgs)

/-- A slot is taken into the channel buffers of the hub end: RX_SEQ counts it, its messages within the result go on, the others
are dropped and logged (R195, R203, R207). Several messages in a slot need PACK. -/
def State.slotAccept (s : State) (t : Nat) (x : LinkSlot) (psn : Bool) : State :=
  let s := (s.count (bankStr t) 1 0 none).advance (STR_SEQ.RX_SEQ t) (STR_SEQ.LAP t) (STR_SEQ.LAP_SAT t) (STR_STS.fSEQ_BELL t)
  let room := capBits (s.capRes t) 75 64 - s.dieOut t
  let pack := decide (x.msgs.length ≤ 1) || s.linkHas t 3
  let p := x.msgs.foldl (fun (p : State × List Msg) m =>
    let s : State := { p.1 with up := p.1.up.erase m }
    if pack && s.inResult t m && (!m.opc.isRequest || decide (p.2.length < room)) then (s, p.2 ++ [s.upMsg t m psn])
    else (s.upDrop t m, p.2)) (s, [])
  (p.1.setLink t { p.1.link t with rx := (p.1.link t).rx ++ [(x.chan, p.2)] }).drainLink t

/-- A slot of the die leaves its FIFO at the hub end, in the rotation of the groups (R190 to R196); `again` where the resend
that the hub end has asked for begins with it. A discarded slot, and those after it, come again in their order (R194). -/
def State.slotTake (s : State) (t : Nat) (x : LinkSlot) (again : Bool) : State :=
  let l := s.link t
  let carries := x.full && x.kind != 3
  let wait := l.reqSeq.isSome && !again
  let turn := if l.lost.isEmpty || wait then s.mayIssue t x else l.lost.head? == some (x.ctl, x.msgs)
  if s.linkState t ≠ 2 ∨ x.fits = false ∨ (carries && !turn) = true then s
  else
    let groups := s.rotation t
    let g := groups.getD (l.rot % groups.length) 0
    let l := { l with rot := (l.rot + 1) % groups.length }
    let s := s.setLink t l
    let s := if x.err = 1 then
        let s := s.strEvent t (STR_STS.fCECC t) .corr 0
        match x.wire with
        | some w => s.corrected t g w.toNat
        | none => s
      else s
    if wait then (if carries then s.setLink t { s.link t with lost := l.lost ++ [(x.ctl, x.msgs)] } else s)
    else if x.err = 2 then
      if s.linkHas t 8 then
        let lost := if l.lost.isEmpty && carries then [(x.ctl, x.msgs)] else l.lost
        ((s.setLink t { s.link t with reqSeq := some (s.rd (STR_SEQ.RX_SEQ t)), lost := lost }).count (bankStr t) 2 0 none).strEvent t
          (STR_STS.fREPLAY t) .corr 2
      else
        let s := { s with up := x.msgs.foldl (fun u m => u.erase m) s.up }
        s.strEvent t (STR_STS.fHDROP t) .error 3
    else if carries = false then s
    else
      let s := s.setLink t { s.link t with reqSeq := none, lost := l.lost.tail }
      let s := if x.err = 3 then s.strEvent t (STR_STS.fUNCORR t) .error 1 else s
      s.slotAccept t x (x.err == 3)

/-- The next slot to the die leaves its FIFO with a condition of its check bits (R194). -/
def State.slotToDie (s : State) (t : Nat) (err : BitVec 2) : State :=
  if s.linkState t ≠ 2 then s else s.setLink t { s.link t with dieErr := err.toNat }

def execStrideSlotReceive (t : Tcd) (toDie : Bool) (x : LinkSlot) (again : Bool) (s : State) :
    Host.Outcome State Fault Refusal :=
  s.ifRuns fun s => if toDie then s.slotToDie t.val x.err else s.slotTake t.val x again

/-- A link-control word of a TYPE that R192 does not list is dropped. -/
def State.badWord (s : State) (t : Nat) : State := s.report (rec0 .error 4 t 0xC8)

/-- A replay request of the die: the hub end resends from the slot after its RX_SEQ, which acknowledges the slots before
(R194). STR_STS.REPLAY shows the hub end's own requests only (assumption 59). -/
def State.replayRequest (s : State) (t : Nat) (w : BitVec 128) : State :=
  let ty := w.toNat % 256
  if s.linkState t ≠ 2 then s
  else if ty = 2 then
    ((s.ackHalf t (w.toNat / 2 ^ 16 % 65536)).setLink t ((s.link t).ack (w.toNat / 2 ^ 16 % 65536))).resend t
  else if ty = 1 then s
  else s.badWord t

def execLinkReplayRequest (t : Tcd) (w : BitVec 128) (s : State) : Host.Outcome State Fault Refusal :=
  s.ifRuns fun s => s.replayRequest t.val w

/-- A credit return (R192, R195). -/
def State.creditReturn (s : State) (t : Nat) (w : BitVec 128) : State :=
  let ty := w.toNat % 256
  let b (k : Nat) : Nat := w.toNat / 2 ^ k % 256
  if s.linkState t ≠ 2 then s
  else if ty = 1 then
    let x := (s.link t).ack (w.toNat / 2 ^ 16 % 65536)
    (s.ackHalf t (w.toNat / 2 ^ 16 % 65536)).setLink t { x with cred := cap64 x.cred (b 32, b 40, b 48) }
  else if ty = 2 then s
  else s.badWord t

def execLinkCreditReturn (t : Tcd) (w : BitVec 128) (s : State) : Host.Outcome State Fault Refusal :=
  s.ifRuns fun s => s.creditReturn t.val w

/-! ### STR_CMD (R210, R216, R217) -/

/-- The status of a write of STR_CMD. -/
def State.strSts (s : State) (t sts : Nat) : State :=
  let s := s.wr (STR_STATE.LAST_STS t) sts
  if sts = OK then s else s.logCmd 4 t sts

/-- STR_TEST_CNT shows the selected wire (R217). While the test runs, the wire's error count has grown by what the pattern met,
and its first look finds its margins: measured values (assumption 3). -/
def State.testShow (s : State) (t : Nat) : State :=
  let k := 128 * s.rd (STR_TEST_SEL.GROUP t) + s.rd (STR_TEST_SEL.WIRE t)
  let old := Tbl.get? (s.link t).results k
  let p := s.free
  let v := p.1.toNat
  let (s, r) := if s.linkState t = 5 then
      let n := (v / 65536, old.getD (v % 256, v / 256 % 256, 0))
      let r := (n.2.1, n.2.2.1, min 0xFFFF (n.2.2.2 + n.1))
      (p.2.setLink t { p.2.link t with results := Tbl.set (p.2.link t).results k r }, r)
    else (s, old.getD (0, 0, 0))
  ((s.wr (STR_TEST_CNT.T_MARGIN t) r.1).wr (STR_TEST_CNT.V_MARGIN t) r.2.1).wr (STR_TEST_CNT.ERRORS t) r.2.2

/-- The LOOPBACK command (R216): the link runs the pattern at the point, and every wire's count starts at 0. -/
def State.loopback (s : State) (t pattern point : Nat) : State :=
  let sts := firstBad [(decide (2 < pattern) || decide (1 < point), EINVAL),
    (s.pkgMode != 7 || s.linkState t != 0, ESTATE)]
  if sts = OK then
    (((s.strSts t OK).wr (STR_STATE.STATE t) 5).setLink t
      { s.link t with test := some (pattern, point), results := [] }).testShow t
  else s.strSts t sts

/-- The LB_STOP command: the link goes DOWN, and the wires keep their results. -/
def State.lbStop (s : State) (t : Nat) : State :=
  if s.linkState t = 5 then
    let s := ((s.testShow t).strSts t OK).wr (STR_STATE.STATE t) 0
    s.setLink t { s.link t with test := none }
  else s.strSts t ESTATE

def execRetrain (t : Tcd) (d : Dev) (s : State) : Host.Outcome State Fault Refusal :=
  s.ifRuns fun s => s.prsWrite d (STR_CMD.OP t.val).addr 4 false (fun s =>
    if s.linkState t.val = 2 then (s.strSts t.val OK).retrain t.val else s.strSts t.val ESTATE)

def execLoopback (t : Tcd) (pattern : BitVec 4) (point : BitVec 2) (d : Dev) (s : State) :
    Host.Outcome State Fault Refusal :=
  s.ifRuns fun s => s.prsWrite d (STR_CMD.OP t.val).addr 4 false (fun s => s.loopback t.val pattern.toNat point.toNat)

def execLbStop (t : Tcd) (d : Dev) (s : State) : Host.Outcome State Fault Refusal :=
  s.ifRuns fun s => s.prsWrite d (STR_CMD.OP t.val).addr 4 false (fun s => s.lbStop t.val)

end Sys2Proof.Machine
end

