-- ==== Sys2Proof/Machine/Boot.lean ====
section
/-!
DEFINITION. Power-up, the boot chain and boot order (R555 to R563), reset kinds and what each keeps (R566 to R572),
shutdowns that keep memory (R473, R478 to R480), regulator trips (R213), and the lands of TAP and CXL windows (R587,
R591).
-/
namespace Sys2Proof.Machine

/-! ### What a reset keeps of the registers (R568) -/

/-- The field is locked by a lock bit, or is one. -/
def rwlKey (k : Nat) : Bool :=
  match regAt (k / 64) with
  | some d => d.fields.any (fun f => f.lo == k % 64 && f.ty == .rwl) || (match d.lock with
    | some (0, b) => b == k % 64
    | _ => false)
  | none => false

/-- The address lies in [lo, hi). -/
def within (lo hi a : Nat) : Bool := decide (lo ≤ a) && decide (a < hi)

/-- What the fuses set, which no reset changes: HUB_ID and the fused fields of HUB_POP. -/
def fuseKey (k : Nat) : Bool := k / 64 == 0x100000 || (k / 64 == 0x100008 && decide (12 ≤ k % 64))

/-- Registers of the AON processors and of the mode: PMC, SEP but for the ownership unit, relay port, DBG, the mode, the
last refusal, the poison-mark count; and the fuses. -/
def aonKey (k : Nat) : Bool :=
  let a := k / 64
  fuseKey k || within 0xC00000 0xD01000 a || within 0xD01200 0xE00000 a || within 0x1000000 0x1200000 a || a == 0x100010 ||
  (a == 0x100020 && k % 64 == 24) || (a == 0x100030 && k % 64 == 0)

/-- What a memory-preserving reset keeps beside them: the channels, XCP, ownership, ERR, dead routers and the epoch, the
HMC's states and counts, fields under a lock. -/
def warmKey (k : Nat) : Bool :=
  let a := k / 64
  aonKey k || within 0x700000 0xA00000 a || within 0xD01000 0xD01200 a || within 0xF00000 0x1000000 a ||
  decide (0x40000000000 ≤ a) || a == 0x400010 || a == 0x400040 || a == 0x500008 || a == 0x500010 || a == 0x500090 ||
  (decide (a < 0x100000000) && rwlKey k)

/-- What a shutdown that keeps memory saves (R480): channel states, causes and drop lists, the interleave map, XCP's mode
and states, dead routers and the epoch, the ownership registers. -/
def savedKey (k : Nat) : Bool :=
  let a := k / 64
  aonKey k || within 0xD01000 0xD01200 a || within 0x800000 0x800028 a || decide (0x40000000000 ≤ a) ||
  (within 0x700000 0xA00000 a && (a % 0x10000 == 8 || a % 0x10000 == 0x28)) || a == 0x500008 || a == 0x500010 ||
  a == 0x500090

/-- Stops without a unit are EMPTY, and stops of dead routers DEAD (R178, R568). -/
def State.fixStops (s : State) : State :=
  let s := [56, 60, 63].foldl (fun s n => s.wr (MESH_STOP.STATE n) 4) s
  (List.range 64).foldl (fun s n =>
    if (s.rd MESH_DEADRTR.DEAD).testBit n ∧ s.stopState n ≠ 4 then s.wr (MESH_STOP.STATE n) 3 else s) s

/-! ### Cold reset (R566 to R568, R556) -/

/-- Every domain, mailbox request and memory of a package that loses AON power or is reset cold: what is left are the
commands that wait, what has already left the package, the fuses, the levels on its input lands, and the AEPOCH in the boot
flash (R525). The mode is OFF. -/
def State.coldOff (s : State) : State :=
  ((State.setMode { State.reset with
    pending := s.pending, freeCtr := s.freeCtr, keySeq := s.keySeq, ans := s.ans, regs := s.regs.filter (fun e => fuseKey e.1)
    rly := { RlySt.init with out := s.rly.out }
    mon := { MonSt.init with out := s.mon.out }
    pmc := { PmcSt.init with lost := s.pmc.lost, backAt := s.pmc.backAt }
    sys := { Sys.init with pgAon := s.sys.pgAon, rstN := s.sys.rstN, pwrfailN := s.sys.pwrfailN,
                           photoPulses := s.sys.photoPulses } } 0).wr RLY_AEPOCH.AEPOCH (s.rd RLY_AEPOCH.AEPOCH))

/-- The AON processors start (R556): STANDBY, and the relay port is in TEST. -/
def State.aonStart (s : State) : State := (s.setMode 1).wr RLY_POS.STATE 1

/-- A cold reset: through OFF to STANDBY. -/
def State.coldReset (s : State) : State := s.coldOff.aonStart

/-- RST_N is low for 1 µs with VDD_AON good (R556): the reset holds until it rises. -/
def State.coldPin (s : State) : State :=
  let s : State := { s with sys := { s.sys with rstN := false } }
  if s.sys.pgAon then s.coldOff.wr RLY_POS.STATE 0 else s

def execColdResetPin (s : State) : Host.Outcome State Fault Refusal := s.done s.coldPin

def State.rstRise (s : State) : State :=
  let s : State := { s with sys := { s.sys with rstN := true } }
  if s.pkgMode = 0 ∧ s.sys.pgAon then s.aonStart else s

def execRstNRise (s : State) : Host.Outcome State Fault Refusal := s.done s.rstRise

def State.aonGood (s : State) : State :=
  let s : State := { s with sys := { s.sys with pgAon := true } }
  if s.pkgMode = 0 ∧ s.sys.rstN then s.aonStart else s

def execAonSupplyGood (s : State) : Host.Outcome State Fault Refusal := s.done s.aonGood

/-- The AON supply is lost: OFF, with the bypass closed (R471, R518). -/
def State.aonLoss (s : State) : State :=
  (State.coldOff { s with sys := { s.sys with pgAon := false } }).wr RLY_POS.STATE 0

def execAonSupplyLoss (s : State) : Host.Outcome State Fault Refusal := s.done s.aonLoss

/-! ### To STANDBY (R471, R478 to R480, R557) -/

/-- Every domain but AON loses power, and the package enters STANDBY; `keep` where memory stays in self-refresh and the SEP
has saved what R480 lists, `hbm` where the HBM does too. -/
def State.standby (s : State) (keep hbm : Bool) : State :=
  let s := s.setMode 1
  let regs := s.regs.filter (fun e => if keep then savedKey e.1 else aonKey e.1)
  let mem := s.mem.filter (fun e => hbm || !isHbmLine e.1)
  let base : State := { State.reset with
    pending := s.pending, freeCtr := s.freeCtr, keySeq := s.keySeq, now := s.now, tb := s.tb, ans := s.ans
    regs := regs, assigns := s.assigns, sepVer := s.sepVer
    pmc := { s.pmc with held := [], waits := [], drained := [], psNext := [], order := [] }
    rly := s.rly, mon := s.mon
    sys := { s.sys with enMain := false, enAux := false, ph := .none, cfg := none, rst := none, rstFl := false, kept := keep } }
  let s : State := if keep then
      { base with
        ddrUsable := s.ddrUsable, mem := mem, parity := s.parity, encs := s.encs, own := s.own, keyTab := s.keyTab
        chans := (List.range 80).foldl (fun t c =>
          Tbl.put t c ChanSt.init { ChanSt.init with drops := (s.chan c).drops, sref := true }) []
        xcp := { Xcp.init with map0 := s.xcp.map0, map1 := s.xcp.map1, dead := s.xcp.dead, par0 := s.xcp.par0,
                               par1 := s.xcp.par1, pass0 := s.xcp.pass0, pass1 := s.xcp.pass1 }
        mesh := { Mesh.init with mask := s.mesh.mask, spare := s.mesh.spare } }
    else base
  let s := s.fixStops
  let s := (List.range 20).foldl (fun s d => ((s.wr (PMC_DOM.STATE d) 0).wr (PMC_DOM.HELD d) 0)) s
  let s := (List.range 72).foldl (fun s k => s.wr (PMC_CLUS.ONLINE k) 0) s
  if keep then s.raise PMC_STS.fMEM_KEPT else s.wr PMC_STS.MEM_KEPT 0

/-! ### Writing memory before it is left (R478, R569) -/

/-- Requests on their way to the channels reach them. -/
def State.memArrive (s : State) : State :=
  let q := s.memNet ++ s.mesh.memStall
  let s : State := { s with mesh := { s.mesh with
    memStall := []
    net := s.mesh.net.filter (fun f => match f.load with
      | .mem _ => false
      | _ => true) } }
  q.foldl (fun s r => if r.wr then s.chWrite r .ok else s) s

/-- Every channel issues every write it has accepted; what it sent to the parity engine arrives. -/
def State.issueAll (s : State) : State :=
  let issue (s : State) (ch : Nat) : State := (s.chan ch).wq.foldl (fun s e => s.issueWrite ch e) s
  let s := (List.range 80).foldl issue s
  let s := (List.range s.xcp.deltas.length).foldl (fun s _ =>
    match s.xcp.deltas with
    | d :: _ => s.deltaArrive d.chan
    | [] => s) s
  let s := { s with xcp := { s.xcp with updates := s.xcp.updates.map (fun d => { d with sent := true }) } }
  (List.range s.xcp.updates.length).foldl (fun s _ =>
    match s.xcp.updates with
    | d :: _ => issue (s.updateArrive d.chan .ok) d.chan
    | [] => s) s

/-- A full line is written to its channel, or to its CXL port. -/
def State.settle (s : State) (line : Nat) (d : LineData) (psn : Bool) (a : Attr) : State :=
  (s.chanWrite line fullBe d psn a (.mark (Fin.ofNat 32 (homeOf line)))).1.memArrive

/-- Every dirty line of the HMC goes to its channel, and the halves are OFF. -/
def State.hmcFlush (s : State) : State :=
  let s := s.hmc.foldl (fun s e =>
    if e.2.delta then s.sendUpdate (e.2.line % 2) (e.2.line / 2) e.2.data
    else if e.2.dirty then s.settle e.2.line e.2.data e.2.poison sweepAttr else s) s
  ((s.hmcClear 0).hmcClear 1 |>.wr HMC_STATE.STATE_N HOFF).wr HMC_STATE.STATE_S HOFF

/-- Every dirty line of a die's L3 and eviction buffer goes to memory (R478). -/
def State.dieFlush (s : State) : State :=
  let s := s.evp.foldl (fun s e => if e.2.dirty then s.settle (e.1 % 2 ^ 46) e.2.data e.2.poison e.2.msg.attr else s) s
  let s := (s.msgs ++ s.up).foldl (fun s m =>
    if m.opc = .dataM then s.settle m.line.toNat m.data m.poison m.attr else s) s
  s.l3.foldl (fun s e =>
    if e.2.st = .m ∨ e.2.st = .o then s.settle (e.1 % 2 ^ 46) e.2.data e.2.poison e.2.attr else s) s

/-- The poison mark on every line whose entry is EX or OW; every entry is freed; PSNLINES counts them (R569). -/
def State.poisonSweep (s : State) : State :=
  let lost := s.dir.filter (fun e => e.2.st == .ex || e.2.st == .ow)
  let s := lost.foldl (fun s e => (s.markPoison e.2.line sweepAttr).memArrive) s
  State.wr { s with dir := [] } HUB_RST_STS.PSNLINES (min lost.length 0xFFFFFFFF)

/-- The shutdown of R478, from RUN or RIDE; from BOOT by R473. -/
def State.shutKeep (s : State) : State :=
  let hbm := s.on PMC_RIDE.HBM_KEEP
  (s.memArrive.hmcFlush.dieFlush.issueAll.wr HUB_RST_STS.PSNLINES 0).standby true hbm

/-- ERR takes every record that units held for it (R500, R569). -/
def State.errHeld (s : State) : State :=
  { s with
    errIn := []
    err := { s.err with q := s.err.q ++ s.errIn.filter (fun r => decide (s.rd ERR_CTL.MIN_SEV ≤ r.sev.num)) } }

/-- The hub core restarts with the cores stopped (R569 step 2): channels that are not FROZEN or FENCED leave self-refresh
and issue what they had accepted; their reads are discarded; HMC halves that were ON or in DRAIN drain (R145). -/
def State.hubRestart (s : State) : State :=
  let s := s.errHeld
  let s := (List.range 80).foldl (fun s ch =>
    if s.chActive ch then s.setChan ch { s.chan ch with rq := [], sref := false } else s) s
  let s := s.issueAll
  [0, 1].foldl (fun s x =>
    let f := halfState (16 * x)
    if s.rd f = HON then
      (halfSlices x).foldl (fun s h => { s with hsweep := Tbl.set s.hsweep h 0 }) (s.wr f HDRAIN)
    else if s.rd f = HINVAL then (s.hmcClear x).wr f HOFF
    else s) s

/-- Battery reserve (R473, R478). A capture not yet read is lost. -/
def State.batteryReserve (s : State) : State :=
  match s.pkgMode with
  | 4 => s.shutKeep
  | 2 => if s.sys.ph = .rails ∨ s.sys.ph = .chain then s.standby false false else s.shutKeep
  | 5 | 6 =>
    let s := (s.memArrive.hubRestart.hmcFlush).poisonSweep
    s.issueAll.standby true (s.on PMC_RIDE.HBM_KEEP)
  | 7 => s.standby false false
  | _ => s

/-- A power-down request of the monitor or the ring (R471); its status. -/
def State.powerDown (s : State) (keep : Bool) : State × Nat :=
  if s.pkgMode ≠ 3 then (s, ESTATE)
  else if keep then (s.shutKeep, OK)
  else (s.standby false false, OK)

/-! ### Boot (R471, R556, R559 to R561) -/

/-- A boot request; its status. A boot after a shutdown that kept memory is memory-preserving (R480). -/
def State.bootReq (s : State) : State × Nat :=
  if s.pkgMode ≠ 1 ∨ s.sys.extest then (s, ESTATE)
  else
    let s := (s.setMode 2).wr HUB_BOOT.MEMKEPT (s.rd PMC_STS.MEM_KEPT)
    let s := if s.pmc.early = 0 then s
      else s.report { rec0 .info 0x0A 0 0xC9 with detail := [s.pmc.early] }
    ({ s with
       pmc := { s.pmc with early := 0 }
       sys := { s.sys with enMain := true, pgMain := false, pgAux := 0, ph := .rails, autoHeld := false } }, OK)

def execBootRequest (s : State) : Host.Outcome State Fault Refusal := s.done s.bootReq.1

/-- AUTOBOOT: held while EXTEST is in the instruction register (R591). -/
def State.autoBoot (s : State) : State :=
  if s.on PMC_RIDE.AUTOBOOT = false ∨ s.pkgMode ≠ 1 then s
  else if s.sys.extest then { s with sys := { s.sys with autoHeld := true } }
  else s.bootReq.1

/-- Mains has returned (R479). -/
def State.mainsReturn (s : State) : State :=
  if s.pmc.lost = false ∨ s.sys.pwrfailN = false then s
  else
    let s : State := { s with pmc := { s.pmc with lost := false, backAt := none } }
    if s.pkgMode = 4 then s.setMode 3 else s.autoBoot

def execMainsReturn (s : State) : Host.Outcome State Fault Refusal := s.done s.mainsReturn

/-- A refused boot (R559): every domain but AON is powered off, STANDBY; the code is kept for LAST_FAIL. -/
def State.bootRefused (s : State) (code : Nat) : State :=
  let kept := s.on HUB_BOOT.MEMKEPT
  (s.standby kept (kept && s.on PMC_RIDE.HBM_KEEP)).wr HUB_BOOT.LAST_FAIL code

/-- A good land that rises while its enable is low is ignored and counted (R578). -/
def State.earlyRise (s : State) : State := { s with pmc := { s.pmc with early := s.pmc.early + 1 } }

def State.pgMainRise (s : State) : State :=
  if s.sys.enMain = false then s.earlyRise
  else
    let go := s.sys.ph == .rails
    { s with sys := { s.sys with
        pgMain := true, enAux := s.sys.enAux || go, ph := if go then .chain else s.sys.ph } }

def execPgMainRise (s : State) : Host.Outcome State Fault Refusal := s.done s.pgMainRise

def execPgMainTimeout (s : State) : Host.Outcome State Fault Refusal :=
  s.done (if s.sys.ph = .rails ∧ s.sys.pgMain = false then s.bootRefused 5 else s)

/-- An auxiliary good land rises: 0 PG_DDR, 1 PG_HBM, 2 PG_PCIE. -/
def State.pgAuxRise (s : State) (k : Nat) : State :=
  if 2 < k then s
  else if s.sys.enAux = false then s.earlyRise
  else { s with sys := { s.sys with pgAux := setBit s.sys.pgAux k } }

def execPgAuxRise (k : BitVec 2) (s : State) : Host.Outcome State Fault Refusal := s.done (s.pgAuxRise k.toNat)

/-- Every MCH freezes with CAUSE 3 (R243, R555). -/
def State.ddrRail (s : State) : State := (List.range 16).foldl (fun s ch => s.freeze ch ⟨3, 0, none, 0, 0⟩) s

/-- The four ports of IOW and of IOE are lost (R213). -/
def State.portsLost (s : State) : State := (s.stopLost iowStop).stopLost ioeStop

/-- An auxiliary rail is missing (R555). PG_HBM is ignored on a SKU without stacks. -/
def State.auxLost (s : State) (k : Nat) : State :=
  match k with
  | 0 => s.ddrRail
  | 1 => if s.on HUB_ID.HBM_STACKS then (s.domShow 18 0).domShow 19 0 else s
  | 2 => s.portsLost
  | _ => s

def State.pgAuxTimeout (s : State) (k : Nat) : State :=
  if s.sys.enAux ∧ hasBit s.sys.pgAux k = false then s.auxLost k else s

def execPgAuxTimeout (k : BitVec 2) (s : State) : Host.Outcome State Fault Refusal :=
  s.ifRuns fun s => s.pgAuxTimeout k.toNat

/-! ### The boot chain and memory training (R559 to R561) -/

/-- The SEP writes a field from the CFG image; after a memory-preserving reset, not one that the reset keeps (R565). -/
def State.cfgWrite (s : State) (kv : Nat × Nat) : State :=
  match regAt (kv.1 / 64) with
  | some d =>
    match d.fields.find? (fun f => f.lo == kv.1 % 64) with
    | some f => if s.on HUB_BOOT.MEMKEPT && warmKey kv.1 then s else s.wr (f.at (kv.1 / 64)) kv.2
    | none => s
  | none => s

/-- The SEP's random source seeds the HMC's LFSRs, never with zero, and the lanes' DRBGs (R131, R392). -/
def State.seedAll (s : State) : State :=
  let s := (List.range 32).foldl (fun s h =>
    let p := s.free
    { p.2 with lfsr := Tbl.put p.2.lfsr h 0 (max 1 (p.1.toNat % 2 ^ 32)) }) s
  (List.range 16).foldl (fun s k =>
    let p := s.free
    { p.2 with drbg := Tbl.set p.2.drbg k p.1.toNat }) s

/-- A root port before software programs it: no bus, and windows whose base lies above their limit (PRESUMED, assumption 13). -/
def RootPort.init : RootPort := ⟨0, 0, 0xFFF00000, 0x100000, 0xFFF00000, 0x100000, false⟩

/-- The boot chain ends: refused with its code, or the CFG values are written, the random state is seeded and the domains
start (R560 steps 2 and 3). In a memory-preserving reset the HMC and HBM halves have kept their power (R569). -/
def State.chainDone (s : State) (fail ver : Nat) (cfg : BootCfg) : State :=
  if s.sys.ph ≠ .chain then s
  else if fail ≠ 0 then s.bootRefused fail
  else
    let s := cfg.fields.foldl (fun s kv => s.cfgWrite kv) s
    let ports := ((List.range 64).filter (fun i => hasBit cfg.ports i)).map (fun i => (i, RootPort.init))
    let s : State := { s with sepVer := ver, ports := ports, sys := { s.sys with ph := .train, cfg := some cfg } }
    let s : State := match cfg.plate with
      | some (r, f, l) => { s with pmc := { s.pmc with r0 := r.toNat, f0 := f.toNat, floor := l.toNat } }
      | none => s
    -- key table entry 0 takes a fresh key, except in a memory-preserving boot (R239, R569)
    let s := if s.on HUB_BOOT.MEMKEPT then s.seedAll else s.seedAll.newKey 0
    (List.range 20).foldl (fun s d =>
      if hasBit cfg.domOff d ∨ s.noHbm d ∨ (d < 12 ∧ s.agentState d = 2) ∨ s.rd (PMC_DOM.STATE d) ≠ 0 then s else s.domPower d) s

def execBootChainVerified (fail : BitVec 8) (ver : BitVec 64) (cfg : BootCfg) (s : State) :
    Host.Outcome State Fault Refusal :=
  s.done (s.chainDone fail.toNat ver.toNat cfg)

/-- The interleave sets of R224, the widest first and the lowest CHBASE first: CHW, CHBASE and the number of channels. -/
def interleaveSets : List (Nat × Nat × Nat) :=
  [(0, 0, 16), (1, 0, 8), (1, 8, 8), (2, 0, 4), (2, 4, 4), (2, 8, 4), (2, 12, 4)]

/-- The parity mode in force: OFF where a group would start with two members failed (R561). -/
def parityMode (mode : Nat) (pass : BitVec 16) : Nat :=
  let bad (lo n : Nat) : Nat := ((List.range n).filter (fun k => !pass.getLsbD (lo + k))).length
  match mode with
  | 1 => if bad 0 16 ≤ 1 then 1 else 0
  | 2 => if bad 0 8 ≤ 1 ∧ bad 8 8 ≤ 1 then 2 else 0
  | _ => 0

/-- The interleave set for a parity mode; none where the boot is refused. -/
def interleave (mode : Nat) (pass : BitVec 16) : Option (Nat × Nat × Nat) :=
  if mode ≠ 0 then some (0, 0, 16)
  else interleaveSets.find? (fun x => (List.range x.2.2).all (fun k => pass.getLsbD (x.2.1 + k)))

/-- The usable DDR5 capacity in bytes (R40): less what parity reserves. -/
def usable (mode n gib : Nat) : Nat :=
  let all := n * gib * 2 ^ 30
  match mode with
  | 1 => all / 16 * 15
  | 2 => all / 8 * 7
  | _ => all

/-- The options of the SPDs are supported (R220): a ROW width of 16 or 17 bits, a listed data rate, two DIMMs at 6400 MT/s or
less, and DIMMs of 16 to 256 GiB. -/
def spdOk (map gib : Nat) : Bool :=
  let two := map / 2 ^ 15 % 2
  let rate := map / 2 ^ 12 % 8
  decide (map / 2 ^ 20 % 4 ≤ 1) && decide (rate ≤ 4) && (two == 0 || decide (3 ≤ rate)) &&
    decide (16 * (two + 1) ≤ gib) && decide (gib ≤ 256 * (two + 1)) && gib % (two + 1) == 0

/-- In a memory-preserving boot a channel of the kept set whose verification fails is FENCED (R241, assumption 73). -/
def State.keptSet (s : State) (pass : BitVec 16) : State :=
  (List.range 16).foldl (fun s ch =>
    if s.chActive ch && !pass.getLsbD ch then ((s.setFrz ch frzState 3).groupLoss ch).flushQueues ch else s) s

/-- MCH_MAP and XCP_CTL are written and locked, channels outside the set and those that failed are FENCED (R224, R254,
R560 step 6), and XCP INIT runs (R259). -/
def State.formSet (s : State) (mode : Nat) (set : Nat × Nat × Nat) (pass : BitVec 16) (map gib : Nat) : State :=
  let inSet (ch : Nat) : Bool := decide (set.2.1 ≤ ch) && decide (ch < set.2.1 + set.2.2)
  let s := (List.range 16).foldl (fun s ch =>
    let s := (((s.wr (MCH_MAP.ROWW ch) (map / 2 ^ 20)).wr (MCH_MAP.COLW ch) (map / 2 ^ 19)).wr (MCH_MAP.RKW ch)
      (map / 2 ^ 17)).wr (MCH_MAP.DEVW ch) (map / 2 ^ 16)
    let s := ((s.wr (MCH_MAP.DPC ch) (map / 2 ^ 15)).wr (MCH_MAP.RATE ch) (map / 2 ^ 12)).wr (MCH_MAP.CHW ch) set.1
    let s := ((s.wr (MCH_MAP.CHBASE ch) set.2.1).wr (MCH_MAP.HASH ch) (map / 2 ^ 3)).wr (MCH_MAP.ORDER ch) map
    let s := s.wr (MCH_MAP.LOCK ch) 1
    if inSet ch && pass.getLsbD ch then s else s.setFrz ch frzState 3) s
  let s := { (s.wr XCP_CTL.MODE mode).wr XCP_CTL.LOCK 1 with ddrUsable := usable mode set.2.2 gib }
  if mode = 0 then s else (s.xcpCmd 1 (if mode = 2 then 3 else 1)).initDone

/-- The MOT is written, every entry OPEN and its own granules LOCKED, and the ownership unit starts (R560 step 8). -/
def State.motStart (s : State) (cfg : BootCfg) : State :=
  let s := s.wr OWN_TBASE.BASE cfg.motBase.toNat
  let s := (List.range 16).foldl (fun s k =>
    match cfg.segs[k]? with
    | some (b, n) => ((s.wr (OWN_SEG.V k) 1).wr (OWN_SEG.BASE k) b.toNat).wr (OWN_SEG.LEN k) n.toNat
    | none => s) s
  let total := (List.range 16).foldl (fun v k => v + s.rd (OWN_SEG.LEN k)) 0
  let s := (List.range ((2 * total + 0x1FFFFF) / 0x200000)).foldl (fun s g =>
    s.setMot (cfg.motBase.toNat + g) 2 false 0) s
  (s.wr OWN_CTL.EN 1).wr OWN_CTL.LOCK 1

/-- HOSTFW is copied to its LOAD address (R560 step 9); its granules are OWNED by WORLD 1, ENC 0. -/
def State.hostCopy (s : State) (cfg : BootCfg) (own : Bool) : State :=
  let base := cfg.load.toNat / 64
  let s := if own then
      (List.range ((cfg.image.length + 32767) / 32768)).foldl (fun s g => s.setMot (base / 32768 + g) 1 true 0) s
    else s
  ((List.range cfg.image.length).zip cfg.image).foldl (fun s p => s.memWrite (base + p.1) p.2 false 0) s

/-- HBM contents that were not kept: every OWNED granule of the region returns to OPEN, zeroed (R480). -/
def State.hbmReopen (s : State) : State :=
  (List.range 49152).foldl (fun s i =>
    let g := 0x4000000000000 / 0x200000 + i
    if (s.motOf g).kind = .owned then
      (State.setMot { s with mem := s.mem.filter (fun e => decide (e.1 / 32768 ≠ g)) } g 0 false 0)
    else s) s

/-- The lowest-numbered core that is present. -/
def State.firstCore (s : State) : Option Nat :=
  (List.range 288).find? (fun c => (s.rd HUB_POP.TCD_PRESENT).testBit (c / 24) && s.coreReal c)

/-- Training ends (R560 steps 5 to 10, R561): the DDR5 channels that passed, the HBM3 channels that passed, what the SEP
takes from the SPDs for MCH_MAP, the capacity of a channel in GiB, and whether the RDIMMs support refresh management. -/
def State.trainDone (s : State) (pass : BitVec 16) (hbm : BitVec 64) (map gib : Nat) (rfm : Bool) : State :=
  match s.sys.ph, s.sys.cfg with
  | .train, some cfg =>
    let keep := s.on HUB_BOOT.MEMKEPT
    let pass := if keep || spdOk map gib then pass else 0
    let mode := if keep then s.rd XCP_CTL.MODE else parityMode cfg.parity.toNat pass
    if s.rd HUB_POP.TCD_PRESENT = 0 then s.bootRefused 7
    else
      match (if keep then some (0, 0, 16) else interleave mode pass) with
      | none => s.bootRefused 6
      | some set =>
        let s := if keep then s.keptSet pass else s.formSet mode set pass map gib
        let s := (List.range 16).foldl (fun s ch => s.setChan ch { s.chan ch with rfmOk := rfm }) s
        let s := (List.range 64).foldl (fun s c =>
          if hasBit hbm c ∨ s.on HUB_ID.HBM_STACKS = false then s else s.setFrz (16 + c) frzState 3) s
        let s := (List.range 80).foldl (fun s ch =>
          if s.chActive ch then s.setChan ch { s.chan ch with sref := false } else s) s
        let s : State := { s with dir := [] }
        let s := if keep then s else s.motStart cfg
        let s := if keep && s.sys.kept && !s.on PMC_RIDE.HBM_KEEP then s.hbmReopen else s
        let s := s.hostCopy cfg (!keep)
        let parityOff := !keep && cfg.parity ≠ 0 && mode = 0
        let s := s.pdtWrite ⟨pass, hbm, gib, parityOff⟩ frzState regRated
        let s : State := { s with sys := { s.sys with ph := .ready, kept := false } }
        match s.firstCore with
        | some c => s.coreStart c cfg.load.toNat
        | none => s
  | _, _ => s

def execMemoryTrainingDone (pass : BitVec 16) (hbm : BitVec 64) (map : BitVec 32) (x : DimmSpd) (s : State) :
    Host.Outcome State Fault Refusal :=
  s.done (s.trainDone pass hbm map.toNat x.gib.toNat x.rfm)

/-- A write of HUB_BOOT.RUN: in any mode but BOOT it has no effect and is logged (R572). -/
def State.handoff (s : State) : State :=
  if s.pkgMode ≠ 2 then s.logReg (prsAddr HUB_BOOT.RUN.addr)
  else { s.setMode 3 with sys := { s.sys with ph := .none } }

def execHandoffRun (d : Dev) (s : State) : Host.Outcome State Fault Refusal :=
  s.ifRuns fun s => s.prsWrite d HUB_BOOT.RUN.addr 4 true (fun s => s.handoff)

/-! ### The memory-preserving reset (R566 to R569) -/

/-- Every live L3 starts to send what it and its cores hold (R569 step 3). -/
def State.l3FlushStart (s : State) : State :=
  (List.range 12).foldl (fun s t =>
    if s.agentState t < 2 ∧ s.rd (PMC_DOM.STATE t) = 2 then
      (s.l3.filter (fun e => e.1 / 2 ^ 46 == t)).foldl (fun s e => s.l3Evict t (e.1 % 2 ^ 46)) s
    else s) s

/-- RESET 0; its status. -/
def State.warmReset (s : State) : State × Nat :=
  if (s.pkgMode ≠ 5 ∧ s.pkgMode ≠ 6) ∨ s.sys.ph = .flush ∨ s.sys.pgMain = false ∨ s.pmc.tripped.contains 84 = true ∨
      s.pmc.tripped.contains 85 = true then (s, ESTATE)
  else
    let s : State := { s with sys := { s.sys with ph := .flush }, pf := none, mon := { s.mon with level := none } }
    (s.hubRestart.l3FlushStart, OK)

/-- The units are reset, but for what R568 keeps (R569 step 5). -/
def State.warmUnits (s : State) : State :=
  let regs := s.regs.filter (fun e => warmKey e.1)
  let chans := (List.range 80).foldl (fun t c =>
    let x := s.chan c
    Tbl.put t c ChanSt.init (if s.chActive c then { x with rq := [], sref := true } else x)) []
  let s' : State := { State.reset with
    pending := s.pending, freeCtr := s.freeCtr, now := s.now, tb := s.tb, ans := s.ans
    regs := regs, mem := s.mem, ddrUsable := s.ddrUsable, parity := s.parity, hmc := s.hmc, lfsr := s.lfsr
    hsweep := s.hsweep, encs := s.encs, own := s.own, keyTab := s.keyTab, keySeq := s.keySeq, chans := chans
    xcp := { s.xcp with rebuilds := s.xcp.rebuilds.map (fun r => { r with unsent := r.todo.filter (fun m => m != .delta) }) }
    mesh := { Mesh.init with mask := s.mesh.mask, spare := s.mesh.spare }
    assigns := s.assigns, sepVer := s.sepVer, err := s.err
    pmc := { s.pmc with held := [], waits := [], drained := [], order := [] }
    rly := s.rly, mon := s.mon, sys := s.sys }
  let s' := s'.fixStops
  let s' := [0, 1, 2, 3, 4, 5, 6, 7, 8, 9, 10, 11, 12, 13, 16, 17].foldl (fun s d =>
    (s.wr (PMC_DOM.STATE d) 0).wr (PMC_DOM.HELD d) 0) s'
  (List.range 72).foldl (fun s k => s.wr (PMC_CLUS.ONLINE k) 0) s'

/-- The L3 flush ends (R569 steps 4 to 6): poison for every line still EX or OW, the channels' writes, the reset of the
units, and BOOT with MEMKEPT. -/
def State.flushEnd (s : State) : State :=
  if s.sys.ph ≠ .flush then s
  else
    let s := s.memArrive.poisonSweep.issueAll.errHeld.warmUnits
    let s := (s.setMode 2).wr HUB_BOOT.MEMKEPT 1
    { s with sys := { s.sys with ph := .chain, rst := none, rstFl := false } }

/-- A domain of the target is closed, or powered on at once where it has no power. -/
def State.rstDom (s : State) (d : Nat) : State :=
  let st := s.rd (PMC_DOM.STATE d)
  if st = 2 then s.domClose d
  else if st = 4 then (s.domShow d 0).domPower d
  else if st = 0 then (if d < 12 then s.linkDown d else s).domPower d
  else s

/-- The flush of a die reset has ended: its domain is closed (R570 step 2). -/
def State.rstFlushed (s : State) : State :=
  match s.sys.rst with
  | some t => if s.sys.rstFl then State.rstDom { s with sys := { s.sys with rstFl := false } } t else s
  | none => s

/-- The flush in progress ends: of a memory-preserving reset, or of a die reset, which flushes in the same way (R569 step 3,
R570 step 1). -/
def execFlushDeadline (s : State) : Host.Outcome State Fault Refusal := s.done (s.flushEnd.rstFlushed)

/-- RESET 1, in every mode: cold; then a boot request of the SVP, from any mode but DIETEST (R566). -/
def State.resetCold (s : State) : State :=
  let dt := s.pkgMode == 7
  let s := s.coldReset
  if dt then s else s.bootReq.1

/-! ### Regulator trips and power-good falls (R213, R555) -/

/-- A cluster's four cores are lost. A line that one of them may have held dirty above the L3 is poisoned (assumption 40). -/
def State.clusterLost (s : State) (k : Nat) : State :=
  let s : State := { s with l3 := s.l3.map (fun (e : Nat × L3Line) =>
    if e.1 / 2 ^ 46 = k / 6 ∧ e.2.st = .m ∧ e.2.excl.any (fun c => c / 4 == k % 6) = true then
      (e.1, { e.2 with poison := true }) else e) }
  (List.range 4).foldl (fun s i => s.coreOff (4 * k + i)) s

/-- A regulator shuts itself off: the fatal record and the loss of R213. -/
def State.regTrip (s : State) (r : Nat) : State :=
  if 92 ≤ r ∨ s.pmc.tripped.contains r = true ∨ s.pkgMode = 0 ∨ s.pkgMode = 1 then s
  else if (r = 84 ∨ r = 85) ∧ (s.sys.ph = .flush ∨ (s.pkgMode = 2 ∧ s.on HUB_BOOT.MEMKEPT)) then s.coldReset
  else
    let half := r - 86
    let hmc := r == 86 || r == 87
    let dirty := if hmc then s.rd (halfDirty (16 * half)) else 0
    let off := s.rd (halfState (16 * half)) == HOFF
    let s : State := { s with pmc := { s.pmc with tripped := s.pmc.tripped ++ [r] } }
    let s := s.report { rec0 .fatal 0x12 r 0xC2 with
      quar := r == 84 || r == 85 || (hmc && !off)
      detail := [s.setPoint r, Tbl.getD s.pmc.amps r 0, dirty] }
    if r < 72 then s.clusterLost r
    else if r < 84 then
      (if s.agentState (r - 72) = 2 ∨ s.rd (PMC_DOM.STATE (r - 72)) = 0 then s else s.agentDead (r - 72))
    else if r < 86 then s
    else if hmc then ((s.hmcClear half).wr (halfState (16 * half)) HOFF).wr (PMC_DOM.STATE (14 + half)) 0
    else if r = 88 then (if s.agentState 12 = 2 then s else s.agentDead 12)
    else if r = 89 then s.domShow 13 0
    else if r = 90 then s.stopLost iowStop
    else s.stopLost ioeStop

def execRegulatorTrip (r : BitVec 7) (s : State) : Host.Outcome State Fault Refusal := s.done (s.regTrip r.toNat)

/-- A power-good land is low for 1 µs or longer: 0 PG_AON, 1 PG_MAIN, 2 PG_DDR, 3 PG_HBM, 4 PG_PCIE. A low while its enable
is low is expected (R555, R578). -/
def State.pgFall (s : State) (k : Nat) : State :=
  match k with
  | 0 => s.aonLoss
  | 1 =>
    let s : State := { s with sys := { s.sys with pgMain := false } }
    if s.sys.enMain then s.regTrip 84 else s
  | _ =>
    if 4 < k then s
    else
      let s : State := { s with sys := { s.sys with pgAux := clrBit s.sys.pgAux (k - 2) } }
      if s.sys.enAux ∧ s.stopped = false then s.auxLost (k - 2) else s

def execPowerGoodFall (k : BitVec 3) (s : State) : Host.Outcome State Fault Refusal := s.done (s.pgFall k.toNat)

/-! ### Die and TQE resets (R570, R572) -/

/-- Why HUB_RST is refused: EINVAL before ESTATE (R19). -/
def State.rstCheck (s : State) (tqe : Bool) (t : Nat) : Nat :=
  let st := if tqe then tqeStop else tcdStop t
  let a := if tqe then 12 else t
  firstBad [
    (!tqe && decide (12 ≤ t), EINVAL),
    (s.pkgMode != 3 || s.sys.rst.isSome || (s.rd MESH_DEADRTR.DEAD).testBit st ||
      (decide (s.agentState a < 2) && (if tqe then s.rings.any (fun e => e.2.st == 2 || e.2.st == 3 || e.2.st == 5)
        else (List.range 24).any (fun k => (s.core (24 * t + k)).online))), ESTATE)]

/-- A die or TQE reset starts (R570 steps 1 and 2): a live die flushes what it holds and is closed when the flush has ended;
a live TQE releases every doorbell line, and its domains are closed. -/
def State.rstStart (s : State) (tqe : Bool) (t : Nat) : State :=
  let sts := s.rstCheck tqe t
  let s := s.wr HUB_RST_STS.LAST_STS sts
  if sts ≠ OK then s.logCmd 0x13 0 sts
  else
    let a := if tqe then 12 else t
    let s := State.wr { s with sys := { s.sys with rst := some a } } HUB_RST_STS.BUSY 1
    let live := decide (s.agentState a < 2)
    if tqe then
      let s := if live then s.watch.foldl (fun s e =>
          if e.2.armed then s.tqeEvict e.1 e.2.attr else s) s else s
      (State.rstDom { s with watch := [] } 12).rstDom 13
    else
      let s := if live then (s.l3.filter (fun e => e.1 / 2 ^ 46 == t)).foldl (fun s e => s.l3Evict t (e.1 % 2 ^ 46)) s
        else s
      if live && s.evp.any (fun e => e.1 / 2 ^ 46 == t) then { s with sys := { s.sys with rstFl := true } }
      else s.rstDom t

def execHubRstDie (t : BitVec 4) (d : Dev) (s : State) : Host.Outcome State Fault Refusal :=
  s.ifRuns fun s => s.prsWrite d HUB_RST.OP.addr 4 true (fun s => s.rstStart false t.toNat)

def execHubRstTqe (d : Dev) (s : State) : Host.Outcome State Fault Refusal :=
  s.ifRuns fun s => s.prsWrite d HUB_RST.OP.addr 4 true (fun s => s.rstStart true 0)

/-- The agent is back in service (R570 step 5). -/
def State.rstEnd (s : State) (a sts : Nat) : State :=
  let s := (s.wr HUB_RST_STS.BUSY 0).wr HUB_RST_STS.LAST_STS sts
  let s : State := { s with sys := { s.sys with rst := none } }
  if sts ≠ OK then s.logCmd 0x13 a sts
  else
    let s : State := { s with agentTmo := Tbl.erase s.agentTmo a }
    let s := (s.wr (HUB_AGENT_STATE.SLOT a) 0).wr (MESH_STOP.STATE (stopOfSlot a)) 0
    if a < 12 then (s.wr HUB_POP.TCD_PRESENT (s.rd HUB_POP.TCD_PRESENT ||| 2 ^ a)).pokeDie a else s

/-- A die reset ends with its link ACTIVE or FAILED; a TQE reset once domains 12 and 13 are ON. -/
def State.rstDone (s : State) : State :=
  match s.sys.rst with
  | none => s
  | some a =>
    if a < 12 then
      if s.rd (PMC_DOM.STATE a) ≠ 2 ∨ s.sys.rstFl then s
      else if s.linkState a = 2 then s.rstEnd a OK
      else if s.linkState a = 4 then s.rstEnd a ENODEV
      else s
    else if s.rd (PMC_DOM.STATE 12) = 2 ∧ s.rd (PMC_DOM.STATE 13) = 2 then s.rstEnd 12 OK
    else s

def execDieResetDone (s : State) : Host.Outcome State Fault Refusal := s.ifRuns fun s => s.rstDone

/-! ### CXL windows and the TAP (R587, R591) -/

/-- A port that can run CXL: on PE0, PE1, PE4 or PE5. -/
def cxlCapable (p : Nat) : Bool := p == 0 || p == 1 || p == 4 || p == 5

/-- The fields of HUB_CXLWIN that a write carries. -/
structure CxlWin where
  lock : Nat
  en : Nat
  ways : Nat
  gran : Nat
  ports : Nat
  size : Nat
deriving DecidableEq, Repr

/-- The fields that window k holds. -/
def State.cxlWin (s : State) (k : Nat) : CxlWin :=
  ⟨s.rd (HUB_CXLWIN.LOCK k), s.rd (HUB_CXLWIN.EN k), s.rd (HUB_CXLWIN.WAYS k), s.rd (HUB_CXLWIN.GRAN k),
    s.rd (HUB_CXLWIN.PORTS k), s.rd (HUB_CXLWIN.SIZE k)⟩

/-- The fields that a write asks for: WAYS 3 and a SIZE above 65,536 are reserved encodings, which leave their field as it
is (R8). -/
def State.cxlAsked (s : State) (k v : Nat) : CxlWin :=
  let ways := v / 2 ^ 60 % 4
  let size := v % 2 ^ 17
  ⟨v / 2 ^ 63 % 2, v / 2 ^ 62 % 2, if ways = 3 then s.rd (HUB_CXLWIN.WAYS k) else ways, v / 2 ^ 59 % 2, v / 2 ^ 36 % 4096,
    if 65536 < size then s.rd (HUB_CXLWIN.SIZE k) else size⟩

/-- Why a write of an unlocked HUB_CXLWIN k is ignored as a whole (R587): a port without CXL, a change while bound, or an
unbinding while the HMC may hold dirty lines. -/
def State.cxlIgnored (s : State) (k v : Nat) : Bool :=
  let x := s.cxlAsked k v
  let hmc := [HMC_STATE.STATE_N, HMC_STATE.STATE_S].any (fun f => s.rd f == HON || s.rd f == HDRAIN)
  !(List.range (2 ^ x.ways)).all (fun w => cxlCapable (x.ports / 8 ^ w % 8)) ||
  (s.on (HUB_CXLWIN.EN k) && ({ x with lock := 0, en := 0 } : CxlWin) != { s.cxlWin k with lock := 0, en := 0 }) ||
  (s.on (HUB_CXLWIN.EN k) && x.en == 0 && hmc)

/-- A write of HUB_CXLWIN k. A locked window ignores it, and logs one that would change a field (R9). -/
def State.cxlWrite (s : State) (k v : Nat) : State :=
  let x := s.cxlAsked k v
  let rsv := v / 2 ^ 60 % 4 == 3 || decide (65536 < v % 2 ^ 17)
  let log (s : State) : State := s.logReg (prsAddr (HUB_CXLWIN.EN k).addr)
  if s.on (HUB_CXLWIN.LOCK k) then (if rsv || x != s.cxlWin k then log s else s)
  else if s.cxlIgnored k v then log s
  else
    let s := ((s.wr (HUB_CXLWIN.LOCK k) x.lock).wr (HUB_CXLWIN.EN k) x.en).wr (HUB_CXLWIN.WAYS k) x.ways
    ((((s.wr (HUB_CXLWIN.GRAN k) x.gran).wr (HUB_CXLWIN.PORTS k) x.ports).wr (HUB_CXLWIN.SIZE k) x.size).when rsv log)

def execCxlwinWrite (k : BitVec 4) (v : BitVec 64) (d : Dev) (s : State) : Host.Outcome State Fault Refusal :=
  s.ifRuns fun s => s.prsWrite d (HUB_CXLWIN.EN k.toNat).addr 8 true (fun s => s.cxlWrite k.toNat v.toNat)

/-- A TAP instruction is loaded: 0 BYPASS, 1 IDCODE, 2 SAMPLE/PRELOAD, 3 EXTEST, which acts in STANDBY only; an AUTOBOOT that
it held runs when it leaves. IDCODE places the code of the SKU in the data register: the IX7216-H4 is the one with three
cores in a cluster (R5, R591). -/
def State.tapLoad (s : State) (ir : Nat) : State :=
  let held := s.sys.autoHeld
  let s : State := if ir = 1 then { s with ans := (0, if s.rd HUB_ID.PART = 0x7216 then 0x1721623B else 0x1728823B) } else s
  let s : State := { s with sys := { s.sys with extest := ir == 3 && s.pkgMode == 1 } }
  if s.sys.extest = false ∧ held then State.autoBoot { s with sys := { s.sys with autoHeld := false } } else s

def execTapInstruction (ir : BitVec 2) (s : State) : Host.Outcome State Fault Refusal :=
  s.done (if s.pkgMode = 0 then s else s.tapLoad ir.toNat)

end Sys2Proof.Machine
end

