-- ==== Sys2Proof/Machine/Coherence.lean ====
section
/-!
DEFINITION. The commands of the coherence protocol: messages that reach a home, an agent or a requester (R91 to R105),
timeouts and dead agents (R106 to R109).
-/
namespace Sys2Proof.Machine

/-- RdShared reaches its home (R98). -/
def execRdshared (m : Msg) (s : State) : Host.Outcome State Fault Refusal :=
  s.ifRuns fun s => (s.homeArrive { m with opc := .rdShared })

/-- RdUnique reaches its home (R98). -/
def execRdunique (m : Msg) (s : State) : Host.Outcome State Fault Refusal :=
  s.ifRuns fun s => (s.homeArrive { m with opc := .rdUnique })

/-- Upgrade reaches its home (R98). -/
def execUpgrade (m : Msg) (s : State) : Host.Outcome State Fault Refusal :=
  s.ifRuns fun s => (s.homeArrive { m with opc := .upgrade })

/-- WrFull reaches its home (R98). -/
def execWrfull (m : Msg) (s : State) : Host.Outcome State Fault Refusal :=
  s.ifRuns fun s => (s.homeArrive { m with opc := .wrFull })

/-- WbDirty reaches its home (R98). -/
def execWbdirty (m : Msg) (s : State) : Host.Outcome State Fault Refusal :=
  s.ifRuns fun s => (s.homeArrive { m with opc := .wbDirty })

/-- EvClean reaches its home (R98). -/
def execEvclean (m : Msg) (s : State) : Host.Outcome State Fault Refusal :=
  s.ifRuns fun s => (s.homeArrive { m with opc := .evClean })

/-- MaintCln reaches its home (R148). -/
def execMaintcln (m : Msg) (s : State) : Host.Outcome State Fault Refusal :=
  s.ifRuns fun s => (s.homeArrive { m with opc := .maintCln })

/-- MaintInv reaches its home (R148). -/
def execMaintinv (m : Msg) (s : State) : Host.Outcome State Fault Refusal :=
  s.ifRuns fun s => (s.homeArrive { m with opc := .maintInv })

/-- A home slice admits one waiting transaction (R95). -/
def execHomeAdmit (h : Slice) (ecc : Ecc) (s : State) : Host.Outcome State Fault Refusal :=
  s.ifRuns fun s => (s.homeAdmit h.val ecc)

/-- SnpShared reaches an agent (R99). -/
def execSnpshared (m : Msg) (s : State) : Host.Outcome State Fault Refusal :=
  s.ifRuns fun s => (s.agentArrive { m with opc := .snpShared })

/-- SnpUnique reaches an agent (R99). -/
def execSnpunique (m : Msg) (s : State) : Host.Outcome State Fault Refusal :=
  s.ifRuns fun s => (s.agentArrive { m with opc := .snpUnique })

/-- SnpInv reaches an agent (R99). -/
def execSnpinv (m : Msg) (s : State) : Host.Outcome State Fault Refusal :=
  s.ifRuns fun s => (s.agentArrive { m with opc := .snpInv })

/-- SnpCur reaches an agent (R99). -/
def execSnpcur (m : Msg) (s : State) : Host.Outcome State Fault Refusal :=
  s.ifRuns fun s => (s.agentArrive { m with opc := .snpCur })

/-- SnpCln reaches an agent (R99). -/
def execSnpcln (m : Msg) (s : State) : Host.Outcome State Fault Refusal :=
  s.ifRuns fun s => (s.agentArrive { m with opc := .snpCln })

/-- RspClean reaches the home (R98). -/
def execRspclean (m : Msg) (s : State) : Host.Outcome State Fault Refusal :=
  s.ifRuns fun s => (s.homeRsp { m with opc := .rspClean })

/-- RspClnWb reaches the home (R98). -/
def execRspclnwb (m : Msg) (s : State) : Host.Outcome State Fault Refusal :=
  s.ifRuns fun s => (s.homeRsp { m with opc := .rspClnWb })

/-- RspI reaches the home (R100). -/
def execRspi (m : Msg) (s : State) : Host.Outcome State Fault Refusal := s.ifRuns fun s => (s.homeRsp { m with opc := .rspI })

/-- RspS reaches the home (R100). -/
def execRsps (m : Msg) (s : State) : Host.Outcome State Fault Refusal := s.ifRuns fun s => (s.homeRsp { m with opc := .rspS })

/-- RspIFwd reaches the home (R98). -/
def execRspifwd (m : Msg) (s : State) : Host.Outcome State Fault Refusal :=
  s.ifRuns fun s => (s.homeRsp { m with opc := .rspIFwd })

/-- RspSFwd reaches the home (R98). -/
def execRspsfwd (m : Msg) (s : State) : Host.Outcome State Fault Refusal :=
  s.ifRuns fun s => (s.homeRsp { m with opc := .rspSFwd })

/-- RspOFwd reaches the home (R98). -/
def execRspofwd (m : Msg) (s : State) : Host.Outcome State Fault Refusal :=
  s.ifRuns fun s => (s.homeRsp { m with opc := .rspOFwd })

/-- RspIWb reaches the home (R98). -/
def execRspiwb (m : Msg) (s : State) : Host.Outcome State Fault Refusal := s.ifRuns fun s => (s.homeRsp { m with opc := .rspIWb })

/-- RspSWb reaches the home (R98). -/
def execRspswb (m : Msg) (s : State) : Host.Outcome State Fault Refusal := s.ifRuns fun s => (s.homeRsp { m with opc := .rspSWb })

/-- RspCurFwd reaches the home (R96). -/
def execRspcurfwd (m : Msg) (s : State) : Host.Outcome State Fault Refusal :=
  s.ifRuns fun s => (s.homeRsp { m with opc := .rspCurFwd })

/-- CompAck reaches the home (R96). -/
def execCompack (m : Msg) (s : State) : Host.Outcome State Fault Refusal := s.ifRuns fun s => (s.homeRsp { m with opc := .compAck })

/-- DataS reaches the requester (R97). -/
def execDatas (m : Msg) (s : State) : Host.Outcome State Fault Refusal :=
  s.ifRuns fun s => (s.agentArrive { m with opc := .dataS })

/-- DataE reaches the requester (R97). -/
def execDatae (m : Msg) (s : State) : Host.Outcome State Fault Refusal :=
  s.ifRuns fun s => (s.agentArrive { m with opc := .dataE })

/-- DataM reaches the requester (R97). -/
def execDatam (m : Msg) (s : State) : Host.Outcome State Fault Refusal :=
  s.ifRuns fun s => (s.agentArrive { m with opc := .dataM })

/-- GrantE reaches the requester (R97). -/
def execGrante (m : Msg) (s : State) : Host.Outcome State Fault Refusal := s.ifRuns fun s => (s.agentArrive { m with opc := .grantE })

/-- DataOnce reaches the requester (R96, R316). -/
def execDataonce (m : Msg) (s : State) : Host.Outcome State Fault Refusal :=
  s.ifRuns fun s => (s.agentArrive { m with opc := .dataOnce })

/-- WbAck reaches the agent (R102). -/
def execWback (m : Msg) (s : State) : Host.Outcome State Fault Refusal := s.ifRuns fun s => (s.agentArrive { m with opc := .wbAck })

/-- WbAckStale reaches the agent (R104). -/
def execWbackstale (m : Msg) (s : State) : Host.Outcome State Fault Refusal :=
  s.ifRuns fun s => (s.agentArrive { m with opc := .wbAckStale })

/-- EvAck reaches the agent (R102). -/
def execEvack (m : Msg) (s : State) : Host.Outcome State Fault Refusal := s.ifRuns fun s => (s.agentArrive { m with opc := .evAck })

/-- WrAck reaches the requester (R98, R443). -/
def execWrack (m : Msg) (s : State) : Host.Outcome State Fault Refusal :=
  s.ifRuns fun s => (if m.dst.val = pirStop then s.pirAck { m with opc := .wrAck } else s.agentArrive { m with opc := .wrAck })

/-- MaintAck reaches the requester (R148). -/
def execMaintack (m : Msg) (s : State) : Host.Outcome State Fault Refusal :=
  s.ifRuns fun s => (s.agentArrive { m with opc := .maintAck })

/-- An access to an unmapped address or unpopulated memory reads zero and writes nothing (R42). -/
def execUnmappedAccess (m : Msg) (s : State) : Host.Outcome State Fault Refusal :=
  s.ifRuns fun s => (s.deliver m (fun s m => ((s.unmapped (m.line.toNat * 64 + m.low.toNat) m.attr m.src.val (s.coreOf m)).answerBare m 0)))

/-- A coherent request to a non-memory region is refused (R43). -/
def execNonmemCoherentRefuse (m : Msg) (s : State) : Host.Outcome State Fault Refusal :=
  s.ifRuns fun s => (s.deliver m (fun s m => s.nonMem m))

/-- A snoop times out (R106); its timer stands while the link of the agent it is addressed to is held (R209). -/
def execSnoopTimeout (line : LineAddr) (a : Agent) (s : State) : Host.Outcome State Fault Refusal :=
  s.ifRuns fun s =>
    if a.val < 12 ∧ s.on (STR_STATE.HOLD a.val) then s else s.snoopTimeout (homeOf line.toNat) line.toNat a.val

/-- An agent's timeouts age out of the window; with none left it is ACTIVE again (R108). -/
def State.suspectExpire (s : State) (a : Nat) : State :=
  let t := s.now.toNat
  let ts := (Tbl.getD s.agentTmo a []).filter (fun x => decide (t < x + 1000000000))
  let s := { s with agentTmo := Tbl.put s.agentTmo a [] ts }
  if ts.isEmpty ∧ s.agentState a = 1 then s.wr (HUB_AGENT_STATE.SLOT a) 0 else s

def execSuspectWindowExpire (a : Agent) (s : State) : Host.Outcome State Fault Refusal := s.ifRuns fun s => (s.suspectExpire a.val)

/-- The sweep for dead agents visits one set of a slice (R109). -/
def execDeadAgentSweep (h : Slice) (s : State) : Host.Outcome State Fault Refusal := s.ifRuns fun s => (s.sweepSet h.val)

end Sys2Proof.Machine
end

