-- ==== Sys2Proof/Machine/Counters.lean ====
section
/-!
DEFINITION. Counters that wrap (R483, R484), the split ring (R487 to R491), per-MTAG metering (R492 to R495), and the
commands of SPL_MCMD and SPL_CI (R489, R494, R496).
-/
namespace Sys2Proof.Machine

/-! ### Wraps (R483, R484) -/

/-- A unit counter wraps. -/
def State.unitWrap (s : State) (bank k : Nat) : State := (s.wr (cntFld bank k) 0).raise (ovfFlag bank k)

/-- A core's counter wraps; its core may now take the vector. -/
def State.coreWrap (s : State) (c : Nat) (f : Fld) (g : Flag) : State := ((s.wr f 0).ccWrap c g).poke c

/-- A counter wraps from all ones to zero. -/
def State.ctrWrap (s : State) : Ctr → State
  | .cyc c => s.coreWrap c.val (CCNT_CYC.COUNT c.val) (CCNT_STS.fCYC_OVF c.val)
  | .ins c => s.coreWrap c.val (CCNT_INS.COUNT c.val) (CCNT_STS.fINS_OVF c.val)
  | .core c n => s.coreWrap c.val (CCNT.COUNT c.val n.val) (CCNT_STS.fOVF c.val n.val)
  | .home h k => s.unitWrap (bankHome h.val) k.val
  | .hmc k => s.unitWrap bankHmc k.val
  | .mesh k => s.unitWrap bankMesh k.val
  | .str t k => s.unitWrap (bankStr t.val) k.val
  | .mch m k => s.unitWrap (bankMch m.val) k.val
  | .hbc b k => s.unitWrap (bankHbc b.val) k.val
  | .xcp k => s.unitWrap bankXcp k.val
  | .tqe k => s.unitWrap bankTqe k.val

def execCounterWrap (x : Ctr) (s : State) : Host.Outcome State Fault Refusal := s.ifRuns fun s => s.ctrWrap x

/-! ### The split ring (R487 to R490) -/

/-- The eight words of a record: its header (R488) and its body. -/
def splWords (kind flags lap seq time : Nat) (body : List Nat) : List Nat :=
  [kind % 256 + flags % 256 * 2 ^ 8 + lap % 65536 * 2 ^ 16 + seq % 2 ^ 32 * 2 ^ 32, time % 2 ^ 64] ++
  (List.range 6).map (fun i => body.getD i 0 % 2 ^ 64)

/-- Words of 8 bytes as a line, word 0 lowest. -/
def wordsLine (ws : List Nat) : LineData := BitVec.ofNat 512 (ws.foldr (fun w v => w + 2 ^ 64 * v) 0)

/-- The boundary that ended the last interval: the last multiple of 1 ms (R488, R491). -/
def State.splTime (s : State) : Nat := s.now.toNat / 1000000 * 1000000

/-- A record takes the next SEQ. -/
def State.splSeq (s : State) : Nat × Nat × State :=
  (s.rd SPL_SEQ.SEQ, s.rd SPL_SEQ.LAP, s.advance SPL_SEQ.SEQ SPL_SEQ.LAP SPL_SEQ.LAP_SAT SPL_STS.fSEQ_BELL)

def State.splFull (s : State) : Bool :=
  decide ((s.rd SPL_PI.PI + 2 ^ 32 - s.rd SPL_CI.CI) % 2 ^ 32 = 2 ^ s.rd SPL_RING.LOG2SZ)

/-- Write a record at the ring's index; a failed write stops the ring (R487). None where its line is at work. -/
def State.splWrite (s : State) (ws : List Nat) : Option State :=
  let i := s.rd SPL_PI.PI % 2 ^ s.rd SPL_RING.LOG2SZ
  (s.dmaWrite splStop (s.rd SPL_RING.BASE * 64 + i) ⟨s.on SPL_CTL.WORLD, 0, 0, 0, 0⟩ fullBe (wordsLine ws) false
    false).map (fun p =>
      if 2 ≤ p.2 then ((p.1).wr SPL_CTL.EN 0).raise SPL_STS.fRINGERR
      else
        let v := s.rd SPL_PI.PI
        let t := p.1
        { t.wr SPL_PI.PI (v + 1) with
          spl := { t.spl with piLap := t.spl.piLap.moved 32 v ((v + 1) % 2 ^ 32) } })

/-- With space, the LOST record of the losses is written first (R490). -/
def State.splLost (s : State) : Option State :=
  match s.spl.loss with
  | some (a, n, b) =>
    if s.splFull ∨ s.on SPL_CTL.EN = false then some s
    else
      let (seq, lap, s) := s.splSeq
      let s : State := { s with spl := { s.spl with loss := none } }
      s.splWrite (splWords 4 0 lap seq s.splTime [a + min n 0xFFFFFFFF * 2 ^ 32, b])
  | none => some s

/-- Generate a record: it takes a SEQ, and is written while the ring is on, or lost while it is full. -/
def State.splRec (s : State) (kind flags : Nat) (body : List Nat) : Option State :=
  match s.splLost with
  | none => none
  | some s =>
    let (seq, lap, s) := s.splSeq
    if s.on SPL_CTL.EN = false then some s
    else if s.splFull then
      let l := match s.spl.loss with
        | some (a, n, _) => (a, n + 1, seq)
        | none => (seq, 1, seq)
      let s : State := { s with spl := { s.spl with loss := some l } }
      some ((s.raise SPL_STS.fLOST).wr SPL_LOST.LOST (s.rd SPL_LOST.LOST + 1))
    else s.splWrite (splWords kind flags lap seq s.splTime body)

/-! ### Meters (R492, R493) -/

/-- MTAG 0 is always open. -/
def Meter.zero : Meter := ⟨1, 0, 0, 0, 0, 0, 0, false, 0⟩

/-- The entry of an MTAG; none where it is FREE. -/
def State.meter (s : State) (g : Nat) : Option Meter :=
  match Tbl.get? s.spl.meters g with
  | some m => some m
  | none => if g = 0 then some Meter.zero else none

def State.setMeter (s : State) (g : Nat) (m : Meter) : State :=
  { s with spl := { s.spl with meters := Tbl.set s.spl.meters g m } }

/-- The MTAG whose meter takes a count: its own while it is OPEN, else MTAG 0, as a stray. A CLOSING one takes the counts
of the interval at whose end its final record is due. -/
def State.meterTag (s : State) (g : Nat) : Nat × Bool :=
  match s.meter g with
  | some m => if m.st = 1 ∨ m.quiet < 1024 then (g, false) else (0, true)
  | none => (0, true)

/-- What an interval adds to an MTAG. -/
structure Share where
  energy : Nat
  cycles : Nat
  instr : Nat
  mem : Nat
  tqe : Nat
deriving DecidableEq, Repr

def Share.add (a b : Share) : Share :=
  ⟨a.energy + b.energy, a.cycles + b.cycles, a.instr + b.instr, a.mem + b.mem, a.tqe + b.tqe⟩

def Share.zero : Share := ⟨0, 0, 0, 0, 0⟩

/-- A list of what goes to which MTAG, collected by the MTAG whose meter takes it; true where some was stray. -/
def State.collect (s : State) (l : List (Nat × Share)) : Tbl Share × Bool :=
  l.foldl (fun acc e =>
    let (g, st) := s.meterTag e.1
    (Tbl.set acc.1 g ((Tbl.getD acc.1 g Share.zero).add e.2), acc.2 || (st && e.2 != Share.zero))) ([], false)

/-- The energy of a core's share by MTAG (R493): in proportion to cycles, with the rest of the interval to MTAG 0. -/
def coreEnergy (share total : Nat) (us : List CoreUse) : List (Nat × Share) :=
  let ran := (us.map (fun u => u.cycles.toNat)).sum
  let total := max total ran
  us.map (fun u => (u.mtag.toNat, { Share.zero with energy := share * u.cycles.toNat / max 1 total })) ++
  [(0, { Share.zero with energy := share * (total - ran) / max 1 total })]

/-- The energy of every cluster, in 1/65536 µJ, divided among the MTAGs its cores ran. -/
def State.clusterEnergy (s : State) (use : List CoreUse) : List (Nat × Share) :=
  let n := s.rd HUB_POP.CORES_PER_CLUSTER
  (List.range 72).flatMap (fun k =>
    let share := s.regMw k * 65536 / max 1 n
    (List.range n).flatMap (fun i =>
      coreEnergy share (psFreq (s.rd (PMC_CLUS.PS k)) * 1000) (use.filter (fun u => u.core.val == 4 * k + i))))

/-- The bytes that an interval moved, by MTAG. -/
def State.byteShares (s : State) : List (Nat × Share) :=
  s.spl.mem.map (fun (e : Nat × Nat) => (e.1, { Share.zero with mem := e.2 })) ++
  s.meterTqe.map (fun (e : Nat × Nat) => (e.1, { Share.zero with tqe := e.2 }))

/-- The pool split in proportion to bytes; with no bytes it goes to MTAG 0. -/
def poolEnergy (pool : Nat) (l : List (Nat × Share)) : List (Nat × Share) :=
  let all := (l.map (fun e => e.2.mem + e.2.tqe)).sum
  if all = 0 then [(0, { Share.zero with energy := pool })]
  else l.map (fun e => (e.1, { Share.zero with energy := pool * (e.2.mem + e.2.tqe) / all }))

/-- A meter takes an interval's share; the quantities wrap modulo 2^64. -/
def Meter.take (m : Meter) (x : Share) : Meter :=
  { m with
    energy := (m.energy + x.energy) % 2 ^ 80, cycles := (m.cycles + x.cycles) % 2 ^ 64
    instr := (m.instr + x.instr) % 2 ^ 64, mem := (m.mem + x.mem) % 2 ^ 64, tqe := (m.tqe + x.tqe) % 2 ^ 64 }

/-- The body of a METER record. -/
def Meter.body (m : Meter) (g : Nat) : List Nat :=
  [g + m.openSeq % 2 ^ 32 * 2 ^ 32, m.energy / 65536, m.cycles, m.instr, m.mem, m.tqe]

/-- The METER record of one MTAG at the end of an interval (R491, R492, R494), with the records generated so far. -/
def State.meterRec (s : State) (g : Nat) (x : Share) (t1 stray : Bool) (n : Nat) : Option (State × Nat) :=
  match s.meter g with
  | none => some (s, n)
  | some m =>
    let m' := m.take x
    let idle := x == Share.zero
    let closing := m.st == 2
    let due := closing || m.fresh || !idle || decide (1023 ≤ m.quiet)
    let s1 := s.setMeter g { m' with quiet := if due then 0 else m.quiet + 1, fresh := m.fresh && !due }
    let flags := (if g = 0 ∧ t1 then 1 else 0) + (if g = 0 ∧ stray then 2 else 0) + (if closing then 4 else 0) +
      (if m.fresh then 8 else 0) + (if idle then 16 else 0)
    let free (s : State) : State :=
      State.wr { s with spl := { s.spl with meters := Tbl.erase s.spl.meters g } } SPL_MSTS.OPEN (s.rd SPL_MSTS.OPEN - 1)
    if s.on SPL_CTL.MEN = false then some (if closing then free s1 else s1, n)
    else if due = false then some (s1, n)
    else if closing ∧ s.splFull ∧ s.on SPL_CTL.EN then
      -- the final record waits for space; what carries the MTAG from now on is stray
      some (s.setMeter g { m' with quiet := 1024 }, n)
    else (s1.splRec 2 flags (m'.body g)).map (fun s => (if closing then free s else s, n + 1))

/-- The METER records of an interval, in ascending MTAG. -/
def State.meterRecs (sh : Tbl Share) (t1 stray : Bool) : List Nat → State × Nat → Option (State × Nat)
  | [], p => some p
  | g :: gs, p =>
    match p.1.meterRec g (Tbl.getD sh g Share.zero) t1 (stray && g == 0) p.2 with
    | some q => State.meterRecs sh t1 stray gs q
    | none => none

/-! ### UNIT and END records (R491) -/

/-- The bank that SPL_SNAP j names; none for a block without one. -/
def State.snapBank (s : State) (j : Nat) : Option Nat :=
  if s.on (SPL_SNAP.TQE j) then some bankTqe
  else
    let b := s.rd (SPL_SNAP.BLK j) * 65536
    if (0x200000 ≤ b ∧ b < 0x410000) ∨ (0x500000 ≤ b ∧ b < 0x510000) ∨ (0x600000 ≤ b ∧ b < 0x6C0000) ∨
        (0x700000 ≤ b ∧ b < 0x810000) ∨ (0x900000 ≤ b ∧ b < 0x940000) ∨ b = 0xE00000 then some (b + 0xF000) else none

/-- The slot of SPL_SNAP j. -/
def State.snapSlot (s : State) (j : Nat) : Nat :=
  let k := s.rd (SPL_SNAP.K j)
  2 ^ 63 + j * 2 ^ 56 + (match s.snapBank j with
    | some b => s.rd (cntFld b k) + s.rd (ovfFlag b k).bit * 2 ^ 48
    | none => 0)

/-- Lists of at most six. -/
def sixes : Nat → List Nat → List (List Nat)
  | 0, _ => []
  | _, [] => []
  | n + 1, l => l.take 6 :: sixes n (l.drop 6)

def State.unitRecs : List (List Nat) → State × Nat → Option (State × Nat)
  | [], p => some p
  | b :: bs, p =>
    match p.1.splRec 1 0 b with
    | some s => State.unitRecs bs (s, p.2 + 1)
    | none => none

/-- An interval of 1 ms ends (R491): the meters take their shares, and the records are generated in their order. -/
def State.interval (s : State) (use : List CoreUse) : Option State :=
  let power := s.powerMw
  let s0 : State := { s with freeCtr := s.freeCtr + 1 }
  let pool := (power.1 - power.2) * 65536
  let bytes := s0.byteShares
  let cyc := use.map (fun u => (u.mtag.toNat, { Share.zero with cycles := u.cycles.toNat, instr := u.instr.toNat }))
  let (sh, stray) := s0.collect (s0.clusterEnergy use ++ cyc ++ bytes ++ poolEnergy pool bytes)
  let t1 := s0.spl.t1
  let s1 := s0.when stray (fun s => s.raise SPL_STS.fSTRAY)
  let s1 := s1.when t1 (fun s => s.raise SPL_STS.fT1)
  let tags := 0 :: (s1.spl.meters.map (fun e => e.1)).filter (fun g => g != 0)
  match State.meterRecs sh t1 stray tags (s1, 0) with
  | none => none
  | some p =>
    let uper := s.rd SPL_CTL.UPER
    let split := uper != 0 && decide (uper ≤ s.spl.unitAt + 1)
    let slots := ((List.range 48).filter (fun j => s.on (SPL_SNAP.EN j))).map (fun j => s.snapSlot j)
    match State.unitRecs (if split then sixes 8 slots else []) p with
    | none => none
    | some (s2, n) =>
      let last := s2.rd SPL_SEQ.SEQ
      (s2.splRec 3 0 [power.1, n + 1]).map (fun s => State.srcSync
        { s with
          meterTqe := []
          spl := { s.spl with mem := [], t1 := false, unitAt := if split then 0 else s.spl.unitAt + 1, lastEnd := last } }
        54)

def execMeteringInterval (u : List CoreUse) (s : State) : Host.Outcome State Fault Refusal :=
  s.ifRuns fun s => s.orWait (s.interval u)

/-! ### Commands (R489, R494) -/

/-- A write of SPL_CI: newer than SPL_PI, or older than SPL_PI by more than the ring, is a reserved encoding. -/
def State.splCi (s : State) (v : Nat) : State :=
  let pi := s.rd SPL_PI.PI
  let size := 2 ^ s.rd SPL_RING.LOG2SZ
  if size < (pi + 2 ^ 32 - v % 2 ^ 32) % 2 ^ 32 then
    ((s.logReg (prsAddr SPL_CI.CI.addr)).logHalf 0x0C 0 32 v pi).logHalf 0x0C 0 32 v (pi + 2 ^ 32 - size)
  else (s.wr SPL_CI.CI v).srcSync 54

def execSplCiWrite (v : BitVec 32) (d : Dev) (s : State) : Host.Outcome State Fault Refusal :=
  s.ifRuns fun s => s.prsWrite d SPL_CI.CI.addr 4 false (fun s => s.splCi v.toNat)

/-- The answer to an SPL_MCMD write. -/
def State.splSts (s : State) (sts : Nat) : State :=
  let s := s.wr SPL_MSTS.LAST_STS sts
  if sts = OK then s else s.logCmd 0x0C 0 sts

def State.splOpen (s : State) (g : Nat) : State :=
  let sts := firstBad [(g == 0, EINVAL), ((s.meter g).isSome, ESTATE), (decide (4096 ≤ s.rd SPL_MSTS.OPEN), ENORES)]
  if sts ≠ OK then s.splSts sts
  else ((s.setMeter g ⟨1, s.spl.lastEnd, 0, 0, 0, 0, 0, true, 0⟩).wr SPL_MSTS.OPEN (s.rd SPL_MSTS.OPEN + 1)).splSts OK

def State.splClose (s : State) (g : Nat) : State :=
  let sts := firstBad [(g == 0, EINVAL), (!(s.meter g).any (fun m => m.st == 1), ESTATE)]
  if sts ≠ OK then s.splSts sts
  else
    match s.meter g with
    | some m => (s.setMeter g { m with st := 2, quiet := 0 }).splSts OK
    | none => s

def State.splQuery (s : State) (g : Nat) : State :=
  (s.wr SPL_MSTS.QSTATE (match s.meter g with
    | some m => m.st
    | none => 0)).splSts OK

def execSplOpen (g : BitVec 16) (d : Dev) (s : State) : Host.Outcome State Fault Refusal :=
  s.ifRuns fun s => s.prsWrite d SPL_MCMD.OP.addr 4 false (fun s => s.splOpen g.toNat)

def execSplClose (g : BitVec 16) (d : Dev) (s : State) : Host.Outcome State Fault Refusal :=
  s.ifRuns fun s => s.prsWrite d SPL_MCMD.OP.addr 4 false (fun s => s.splClose g.toNat)

def execSplQuery (g : BitVec 16) (d : Dev) (s : State) : Host.Outcome State Fault Refusal :=
  s.ifRuns fun s => s.prsWrite d SPL_MCMD.OP.addr 4 false (fun s => s.splQuery g.toNat)

end Sys2Proof.Machine
end

