-- ==== Sys2Proof/Machine/Access.lean ====
section
/-!
DEFINITION. Register accesses: the checks of R322 and R45, the sizes of R10, the registers that are composed when they are
read and those whose access is an action, in the PRS and in the TQE's BARs.
-/
namespace Sys2Proof.Machine

/-! ### Registers that are composed when they are read -/

/-- MCH_CAP_QDATA: the selected entry of a freeze unit's snapshot (`ch`), or of the drop list of `dch` (R253; of an HBC the
two may differ, assumption 78). -/
def State.qData (s : State) (ch dch sel : Nat) : Nat :=
  let i := sel % 8192
  match sel / 2 ^ 14 with
  | 0 => (match (s.chan ch).snapR[i]? with | some r => s.queueWord r | none => 0)
  | 1 => (match (s.chan ch).snapW[i]? with | some r => s.queueWord r | none => 0)
  | 2 => (match (s.chan dch).drops[i]? with | some e => 2 ^ 63 + e.2 * 2 ^ 48 + e.1 % 2 ^ 46 | none => 0)
  | _ => 0

/-- The present level of the UART session (R541, R554): what AUTH gave it, else UART_BASE. -/
def State.monLevel (s : State) : Nat := s.mon.level.getD (s.rd DBG_MON.UART_BASE)

/-- The value of a register as it reads, WO fields as zero; mailbox configurations that are fixed, the presence of the
selected VMID, the queue snapshots and the session level are composed here (R309, R444, R253, R554). -/
def State.regRead (s : State) (a : Nat) (d : RegD) : Nat :=
  let s : State := if a = DBG_MON.LEVEL.addr then s.wr DBG_MON.LEVEL s.monLevel else s
  if a = HUB_VMPV.TCDS.addr then Tbl.getD s.vmpv (s.rd HUB_VMPV_SEL.VMID) 0 % 4096
  else if a / 0x100000 = 0xB ∧ a % 0x1000 = 0x48 then s.mbxCfgWord (a / 0x1000 % 64)
  else if a / 0x100000 = 7 ∧ a % 0x10000 = 0x70 then s.qData (a / 0x10000 % 16) (a / 0x10000 % 16) (s.regWord (a - 8))
  else if a / 0x100000 = 9 ∧ a % 0x10000 = 0x70 then
    let k := a / 0x10000 % 4
    s.qData (16 + 16 * k + s.rd (HBC_CAP.CH k)) (16 + 16 * k + s.rd (HBC_CMD.CHAN k)) (s.regWord (a - 8))
  else d.fields.foldl (fun v f => if f.ty = .wo then v else v + s.rd (f.at a) * 2 ^ f.lo) 0

/-! ### The package register space -/

/-- The offset stands in mailbox 14 or 15, which are reserved: R10 applies (R444). -/
def reservedMbx (off : Nat) : Bool := decide (0xB0E000 ≤ off) && decide (off < 0xB10000)

/-- The requester's WORLD and ENC pass the check of R322 at a register of the PRS. -/
def State.prsPass (s : State) (d : Dev) (off : Nat) (wr : Bool) : Bool :=
  let mbx := decide (0xB00000 ≤ off) && decide (off < 0xB40000) && !reservedMbx off
  let m := off / 0x1000 % 64
  let r := off % 0x1000
  if 0xD00000 ≤ off ∧ off < 0xE00000 then d.secure0 && !(wr && decide (0xD01000 ≤ off))
  else if 0x400200 ≤ off ∧ off < 0x400300 then d.secure0
  else if 0xA01000 ≤ off ∧ off < 0xA01800 then
    (if wr then
      let (w, e) := s.assigned 3 ((off - 0xA01000) / 8)
      d.attr.world == w && d.attr.enc.toNat == e
    else d.attr.enc == 0)
  else if 0xA00028 ≤ off ∧ off < 0xA00030 then d.secure0
  else if 0x100300 ≤ off ∧ off < 0x100380 then
    d.attr.enc == 0 && d.attr.world == (s.assigned 0 ((off - 0x100300) / 8)).1
  else if mbx then
    (if r < 0x20 then s.mbSender m d
    else if r < 0x30 then s.mbReceiver m d
    else if 0x38 ≤ r ∧ r < 0x48 then s.mbDoorbells m d
    else if 0x48 ≤ r ∧ r < 0x50 ∧ wr = true then d.secure0
    else if (0x30 ≤ r ∧ r < 0x34) ∨ (0x48 ≤ r ∧ r < 0x50) then !wr || d.attr.enc == 0
    else d.attr.enc == 0)
  else if wr then
    (if 0x1000000 ≤ off ∧ off < 0x1200000 then d.secure0
    else if 0x100020 ≤ off ∧ off < 0x100038 then d.secure0
    else if 0x100400 ≤ off ∧ off < 0x100480 then d.secure0
    else d.attr.enc == 0)
  else d.attr.enc == 0

/-- The power domain of a block or a TCD's range that can be off (R45). -/
def prsDomain (off : Nat) : Option Nat :=
  if 0x2000000 ≤ off ∧ off < 0x2C00000 then some ((off - 0x2000000) / 0x100000)
  else if 0x900000 ≤ off ∧ off < 0x920000 then some 18
  else if 0x920000 ≤ off ∧ off < 0x940000 then some 19
  else none

/-- A command of STR_CMD (R217). -/
def State.strCmd (s : State) (t v : Nat) : State :=
  match v % 16 with
  | 1 => if s.linkState t = 2 then (s.strSts t OK).retrain t else s.strSts t ESTATE
  | 2 => s.loopback t (v / 256 % 16) (v / 16 % 4)
  | 3 => s.lbStop t
  | _ => s.strSts t EINVAL

/-- A command of MCH_CMD, or of HBC_CMD on the channel that its bits [63:60] name (R247, R248, R252, R253). -/
def State.chCmd (s : State) (ch v : Nat) : State :=
  let s := s.chName ch
  match v % 16 with
  | 1 => s.chStart ch .resume 1
  | 2 => s.chRepair ch (v / 2 ^ 32 % 4) (v / 16 % 2) (v / 32 % 8) (v / 256 % 8) (v / 2048 % 4) (v / 8192 % 131072)
  | 3 => s.chFence ch
  | _ => s.chRefuse ch EINVAL

/-- A write of a PRS register whose write is an action; none where it acts by its field types alone. -/
def State.prsAct (s : State) (dv : Dev) (off v : Nat) : Option State :=
  let b := off / 0x10000
  let r := off % 0x10000
  if off = HUB_BOOT.RUN.addr then some (if v.testBit 0 then s.handoff else s)
  else if off = HUB_RST.OP.addr then
    some (match v / 256 % 16 with
      | 1 => s.rstStart false (v % 16)
      | 2 => s.rstStart true 0
      | _ => (s.wr HUB_RST_STS.LAST_STS EINVAL).logCmd 0x13 0 EINVAL)
  else if 0x100400 ≤ off ∧ off < 0x100480 then some (s.cxlWrite ((off - 0x100400) / 8) v)
  else if off = HMC_CMD.OP.addr then some (s.hmcCmd (v % 16) (v / 256 % 4))
  else if 0x400200 ≤ off ∧ off < 0x400300 then some (s.hmcSeed ((off - 0x400200) / 8) v dv.attr)
  else if off = MESH_RECFG.OP.addr then some (s.markDead (v / 256 % 16) (v % 64))
  else if 0x501000 ≤ off ∧ off < 0x501F00 ∧ r % 0x100 < 0x80 then some (s.pcrWrite ((r - 0x1000) / 0x100) (r % 0x100 / 8) v)
  else if 0x60 ≤ b ∧ b < 0x6C ∧ r = 0x08 then some (s.strCmd (b - 0x60) v)
  else if 0x70 ≤ b ∧ b < 0x80 ∧ r = 0x30 then some (s.chCmd (b - 0x70) v)
  else if 0x90 ≤ b ∧ b < 0x94 ∧ r = 0x30 then some (s.chCmd (16 + 16 * (b - 0x90) + v / 2 ^ 60 % 16) v)
  else if off = XCP_CTL.MODE.addr then some (s.xcpCtlWrite v)
  else if off = XCP_CMD.OP.addr then some (s.xcpCmd (v % 16) (v / 256 % 4))
  else if off = PIR_MTTINV.HANDLE.addr then some (s.mttInvalidate v dv)
  else if 0xA01000 ≤ off ∧ off < 0xA01800 then some (s.srcWrite ((off - 0xA01000) / 8) v dv)
  else if 0xB00000 ≤ off ∧ off < 0xB40000 ∧ r % 0x1000 = 0 then
    some (s.mbWrite (off / 0x1000 % 64) v none dv)
  else if 0xB00000 ≤ off ∧ off < 0xB40000 ∧ r % 0x1000 = 0x08 then
    some ((s.mbWrite (off / 0x1000 % 64) v (some (v / 2 ^ 32 % 4 + 1)) dv).fwGo (off / 0x1000 % 64))
  else if 0xB00000 ≤ off ∧ off < 0xB40000 ∧ r % 0x1000 = 0x10 then some (s.mbDbSet (off / 0x1000 % 64) v dv)
  else if 0xB00000 ≤ off ∧ off < 0xB40000 ∧ r % 0x1000 = 0x38 then some (s.mbDbClear (off / 0x1000 % 64) v dv)
  else if off = SPL_CI.CI.addr then some (s.splCi v)
  else if off = SPL_MCMD.OP.addr then
    some (match v % 16 with
      | 1 => s.splOpen (v / 65536)
      | 2 => s.splClose (v / 65536)
      | 3 => s.splQuery (v / 65536)
      | _ => s.splSts EINVAL)
  else if off = ERR_RING_CI.CI.addr then some (s.errCi v)
  else none

/-- What follows a write by field types: the trigger of DBG_PF_CTL (R546), the measures that STR_TEST_SEL selects (R217),
the sources that follow flags and enables, the level of a pin's source (R584). -/
def State.prsAfter (s : State) (off v : Nat) : State :=
  let s := if off = DBG_PF_CTL.TRIG.addr ∧ v.testBit 0 then s.photo 3 else s
  let b := off / 0x10000
  let s := if 0x60 ≤ b ∧ b < 0x6C ∧ off % 0x10000 = 0x200 then s.testShow (b - 0x60) else s
  let s := if 0xB0 ≤ b ∧ b < 0xB4 then s.mbSync (off / 0x1000 % 64) else s
  s.unitSync

/-- A write of 2^lg bytes to a PRS offset. -/
def State.prsStore (s : State) (dv : Dev) (off lg v : Nat) : State :=
  let s := s.reply 0 0
  if 0x2000000 ≤ off ∧ off < 0x2C00000 ∧ (s.rd HUB_POP.TCD_PRESENT).testBit ((off - 0x2000000) / 0x100000) = false then s
  else if s.prsPass dv off true = false then s.devRefused dv (prsAddr off) (2 ^ lg) true
  else if off < 0x100000 ∨ reservedMbx off = true then s.logReg (prsAddr off)
  else if (prsDomain off).any (fun d => !s.domOn d) then s.logRegBy (0x13, 0) (prsAddr off)
  else
    match regHalf off lg with
    | none => s.logReg (prsAddr off)
    | some (a, d, lo) =>
      if d.act64 ∧ lg = 2 then s.logReg (prsAddr off)
      else
        let n := 8 * 2 ^ lg
        let whole := if d.bits = 64 ∧ lg = 2 ∧ d.fields.any (fun f => decide (f.ty ≠ .ro)) then
          mergeBits (s.regRead a d) lo n v else v
        match s.prsAct dv a whole with
        | some s => s
        | none => (s.regWrite a d lo n v (prsAddr off) (prsUnit off)).prsAfter a whole

/-- A byte of the Package Description Table (R563); zero beyond it, and before a table has been written. -/
def State.pdtByte (s : State) (off : Nat) : Nat := (s.pdt.getD off 0).toNat

/-- A read of 2^lg bytes of a PRS offset; the answer and its data go to `ans`. -/
def State.prsLoad (s : State) (dv : Dev) (off lg : Nat) : State :=
  let b := off / 0x10000
  if 0x2000000 ≤ off ∧ off < 0x2C00000 ∧ (s.rd HUB_POP.TCD_PRESENT).testBit ((off - 0x2000000) / 0x100000) = false then
    s.reply 0 0
  else if s.prsPass dv off false = false then s.devRefused dv (prsAddr off) (2 ^ lg) false
  else if off < 0x100000 then
    (if (lg ≠ 2 ∧ lg ≠ 3) ∨ off % 2 ^ lg ≠ 0 ∨ 0x40000 ≤ off then (s.logReg (prsAddr off)).reply 0 0
    else s.reply 0 ((List.range (2 ^ lg)).foldr (fun i v => s.pdtByte (off + i) + 256 * v) 0))
  else if reservedMbx off = true then (s.logReg (prsAddr off)).reply 0 0
  else if (prsDomain off).any (fun d => !s.domOn d) then (s.logRegBy (0x13, 0) (prsAddr off)).reply 0 0
  else
    -- the count of the selected wire as it stands (R217)
    let s := if 0x60 ≤ b ∧ b < 0x6C ∧ off % 0x10000 = 0x208 ∧ s.linkState (b - 0x60) = 5 then s.testShow (b - 0x60) else s
    match regHalf off lg with
    | none => (s.logReg (prsAddr off)).reply 0 0
    | some (a, d, lo) =>
      if a = (ERR_FIFO_OUT.WORD 7).addr then s.errOut lg (lo / 32)
      else if 0xB0 ≤ b ∧ b < 0xB4 ∧ (a % 0x1000 = 0x20 ∨ a % 0x1000 = 0x28) then
        s.mbOut (a / 0x1000 % 64) (a % 0x1000 == 0x28) lg (lo / 32) dv
      else s.reply 0 (s.regRead a d / 2 ^ lo % 2 ^ (8 * 2 ^ lg))

/-! ### The TQE's BARs (R342 to R345) -/

/-- A write of an MSI-X table of a function at an offset of the table (R345): four bytes or eight. -/
def State.msixStore (s : State) (f off lg v : Nat) : State :=
  let k := off / 16
  let x := s.fn f
  let e := x.entry k
  let word (o v : Nat) (e : MsixEnt) : MsixEnt :=
    match o with
    | 0 => { e with addr := mergeBits e.addr 0 32 v }
    | 1 => { e with addr := mergeBits e.addr 32 32 v }
    | 2 => { e with data := v % 2 ^ 32 }
    | _ => { e with mask := v.testBit 0 }
  let e' := word (off / 4 % 4) v e
  let e' := if lg = 3 then word (off / 4 % 4 + 1) (v / 2 ^ 32) e' else e'
  let s := s.setFn f { x with table := Tbl.put x.table k ⟨0, 0, true⟩ e' }
  if e.mask = true ∧ e'.mask = false then s.msixTry f k else s

/-- A read of an MSI-X table. -/
def State.msixLoad (s : State) (f off lg : Nat) : Nat :=
  let e := (s.fn f).entry (off / 16)
  let w := e.addr + e.data * 2 ^ 64 + e.mask.toNat * 2 ^ 96
  w / 2 ^ (8 * (off % 16)) % 2 ^ (8 * 2 ^ lg)

/-- A read of a pending-bit array at an offset in it. -/
def State.pbaLoad (s : State) (f off lg : Nat) : Nat :=
  ((s.fn f).pend.foldl (fun v k => v ||| 2 ^ k) 0) / 2 ^ (8 * off) % 2 ^ (8 * 2 ^ lg)

/-- An access is of 4 or 8 bytes and aligned. -/
def fits (off lg : Nat) : Bool := (lg == 2 || lg == 3) && off % 2 ^ lg == 0

/-- A write of set-up registers of function f at a flat address; `addr` is its system address. -/
def State.tqeStore (s : State) (dv : Dev) (f a lg v addr : Nat) : State :=
  let off := if f = 0 then a - 0x10000000000 else (a - 0x20000000000) % 0x10000
  let lowBad := (s.logRegBy (0x0F, f) addr).reply 0 0
  if f = 0 ∧ 0x100000 ≤ off ∧ off < 0x200000 then
    (if lg = 3 ∧ off % 8 = 0 then
      (if off % 16 = 0 then s.winLow ((off - 0x100000) / 16) v else s.winHigh ((off - 0x100000) / 16) v).reply 0 0
    else lowBad)
  else
    match regHalf a lg with
    | none => lowBad
    | some (b, d, lo) =>
      let o := if f = 0 then b - 0x10000000000 else (b - 0x20000000000) % 0x10000
      let s := s.reply 0 0
      if (f = 0 ∧ o = 0x10000) ∨ (f ≠ 0 ∧ o = 0) then s.admWord f v
      else if (f = 0 ∧ o = 0x10008) ∨ (f ≠ 0 ∧ o = 8) then s.admSubmit f v dv
      else if d.act64 ∧ lg = 2 then s.logRegBy (0x0F, f) addr
      else
        let pf := f == 0
        let mb := (pf && decide (0x40000 ≤ o) && decide (o < 0x80000)) || (!pf && decide (0x1000 ≤ o) && decide (o < 0x1040))
        let e := if pf then (o - 0x40000) / 0x40 else f
        let r := if pf then o % 0x40 else o - 0x1000
        if mb ∧ e = 0 then s.logRegBy (0x0F, f) addr
        else if mb ∧ r = 0x20 then
          let n := 8 * 2 ^ lg
          let s' := if v.testBit 1 then s.mbTake pf e else s
          (s'.regWrite b d lo n (v - v / 2 % 2 * 2) addr (0x0F, f)).mbPend e
        else
          let s := s.regWrite b d lo (8 * 2 ^ lg) v addr (0x0F, f)
          let s := if mb ∧ r = 0x24 ∧ v.testBit 0 then s.mbSend pf e else s
          if f = 0 ∧ b = TQE_INTX.EVENT.addr then s.intaSync else s

/-- A read of set-up registers of function f. -/
def State.tqeLoad (s : State) (f a lg addr : Nat) : State :=
  match regHalf a lg with
  | none => (s.logRegBy (0x0F, f) addr).reply 0 0
  | some (b, d, lo) =>
    let o := if f = 0 then b - 0x10000000000 else (b - 0x20000000000) % 0x10000
    if f = 0 ∧ o = 0x20 then s.fenceRead
    else if (f = 0 ∧ o = 0x10010) ∨ (f ≠ 0 ∧ o = 0x10) then s.admRead f false lg (lo / 32)
    else if (f = 0 ∧ o = 0x10018) ∨ (f ≠ 0 ∧ o = 0x18) then s.admRead f true lg (lo / 32)
    else s.reply 0 (s.regRead b d / 2 ^ lo % 2 ^ (8 * 2 ^ lg))

/-- A write into a BAR of the TQE; BAR4, the peer aperture, takes requests of PCI Express devices only (R350). -/
def State.barStore (s : State) (dv : Dev) (h : BarHit) (addr lg v : Nat) : State :=
  let n := 2 ^ lg
  match h with
  | .bar0 off => s.barAccess 0 addr n true dv (fun s => s.tqeStore dv 0 (0x10000000000 + off) lg v addr)
  | .bar2 off => s.barAccess 0 addr n true dv (fun s =>
      if fits off lg = true ∧ off < 0x8000 then (s.msixStore 0 off lg v).reply 0 0 else (s.logRegBy (0x0F, 0) addr).reply 0 0)
  | .bar4 _ => s.barAccess 0 addr n true dv (fun s => (s.logRegBy (0x0F, 0) addr).reply 0 0)
  | .vf f off => s.barAccess f addr n true dv (fun s =>
      if 0x8000 ≤ off then
        (if fits off lg = true ∧ off < 0x8200 then (s.msixStore f (off - 0x8000) lg v).reply 0 0 else (s.logRegBy (0x0F, f) addr).reply 0 0)
      else s.tqeStore dv f (0x20000000000 + f * 0x10000 + off) lg v addr)

/-- A read of a BAR of the TQE. -/
def State.barLoad (s : State) (dv : Dev) (h : BarHit) (addr lg : Nat) : State :=
  let n := 2 ^ lg
  match h with
  | .bar0 off => s.barAccess 0 addr n false dv (fun s => s.tqeLoad 0 (0x10000000000 + off) lg addr)
  | .bar2 off => s.barAccess 0 addr n false dv (fun s =>
      if fits off lg = false then (s.logRegBy (0x0F, 0) addr).reply 0 0
      else if off < 0x8000 then s.reply 0 (s.msixLoad 0 off lg)
      else if off < 0x8100 then s.reply 0 (s.pbaLoad 0 (off - 0x8000) lg)
      else (s.logRegBy (0x0F, 0) addr).reply 0 0)
  | .bar4 _ => s.barAccess 0 addr n false dv (fun s => (s.logRegBy (0x0F, 0) addr).reply 0 0)
  | .vf f off => s.barAccess f addr n false dv (fun s =>
      if off < 0x8000 then s.tqeLoad f (0x20000000000 + f * 0x10000 + off) lg addr
      else if fits off lg = false then (s.logRegBy (0x0F, f) addr).reply 0 0
      else if off < 0x8200 then s.reply 0 (s.msixLoad f (off - 0x8000) lg)
      else if 0xC000 ≤ off ∧ off < 0xC008 then s.reply 0 (s.pbaLoad f (off - 0xC000) lg)
      else (s.logRegBy (0x0F, f) addr).reply 0 0)

end Sys2Proof.Machine
end

