-- ==== Sys2Proof/Machine/Ecam.lean ====
section
/-!
DEFINITION. PCI Express configuration space (R339 to R343, R562): the registers of the TQE's functions and of the root
ports that this spec gives an effect, at the places that R340 names and that PCI Express Base 6.0 gives them within each
header and capability (PRESUMED, assumption 13); and device accesses by address.
-/
namespace Sys2Proof.Machine

/-- A word of configuration space that the spec leaves to PCI Express. -/
def State.cfgOther (s : State) : Nat × State :=
  let p := s.free
  (p.1.toNat % 2 ^ 32, p.2)

/-! ### The TQE's functions -/

/-- A request of a function has not had its completion (R358). -/
def State.transPending (s : State) (f : Nat) : Bool :=
  s.strays.any (fun x => x.fn == f) || (f == 0 && s.pieces.any (fun p => p.sent && p.out.opc == .rdOnce)) ||
    s.watch.any (fun e => e.2.fn == f && e.2.reading && e.2.got.isNone)

/-- The bits of a dword of a TQE function that PCI Express lets software write and that have no other effect here (assumption
13): Command's parity and SERR bits, cache line size, Interrupt Line, Device Control, and the AER mask and severity of the
options of R340. -/
def pcieBits (o : Nat) : Nat :=
  match o with
  | 0x04 => 0x140
  | 0x0C => 0xFF
  | 0x3C => 0xFF
  | 0x48 => 0x7FFF
  | 0x108 | 0x10C => 0x115000
  | _ => 0

/-- The dword at an offset of a TQE function's configuration space: the header and capabilities of R340 at the places PCI
Express gives them, with the DVSEC's own fields at 0x1AA (function number) and 0x1AC (FGEN in [1:0], ENC in [17:8], WORLD in
[18]), which the spec does not place (assumption 13). What is not listed is absent and reads zero. -/
def State.tqeCfg (s : State) (f o : Nat) : Nat :=
  let x := s.fn f
  let e := s.ep
  let pf := f == 0
  let own := Tbl.getD x.cfg o 0
  match o with
  | 0x00 => (if pf then 0x7E10 else 0x7E11) * 2 ^ 16 + 0x5D1C
  | 0x04 => own + ((pf && x.mse).toNat * 2 + x.bme.toNat * 4 + (pf && x.intxDis).toNat * 2 ^ 10) +
      (pf && s.on TQE_INTX.EVENT).toNat * 2 ^ 19 + 2 ^ 20
  | 0x08 => 0x120000B1
  | 0x10 => if pf then e.bar0 % 2 ^ 32 + 4 else 0
  | 0x14 => if pf then e.bar0 / 2 ^ 32 else 0
  | 0x18 => if pf then e.bar2 % 2 ^ 32 + 4 else 0
  | 0x1C => if pf then e.bar2 / 2 ^ 32 else 0
  | 0x20 => if pf ∧ s.bar4Size ≠ 0 then e.bar4 % 2 ^ 32 + 12 else 0
  | 0x24 => if pf ∧ s.bar4Size ≠ 0 then e.bar4 / 2 ^ 32 else 0
  | 0x2C => 0x00015D1C
  | 0x34 => 0x40
  | 0x3C => own + pf.toNat * 2 ^ 8
  | 0x40 => 0x00928010
  | 0x44 => 0x10008002
  | 0x48 => own + (s.transPending f).toNat * 2 ^ 21
  | 0x80 => 0x9011 + (if pf then 2047 else 31) * 2 ^ 16 + x.msixMask.toNat * 2 ^ 30 + x.msixEn.toNat * 2 ^ 31
  | 0x84 => if pf then 2 else 0x8000
  | 0x88 => if pf then 0x8002 else 0xC000
  | 0x90 => 0x00030001
  | 0x94 => (if x.d3 then 3 else 0) + 8
  | 0x100 => 0x14820001
  | 0x104 => x.aer
  | 0x148 => if pf then 0x1581000E else 0x1A01000E
  | 0x158 => if pf then 0x1A010010 else 0
  | 0x160 => if pf then e.vfEn.toNat + e.vfMse.toNat * 8 + e.ari.toNat * 16 else 0
  | 0x164 => if pf then 4095 + 4095 * 2 ^ 16 else 0
  | 0x168 => if pf then e.numVfs else 0
  | 0x16C => if pf then 1 + 2 ^ 16 else 0
  | 0x170 => if pf then 0x7E11 * 2 ^ 16 else 0
  | 0x174 => if pf then 0x11 else 0
  | 0x178 => if pf then Tbl.getD x.cfg 0x178 1 else 0
  | 0x17C => if pf then e.vfBar0 % 2 ^ 32 + 4 else 0
  | 0x180 => if pf then e.vfBar0 / 2 ^ 32 else 0
  | 0x1A0 => 0x00010023
  | 0x1A4 => 0x01005D1C
  | 0x1A8 => 1 + f * 2 ^ 16
  | 0x1AC => let t := s.fnTag f; x.fgen % 4 + t.2 % 1024 * 2 ^ 8 + t.1.toNat * 2 ^ 18
  | _ => own

/-- A base address register takes an address; the bits below its size read as zero. -/
def barTake (old size hi v : Nat) : Nat :=
  let w := mergeBits old (32 * hi) 32 v
  if size = 0 then 0 else w - w % size

/-- The power state of a function changes: in D3hot it behaves as if Bus Master Enable were 0 (R340). -/
def State.fnPower (s : State) (f st : Nat) : State :=
  let x := s.fn f
  if st = 3 ∧ x.d3 = false then
    let s := s.setFn f { x with d3 := true }
    if x.bme then s.stopIssue f else s
  else if st = 0 ∧ x.d3 = true then
    let s := s.setFn f { x with d3 := false }
    if x.bme then s.resumeIssue f else s
  else s

/-- VF Enable, VF MSE and ARI of the SR-IOV control word; VFs that cease to exist are reset. -/
def State.sriov (s : State) (v : Nat) : State :=
  let en := v.testBit 0
  let s := if s.ep.vfEn ∧ en = false then
      (List.range s.ep.numVfs).foldl (fun s i => (s.flrVf (i + 1)).setFn (i + 1) { (s.fn (i + 1)) with flr := none }) s
    else s
  { s with ep := { s.ep with vfEn := en, vfMse := v.testBit 3, ari := v.testBit 4 } }

/-- A write of the bytes of a dword of a TQE function's configuration space: `w` is the whole dword as it would stand, `c`
the bits written with 1. -/
def State.tqeCfgPut (s : State) (f o w c addr : Nat) : State :=
  let x := s.fn f
  let e := s.ep
  let pf := f == 0
  let s := if pcieBits o = 0 then s else s.setFn f { x with cfg := Tbl.put x.cfg o 0 (w &&& pcieBits o) }
  let x := s.fn f
  match o with
  | 0x04 =>
    let s := if pf then s.setFn 0 { x with mse := w.testBit 1, intxDis := w.testBit 10 } else s
    let s := if w.testBit 2 then s.bmeSet f else s.bmeClear f
    if pf then s.intaSync else s
  | 0x10 => if pf then { s with ep := { e with bar0 := barTake e.bar0 0x400000 0 w } } else s
  | 0x14 => if pf then { s with ep := { e with bar0 := barTake e.bar0 0x400000 1 w } } else s
  | 0x18 => if pf then { s with ep := { e with bar2 := barTake e.bar2 0x10000 0 w } } else s
  | 0x1C => if pf then { s with ep := { e with bar2 := barTake e.bar2 0x10000 1 w } } else s
  | 0x20 => if pf then { s with ep := { e with bar4 := barTake e.bar4 s.bar4Size 0 w } } else s
  | 0x24 => if pf then { s with ep := { e with bar4 := barTake e.bar4 s.bar4Size 1 w } } else s
  | 0x48 => if c.testBit 15 then s.flr f else s
  | 0x80 =>
    let en := w.testBit 31
    let mask := w.testBit 30
    let s := if x.msixMask ∧ mask = false then s.msixUnmask f none else s.setFn f { s.fn f with msixMask := mask }
    if en ∧ x.msixEn = false then s.msixEnable f
    else
      let s := s.setFn f { s.fn f with msixEn := en }
      if pf then s.intaSync else s
  | 0x94 => s.fnPower f (w % 4)
  | 0x104 => s.setFn f { x with aer := x.aer &&& (2 ^ 32 - 1 - c) }
  | 0x160 => if pf then s.sriov w else s
  | 0x168 =>
    let n := w % 65536
    if pf = false ∨ e.vfEn = true then s
    else if 4095 < n then s.logRegBy (0x0F, f) addr
    else { s with ep := { e with numVfs := n } }
  | 0x178 =>
    -- the two page sizes that 0x174 offers (R8)
    if pf = false then s
    else if w = 1 ∨ w = 0x10 then s.setFn 0 { x with cfg := Tbl.put x.cfg 0x178 1 w }
    else s.logRegBy (0x0F, f) addr
  | 0x17C => if pf then { s with ep := { e with vfBar0 := barTake e.vfBar0 0x10000 0 w } } else s
  | 0x180 => if pf then { s with ep := { e with vfBar0 := barTake e.vfBar0 0x10000 1 w } } else s
  | _ => s

/-! ### The root ports -/

/-- The dword at an offset of a root port's Type 1 header. -/
def rootCfg (x : RootPort) (o : Nat) : Option Nat :=
  match o with
  | 0x04 => some (x.bme.toNat * 4)
  | 0x18 => some (x.sec * 2 ^ 8 + x.sub * 2 ^ 16)
  | 0x20 => some (x.memB / 2 ^ 20 % 4096 * 16 + (x.memL / 2 ^ 20 + 4095) % 4096 * 2 ^ 20)
  | 0x24 => some (x.pfB / 2 ^ 20 % 4096 * 16 + 1 + ((x.pfL / 2 ^ 20 + 4095) % 4096 * 16 + 1) * 2 ^ 16)
  | 0x28 => some (x.pfB / 2 ^ 32)
  | 0x2C => some ((x.pfL - 1) / 2 ^ 32)
  | _ => none

/-- A write of a dword of a root port's header. -/
def rootPut (x : RootPort) (o w : Nat) : RootPort :=
  match o with
  | 0x04 => { x with bme := w.testBit 2 }
  | 0x18 => { x with sec := w / 2 ^ 8 % 256, sub := w / 2 ^ 16 % 256 }
  | 0x20 => { x with memB := w / 16 % 4096 * 2 ^ 20, memL := (w / 2 ^ 20 % 4096 + 1) * 2 ^ 20 }
  | 0x24 => { x with
      pfB := x.pfB / 2 ^ 32 * 2 ^ 32 + w / 16 % 4096 * 2 ^ 20
      pfL := (x.pfL - 1) / 2 ^ 32 * 2 ^ 32 + (w / 2 ^ 20 % 4096 + 1) * 2 ^ 20 }
  | 0x28 => { x with pfB := x.pfB % 2 ^ 32 + w * 2 ^ 32 }
  | 0x2C => { x with pfL := (x.pfL - 1) % 2 ^ 32 + 1 + w * 2 ^ 32 }
  | _ => x

/-! ### Accesses to the ECAM window -/

/-- A function of the ECAM window: one of the TQE's, a root port, a function on a bus that a root port reaches, or none. -/
inductive CfgFn where
  | tqe (f : Nat)
  | root (p : Nat)
  | ext (rid : Nat)
  | absent
deriving DecidableEq, Repr

/-- The unit and instance that record a register access of a function (R507). -/
def CfgFn.unit : CfgFn → Nat × Nat
  | .tqe f => (0x0F, f)
  | .root rid => (0x11, rid / 8)
  | .ext _ => (0x13, 0)
  | .absent => (0x13, 0)

/-- The function that an ECAM offset names (R339, R562). -/
def State.cfgFn (s : State) (off : Nat) : CfgFn :=
  let rid := off / 0x1000 % 65536
  let bus := rid / 256
  if 0xF0 ≤ bus then (if s.fnEnabled (rid - 0xF000) then .tqe (rid - 0xF000) else .absent)
  else if bus = 0 then (if rid < 64 ∧ (Tbl.get? s.ports rid).isSome = true then .root rid else .absent)
  else if (s.busPort bus).isSome then .ext rid
  else .absent

/-- The check of R322 and R341. -/
def State.cfgPass (s : State) (dv : Dev) (c : CfgFn) : Bool :=
  dv.attr.enc == 0 && (match c with
    | .tqe f =>
      let (w, e) := s.fnTag f
      (!w && e == 0) || dv.attr.world == w
    | _ => true)

/-- A configuration access is within one dword, of 1, 2 or 4 bytes. -/
def cfgFits (off lg : Nat) : Bool := decide (lg < 3) && off % 2 ^ lg == 0

/-- A configuration write of 2^lg bytes at an offset of the ECAM window. -/
def State.cfgStore (s : State) (dv : Dev) (off lg v : Nat) : State :=
  let addr := 0xFFE0010000000 + off
  let c := s.cfgFn off
  let o := off % 0x1000 / 4 * 4
  let lo := 8 * (off % 4)
  let n := 8 * 2 ^ lg
  let s := s.reply 0 0
  if s.cfgPass dv c = false then s.devRefused dv addr (2 ^ lg) true
  else if cfgFits off lg = false then s.logRegBy c.unit addr
  else
    match c with
    | .tqe f => if (s.fn f).flr.isSome then s else s.tqeCfgPut f o (mergeBits (s.tqeCfg f o) lo n v) (v % 2 ^ n * 2 ^ lo) addr
    | .root p =>
      let x := Tbl.getD s.ports p RootPort.init
      let y := rootPut x o (mergeBits ((rootCfg x o).getD 0) lo n v)
      let s : State := { s with ports := Tbl.set s.ports p y }
      if o = 0x18 ∧ y.sec ≤ y.sub ∧ 0xF0 ≤ y.sub then s.logRegBy (0x11, p / 8) addr else s
    | .ext rid =>
      if o = 0x04 ∧ lo = 0 then
        { s with bmeExt := if v.testBit 2 then (if s.bmeExt.contains rid then s.bmeExt else s.bmeExt ++ [rid])
            else s.bmeExt.filter (fun r => r != rid) }
      else s
    | .absent => s.logReg addr

/-- A configuration read. -/
def State.cfgLoad (s : State) (dv : Dev) (off lg : Nat) : State :=
  let addr := 0xFFE0010000000 + off
  let c := s.cfgFn off
  let o := off % 0x1000 / 4 * 4
  let give (s : State) (w : Option Nat) : State :=
    let p := s.cfgOther
    match w with
    | some w => s.reply 0 (w / 2 ^ (8 * (off % 4)) % 2 ^ (8 * 2 ^ lg))
    | none => p.2.reply 0 (p.1 / 2 ^ (8 * (off % 4)) % 2 ^ (8 * 2 ^ lg))
  if s.cfgPass dv c = false then s.devRefused dv addr (2 ^ lg) false
  else if cfgFits off lg = false then (s.logRegBy c.unit addr).reply 0 0
  else
    match c with
    | .tqe f =>
      -- while a Function Level Reset is not complete: all ones, and a Vendor ID of 0x0001 (R362)
      if (s.fn f).flr.isSome then give s (some (if o = 0 then 0xFFFF0001 else 0xFFFFFFFF)) else give s (some (s.tqeCfg f o))
    | .root p => give s (rootCfg (Tbl.getD s.ports p RootPort.init) o)
    | .ext _ => give s none
    | .absent => (s.logReg addr).reply 0 (2 ^ (8 * 2 ^ lg) - 1)

/-! ### A device access by its address (R42, R44, R157, R322) -/

/-- The requester passes the check of R322 at a BAR of an external function. -/
def State.extPass (s : State) (dv : Dev) (pa : Nat) : Bool :=
  let (w, e) := s.assigned 4 (Config.barOwner pa)
  if w = false ∧ e = 0 then dv.attr.enc == 0 else dv.attr.world == w && dv.attr.enc.toNat == e

/-- A store of bytes of a line to an external function: the root port places it in its transmit queue (R72, R75). What the
device does with it is the device's own affair. -/
def State.extStore (s : State) (dv : Dev) (pa n : Nat) (be : BitVec 64) (d : LineData) : State :=
  match s.portOf pa with
  | none => (s.logReg pa).reply 0 0
  | some p =>
    if s.extPass dv pa = false then s.devRefused dv pa n true
    else { s.reply 0 0 with portQ := Tbl.put s.portQ p [] (Tbl.getD s.portQ p [] ++ [⟨pa / 64, be, d, dv.src⟩]) }

/-- A root port issues the oldest store of its queue onto its link (R75). -/
def State.portIssue (s : State) (p : Nat) : State :=
  match Tbl.getD s.portQ p [] with
  | [] => s
  | x :: xs =>
    { s with
      portQ := Tbl.put s.portQ p [] xs
      portOut := Tbl.put s.portOut p [] (Tbl.getD s.portOut p [] ++ [x]) }

/-- The first access to a BAR of the TQE whose address a root-port window holds too is logged; the BAR takes it (R342). -/
def State.barSeen (s : State) (pa : Nat) : State :=
  if s.ep.overlap ∨ (s.portOf pa).isNone then s else { s with ep := { s.ep with overlap := true } }.logRegBy (0x0F, 0) pa

/-- A store of 2^lg bytes to a device address. -/
def State.devStore (s : State) (dv : Dev) (pa lg v : Nat) : State :=
  match regionOf pa with
  | .prs => s.prsStore dv (prsOff pa) lg v
  | .ecam => s.cfgStore dv (pa - 0xFFE0010000000) lg v
  | .mmio32 | .mmio64 =>
    (match s.tqeBar pa with
    | some h => (s.barSeen pa).barStore dv h pa lg v
    | none =>
      s.extStore dv pa (2 ^ lg) (beOf (pa % 64) (2 ^ lg)) (setLineField 0 (pa % 64) (2 ^ lg) v))
  | _ => (s.unmapped pa dv.attr dv.src.val 0xFFFF).reply 0 0

/-- A load of 2^lg bytes from a device address; the data of an external device are free. -/
def State.devLoad (s : State) (dv : Dev) (pa lg : Nat) : State :=
  let n := 8 * 2 ^ lg
  match regionOf pa with
  | .prs => s.prsLoad dv (prsOff pa) lg
  | .ecam => s.cfgLoad dv (pa - 0xFFE0010000000) lg
  | .mmio32 | .mmio64 =>
    (match s.tqeBar pa with
    | some h => (s.barSeen pa).barLoad dv h pa lg
    | none =>
      if (s.portOf pa).isNone then (s.logReg pa).reply 0 (2 ^ n - 1)
      else if s.extPass dv pa = false then s.devRefused dv pa (2 ^ lg) false
      else
        let p := s.free
        p.2.reply 0 (p.1.toNat % 2 ^ n))
  | _ => (s.unmapped pa dv.attr dv.src.val 0xFFFF).reply 0 0

end Sys2Proof.Machine
end

