-- ==== Sys2Proof/Machine/Target.lean ====
section
/-!
DEFINITION. Requests that reach a home or a device target (R98, R160, R74), register writes (R6), and the timebase's bell
and wrap (R26).
-/
namespace Sys2Proof.Machine

/-! ### The byte enables of a device store (R160, R73) -/

/-- The first enabled byte, and how many bytes follow it without a gap; none where the enables are not one run. -/
def beRun (be : BitVec 64) : Option (Nat × Nat) :=
  match bitsOf be with
  | [] => none
  | f :: l => if (f :: l) = (List.range (l.length + 1)).map (fun i => f + i) then some (f, l.length + 1) else none

/-- The log2 of a size in bytes that is 1, 2, 4 or 8. -/
def lgOf (n : Nat) : Option Nat := match n with | 1 => some 0 | 2 => some 1 | 4 => some 2 | 8 => some 3 | _ => none

def Msg.dev (m : Msg) : Dev := ⟨m.src, m.attr⟩

/-- The access that a device request makes: its address and the log2 of its size. -/
def Msg.place (m : Msg) : Option (Nat × Nat) :=
  if m.opc = .wrPart then
    match beRun m.be with
    | some (f, n) => (lgOf n).map (fun g => (m.line.toNat * 64 + f, g))
    | none => none
  else some (m.line.toNat * 64 + m.low.toNat, m.size.toNat)

/-- IOW passes an ECAM access to buses 0xF0 to 0xFF on to the TQE stop, whose absorber answers it where the stop does not
deliver (R157, R179, R339). -/
def State.tqeForward (s : State) (m : Msg) (k : State → State) : State :=
  let pa := m.line.toNat * 64
  if regionOf pa = .ecam ∧ 0xFFE001F000000 ≤ pa ∧ m.dst.val = iowStop then
    match s.absorbSts iowStop, s.absorbSts tqeStop with
    | none, some sts => (s.arrive m).absorb tqeStop m sts
    | _, _ => k s
  else k s

/-- A device access is delivered to its target. The range of an isolated TCD, and of a block in a domain that is off, answers at
its stop in the absorber's place: reads give zero, and writes have no effect (R45). -/
def State.devDeliver (s : State) (m : Msg) (k : State → Msg → State) : State :=
  let st := s.stopState m.dst.val
  let die := (slotOfStop m.dst.val).any (fun a => decide (a < 12))
  if regionOf (m.line.toNat * 64) = .prs ∧ (st = 2 ∨ (st = 3 ∧ die)) then
    (if s.behind (.msg m) then s else if s.headless m then s.arrive m else k (s.arrive m) m)
  else s.deliver m k

/-- A device store is performed at its target; `ans` holds its status. With every byte enable zero it makes no access; a
store to a register of the package whose bytes form no access of R10 is of a wrong size, while a device behind a root port
takes a gathered write as it is (R73), and a whole line of the window table is its eight 8-byte parts in ascending order
(R352); poison never reaches a BAR register (R160, R357, R10). -/
def State.storeMsg (s : State) (m : Msg) : State :=
  let base := m.line.toNat * 64
  let first := base + (bitsOf m.be).headD 0
  let bar := s.tqeBar first
  if m.be = 0 then s.reply 0 0
  else if m.poison = true ∧ bar.isSome = true then
    let f := match bar with
      | some (.vf f _) => f
      | _ => 0
    ((s.raise TQE_STS.fPSNRX).setAer f aerPoisoned).reply 0 0
  else
    match m.place with
    | some (pa, g) => s.devStore m.dev pa g (lineField m.data (pa % 64) (2 ^ g))
    | none =>
      let table := match bar with
        | some (.bar0 off) => decide (0x100000 ≤ off) && decide (off < 0x200000) && m.be == BitVec.allOnes 64
        | _ => false
      let own := bar.isSome || (match regionOf first with
        | .prs | .ecam => true
        | _ => false)
      if table then (List.range 8).foldl (fun s i => s.devStore m.dev (base + 8 * i) 3 (lineField m.data (8 * i) 8)) s
      else if own then (s.logReg first).reply 0 0
      else s.extStore m.dev first 64 m.be m.data

/-- A device store reaches its target. -/
def State.devWrPart (s : State) (m : Msg) : State :=
  if inMsiWindow (m.line.toNat * 64) then s.msiArrive m
  else
    s.tqeForward m <| fun s => s.devDeliver m (fun s m =>
      let s := s.storeMsg m
      (s.returnCredit m).answer m .wrAck s.ans.1 0 false)

/-- An address is served behind a root port. -/
def State.external (s : State) (pa : Nat) : Bool :=
  match regionOf pa with
  | .mmio32 | .mmio64 => (s.tqeBar pa).isNone && (s.portOf pa).isSome
  | _ => false

/-- A device load reaches its target. The completion of a read from a device waits until the memory writes that its stop
took before it are visible (R76). -/
def State.devRdOnce (s : State) (m : Msg) : State :=
  let pa := m.line.toNat * 64 + m.low.toNat
  if s.external pa && !s.postedDone m.dst.val none then s
  else
    s.tqeForward m (fun s => s.devDeliver m (fun s m =>
      let n := s.fence.length
      let s := s.devLoad m.dev pa m.size.toNat
      -- a read of TQE_WIN_FENCE is answered when it returns (R353)
      if n < s.fence.length then
        { s with fence := s.fence.take n ++ (s.fence.drop n).map (fun (x : Fence) => { x with rq := some m }) }
      else (s.returnCredit m).answer m .dataOnce s.ans.1 (BitVec.ofNat 512 (s.ans.2 * 2 ^ (8 * m.low.toNat))) false))

/-- RdOnce at its home or device target (R70, R98, R160). -/
def execRdonce (m : Msg) (s : State) : Host.Outcome State Fault Refusal :=
  let m := { m with opc := .rdOnce }
  s.ifRuns fun s => if m.isDevice then s.devRdOnce m else s.homeArrive m

/-- WrPart at its home or device target. -/
def execWrpart (m : Msg) (s : State) : Host.Outcome State Fault Refusal :=
  let m := { m with opc := .wrPart }
  s.ifRuns fun s =>
    match m.interrupt? with
    | some (c, vec, world) => s.intStore c vec world m
    | none => if m.isDevice then s.devWrPart m else s.homeArrive m

/-- A device load gets no completion from the device: all ones, and a record with the status TIMEOUT (R74). -/
def State.devTimeout (s : State) (m : Msg) : State :=
  let pa := m.line.toNat * 64 + m.low.toNat
  if s.external pa = false then s
  else
    s.deliver m (fun s m =>
      let s := s.report { rec0 .info 0x11 ((s.portOf pa).getD 0 / 8) 0xC9 with addr := some pa, sts := TIMEOUT }
      (s.returnCredit m).answer m .dataOnce 0 onesLine false)

def execDeviceLoadTimeout (m : Msg) (s : State) : Host.Outcome State Fault Refusal :=
  s.ifRuns fun s => s.devTimeout { m with opc := .rdOnce }

/-! ### Register writes -/

/-- A write of 2^lg bytes to a register (R6): by a requester to a device address, or by a core to one of its system
registers. -/
def execRegisterWrite (p : RegPlace) (lg : BitVec 2) (v : BitVec 64) (d : Dev) (s : State) :
    Host.Outcome State Fault Refusal :=
  s.ifRuns fun s =>
    match p with
    | .mem pa => s.devStore d pa.toNat lg.toNat v.toNat
    | .sys c num => s.coreInstr c (.sysW num.toNat v.toNat)

/-! ### The timebase (R26) -/

/-- Where the timebase's bell first rings. -/
def tbThreshold : Nat := 0xE000000000000000

/-- The timebase moves to a value that is not below its present one (modulo its width): bell and lap (R23, R24). The
spec gives its lap, LAP_SAT, bell and bell count no register and no clearing command: the model keeps them in State.tb,
and the bell stands until a cold reset (DESIGN CHOICE, assumption 50). -/
def State.tbMove (s : State) (t : Nat) : State :=
  let v := s.now.toNat
  let w := t % 2 ^ 64
  { s with now := BitVec.ofNat 64 w, tb := s.tb.moved 64 v w }

/-- The timebase moves, and PIR source 55 follows its bell. -/
def State.tbSet (s : State) (t : Nat) : State := (s.tbMove t).srcSync 55

/-- The timebase reaches seven eighths of its range. A timebase already there keeps its value. -/
def execTimebaseBell (s : State) : Host.Outcome State Fault Refusal :=
  s.done (if s.now.toNat < tbThreshold then s.tbSet tbThreshold else s)

/-- The timebase passes its last value. -/
def execTimebaseWrap (s : State) : Host.Outcome State Fault Refusal :=
  s.done ((s.tbMove (2 ^ 64 - 1)).tbSet (2 ^ 64))

end Sys2Proof.Machine
end

