-- ==== Sys2Proof/Machine/Capture.lean ====
section
/-!
DEFINITION. The byte stream of a photo-finish capture (R549 to R552). Where the spec gives a section's items but no order
or place of the values within an item, the model's choice is assumption 24.
-/
namespace Sys2Proof.Machine

/-- Invasive debug is allowed for a world and enclave (R332, R333). -/
def State.mayShow (s : State) (world : Bool) (enc : Nat) : Bool := s.dbgAllowed true world enc

/-- A record: its header, and its items of `size` bytes each (R549). -/
def capRecord (sect flags inst size : Nat) (items : List Nat) : List (BitVec 8) :=
  let body := packBytes (items.map (fun v => (v, size)))
  packBytes [(sect, 1), (flags, 1), (inst, 2), (body.length, 4), (items.length, 4), (crc32c body, 4)] ++ body

/-- The instance is absent, isolated or powered off. -/
def capEmpty (sect inst : Nat) : List (BitVec 8) := capRecord sect 4 inst 1 []

/-! ### Cores -/

/-- Every register that a description stands for. -/
def RegD.places (d : RegD) : List Nat :=
  (List.range d.n1).flatMap (fun i => (List.range d.n2).map (fun j => d.base + i * d.s1 + j * d.s2))

/-- The system registers of a core in number order: number and value. -/
def State.sysRegs (s : State) (c : Nat) : List (Nat × Nat) :=
  let x := s.core c
  let b := x.bank (s.bankSel c)
  let base := 0x100000000 + c * 0x10000
  let t : Tbl Nat := regsAllSys.foldl (fun t d =>
    (List.range d.n2).foldl (fun (t : Tbl Nat) j =>
      let num := d.base % 0x10000 + j * d.s2
      Tbl.set t num (if num = 0x4000 then b.isr.toNat + b.pri.toNat * 65536 else s.regRead (base + num) d)) t) []
  Tbl.set (Tbl.set t 0x4048 (x.bankV.isr.toNat + x.bankV.pri.toNat * 65536)) 0x6008 (s.rd (WVEC c))

/-- The registers of a core by their numbers in the CORE section: its context, g0 to g31, the program counter, and its
system registers. What a register shows whose load has not bound it is free (assumption 3). -/
def State.coreItems (s : State) (c : Nat) : List (Nat × Nat) :=
  let x := s.core c
  [(0xF0FF, (s.on (WCTL.WORLD c)).toNat + x.enclave * 2 + lvlCode x.lvl * 2 ^ 16)] ++
  (List.range 32).map (fun r => (0xF000 + r, (x.regVal r).getD ((Config.freeValue (2 ^ 64 + 32 * c + r)).toNat % 2 ^ 64))) ++ [(0xF020, x.pc)] ++ s.sysRegs c

def State.capCore (s : State) (c : Nat) : List (BitVec 8) :=
  if s.coreReal c = false ∨ s.domOn (dieOf c) = false then capEmpty 0x10 c
  else
    let ok := s.mayShow (s.on (WCTL.WORLD c)) (s.core c).enclave
    capRecord 0x10 (!ok).toNat c 16
      ((s.coreItems c).map (fun p => p.1 + (if ok || p.1 == 0xF0FF then p.2 else 0) * 2 ^ 64))

/-! ### Caches, directory and HMC -/

/-- The valid lines of an array of a die in the order of sets and ways: set and way, and the line (R119). -/
def State.arrLines (s : State) (inst : Nat) : List ((Nat × Nat) × L3Line) :=
  let t := inst / 128
  let k := inst % 128
  (s.arr inst).ways.filterMap (fun e =>
    match s.l3At t e.2 with
    | some x => if 96 ≤ k ∨ hasBit x.pres (k / 4) then some (e, x) else none
    | none => none)

/-- The R81 code of a state. -/
def Moesi.code : Moesi → Nat
  | .m => 4 | .o => 3 | .e => 2 | .s => 1

/-- An item of the TAGS section. -/
def tagItem (line st : Nat) (psn world : Bool) (enc pres pcls way set : Nat) : Nat :=
  line + st * 2 ^ 46 + psn.toNat * 2 ^ 49 + world.toNat * 2 ^ 50 + enc * 2 ^ 51 + 2 ^ 63 +
    (pres + pcls * 2 ^ 24 + way * 2 ^ 28 + set * 2 ^ 32) * 2 ^ 64

/-- The state that an array shows of a line: the L3 the TCD's; a private array M or E where its core has the line alone, else S
(R82, R550). -/
def L3Line.shown (x : L3Line) (k : Nat) : Nat :=
  if 96 ≤ k ∨ x.excl = some (k / 4) then x.st.code else Moesi.s.code

def State.capTags (s : State) (inst : Nat) : List (BitVec 8) :=
  let t := inst / 128
  let k := inst % 128
  if s.dieGone t ∨ s.domOn t = false then capEmpty 0x11 inst
  else
    capRecord 0x11 0 inst 16 ((s.arrLines inst).map (fun e =>
      tagItem e.1.2 (e.2.shown k) e.2.poison e.2.attr.world e.2.attr.enc.toNat (if 96 ≤ k then e.2.pres.toNat else 0)
        e.2.attr.pcls.toNat (e.1.1 % 16) (e.1.1 / 16)))

def State.capData (s : State) (inst : Nat) : List (BitVec 8) :=
  let t := inst / 128
  if s.dieGone t ∨ s.domOn t = false then capEmpty 0x12 inst
  else
    let ls := s.arrLines inst
    let ok (x : L3Line) : Bool := s.mayShow x.attr.world x.attr.enc.toNat
    capRecord 0x12 (ls.any (fun e => !ok e.2)).toNat inst 64 (ls.map (fun e => if ok e.2 then e.2.data.toNat else 0))

def DirSt.code : DirSt → Nat
  | .inv => 0 | .sh => 1 | .ex => 2 | .ow => 3

/-- The 64 bits of a directory entry (R88). -/
def DirEnt.word (e : DirEnt) : Nat :=
  let w := (if e.bi then 1 else 0) + e.sharers.toNat * 2 + e.owner * 2 ^ 17 + e.st.code * 2 ^ 21 + e.line / 2 ^ 14 * 2 ^ 24
  w + Config.secded w % 256 * 2 ^ 56

def State.capDir (s : State) (h : Nat) : List (BitVec 8) :=
  capRecord 0x20 0 h 8 ((List.range 262144).map (fun i =>
    match s.dirAt h (i / 16) (i % 16) with
    | some e => e.word
    | none => Config.secded 0 % 256 * 2 ^ 56))

/-- The ways of a slice that hold a line, in the order of sets and ways. -/
def State.sliceWays (s : State) (h : Nat) : List (Nat × HmcWay) := s.hmc.filter (fun e => e.1 / 65536 == h)

def State.capHmcTags (s : State) (h : Nat) : List (BitVec 8) :=
  if s.domOn (14 + h / 16) = false then capEmpty 0x21 h
  else capRecord 0x21 0 h 16 ((s.sliceWays h).map (fun e =>
    tagItem e.2.line (if e.2.dirty then 4 else 1) e.2.poison false 0 0 0 (e.1 % 16) (e.1 / 16 % 4096)))

def State.capHmcData (s : State) (h : Nat) : List (BitVec 8) :=
  if s.domOn (14 + h / 16) = false then capEmpty 0x22 h
  else
    let ls := s.sliceWays h
    let ok (e : Nat × HmcWay) : Bool :=
      let m := s.motRaw e.2.line
      if m.kind = .owned then s.mayShow m.world m.enc else s.mayShow false 0
    capRecord 0x22 (ls.any (fun e => !ok e)).toNat h 64 (ls.map (fun e => if ok e then e.2.data.toNat else 0))

/-! ### The mesh and the links -/

/-- A flit of a device access. -/
def Load.isDevice : Load → Bool
  | .msg m | .part m => m.isDevice
  | _ => false

/-- The flits in a router's buffers: plane, input port, virtual channel and place in the buffer, then the flit (R550). -/
def State.capMesh (s : State) (r : Nat) : List (BitVec 8) :=
  let fs := s.mesh.net.filter (fun f => f.at? == some r)
  let ok (f : Flit) : Bool := s.mayShow f.load.attr.world f.load.attr.enc.toNat
  let item (i : Nat) (f : Flit) : Nat :=
    let b := f.buffer f.hop
    let slot := ((fs.take i).filter (fun g => g.buffer g.hop == b)).length
    b.1 + b.2.2.1 * 2 ^ 8 + b.2.2.2 * 2 ^ 16 + slot * 2 ^ 24 + (if ok f then (f.bits f.load.isDevice).toNat else 0) * 2 ^ 64
  capRecord 0x30 (fs.any (fun f => !ok f)).toNat r 96 ((List.range fs.length).zip fs |>.map (fun e => item e.1 e.2))

/-- The 640 flit bits of a slot (R190): one message with data, or up to five headers, or up to four SNP flits; the route
fields are zero on a link. -/
def slotFlits (ms : List Msg) : BitVec 640 :=
  match ms with
  | [] => 0
  | m :: _ =>
    let head (m : Msg) : Nat := (m.header 0 m.isDevice).toNat
    if m.opc.hasData then m.data ++ m.header 0 m.isDevice
    else
      let w := if m.opc.isSnoop then 160 else 128
      BitVec.ofNat 640 (ms.foldr (fun m v => head m + 2 ^ w * v) 0)

/-- The control byte of a slot with messages (R190). -/
def slotCtl (chan : Nat) (ms : List Msg) : Nat :=
  let kind := match ms with
    | m :: _ => if m.opc.hasData then 0 else if m.opc.isSnoop then 2 else 1
    | [] => 3
  chan * 64 + (ms.length - 1) * 8 + kind * 2 + 1

/-- The slots that an end of a link holds: channel, buffer (0 a channel buffer, 1 the replay buffer) and their messages. The
hub end holds what has arrived and what the die has not acknowledged, the die end what it is to send again (R195; the order
of a slot's bits and the numbers of buffers are assumption 24). -/
def State.linkSlots (s : State) (i : Nat) : List (Nat × Nat × List Msg) :=
  let x := s.link (i / 2)
  if i % 2 = 0 then x.rx.map (fun e => (e.1, 0, e.2)) ++ x.unacked.map (fun e => (downChan e.2, 1, [e.2]))
  else x.lost.map (fun e => (e.1.toNat / 64, 1, e.2))

def State.capLink (s : State) (i : Nat) : List (BitVec 8) :=
  if s.dieGone (i / 2) then capEmpty 0x31 i
  else
    let l := s.linkSlots i
    let ok (e : Nat × Nat × List Msg) : Bool := e.2.2.all (fun m => s.mayShow m.attr.world m.attr.enc.toNat)
    let item (k : Nat) (e : Nat × Nat × List Msg) : Nat :=
      let n := ((l.take k).filter (fun g => g.1 == e.1 && g.2.1 == e.2.1)).length
      let fl := slotFlits e.2.2
      let bits := (BitVec.ofNat 8 (slotCtl e.1 e.2.2) ++ Config.slotCheck fl ++ fl).toNat
      e.1 + e.2.1 * 2 ^ 8 + n * 2 ^ 16 + (if ok e then bits else 0) * 2 ^ 64
    capRecord 0x31 (l.any (fun e => !ok e)).toNat i 96 ((List.range l.length).zip l |>.map (fun e => item e.1 e.2))

/-! ### Queues, registers, records, TQE -/

/-- The freeze units of a controller: MCH 0 to 15, HBC 16 to 19. -/
def ctlChans (k : Nat) : List Nat := if k < 16 then [k] else (List.range 16).map (fun i => 16 + 16 * (k - 16) + i)

def State.capQueue (s : State) (k : Nat) : List (BitVec 8) :=
  let fail : Bool := s.pf.any (fun p => (ctlChans k).any (fun c => p.wait.contains c))
  if 16 ≤ k ∧ s.domOn (18 + (k - 16) / 2) = false then capEmpty 0x40 k
  else
    capRecord 0x40 (if fail then 2 else 0) k 8
      ((ctlChans k).flatMap (fun c => (s.chan c).rq.map (fun e => s.queueWord e.req)) ++
       (ctlChans k).flatMap (fun c => (s.chan c).wq.map (fun e => s.queueWord e.req)) ++
       (ctlChans k).flatMap (fun c => (s.chan c).drops.map (fun e => 2 ^ 63 + e.2 * 2 ^ 48 + e.1 % 2 ^ 46)))

/-- The registers of a PRS block in order: offset and value. -/
def State.blockRegs (s : State) (b : Nat) : Tbl Nat :=
  regsAllPrs.foldl (fun t d =>
    (d.places.filter (fun a => a / 65536 == b)).foldl (fun (t : Tbl Nat) a => Tbl.set t a (s.regRead a d)) t) []

/-- The PRS blocks that hold registers. -/
def prsBlocks : List Nat :=
  (regsAllPrs.foldl (fun t d => d.places.foldl (fun (t : Tbl Nat) a => Tbl.set t (a / 65536) 0) t) ([] : Tbl Nat)).map
    (fun e => e.1)

def State.capRegs (s : State) (b : Nat) : List (BitVec 8) :=
  if (prsDomain (b * 65536)).any (fun d => !s.domOn d) then capEmpty 0x50 b
  else capRecord 0x50 0 b 16 ((s.blockRegs b).map (fun e => e.1 + e.2 * 2 ^ 64))

def State.capErr (s : State) : List (BitVec 8) :=
  capRecord 0x51 0 0 64 (s.err.fifo.map (fun r => r.words.foldr (fun w v => w + 2 ^ 64 * v) 0))

/-- The 64 bytes of a ring context (R368). -/
def RingCtx.words (x : RingCtx) : Nat :=
  let ws := [
    x.st + x.lg * 2 ^ 4 + x.fn * 2 ^ 12 + x.pcls * 2 ^ 24 + x.qos * 2 ^ 28 + x.mtag * 2 ^ 32 + x.vec * 2 ^ 48,
    x.sq / 4096 * 4096, x.cq / 4096 * 4096, x.db / 64 * 64,
    x.fetch + x.piSeen * 2 ^ 32,
    x.done + x.doneDup * 2 ^ 32,
    x.lap + x.lapSat.toNat * 2 ^ 16 + x.bell.toNat * 2 ^ 17 + x.err * 2 ^ 24 + x.fetchDup * 2 ^ 32]
  let check := ws.foldr (fun w v => Config.secded w % 256 + 256 * v) 0
  (ws ++ [check]).foldr (fun w v => w + 2 ^ 64 * v) 0

def State.capTqe (s : State) : List (BitVec 8) :=
  if s.domOn 12 = false then capEmpty 0x60 0
  else
    let ok (r : Nat) : Bool := let g := s.ringTag r (s.ring r).fn; s.mayShow g.1 g.2
    capRecord 0x60 (s.ctxCache.any (fun r => !ok r)).toNat 0 64
      (s.ctxCache.map (fun r => if ok r then (s.ring r).words else 0))

def State.capKeys (s : State) : List (BitVec 8) :=
  if s.domOn 12 = false then capEmpty 0x61 0
  else
    let ks := s.slots.filter (fun e => e.2.type != 0)
    let ok (e : Nat × Slot) : Bool := s.mayShow (s.fnTag e.2.fn).1 (s.fnTag e.2.fn).2
    capRecord 0x61 (ks.any (fun e => !ok e)).toNat 0 8
      (ks.map (fun e => (if ok e then s.keyInfo e.1 else 0) + e.1 * 2 ^ 48))

/-! ### The stream -/

/-- The sections of R550 between HEAD and END, in ascending code. -/
def capCodes : List Nat := [0x10, 0x11, 0x12, 0x20, 0x21, 0x22, 0x30, 0x31, 0x40, 0x50, 0x51, 0x60, 0x61]

/-- The arrays of the TAGS and DATA sections. -/
def capArrays : List Nat :=
  (List.range 12).flatMap (fun t => ((List.range 24).flatMap (fun c => (List.range 3).map (fun a => 128 * t + 4 * c + a))) ++
    (List.range 16).map (fun b => 128 * t + 96 + b))

/-- A section: every instance in ascending order. -/
def State.capSection (s : State) (code : Nat) : List (BitVec 8) :=
  match code with
  | 0x10 => (List.range 288).flatMap s.capCore
  | 0x11 => capArrays.flatMap s.capTags
  | 0x12 => capArrays.flatMap s.capData
  | 0x20 => (List.range 32).flatMap s.capDir
  | 0x21 => (List.range 32).flatMap s.capHmcTags
  | 0x22 => (List.range 32).flatMap s.capHmcData
  | 0x30 => (List.range 64).flatMap s.capMesh
  | 0x31 => (List.range 24).flatMap s.capLink
  | 0x40 => (List.range 20).flatMap s.capQueue
  | 0x50 => prsBlocks.flatMap s.capRegs
  | 0x51 => s.capErr
  | 0x60 => s.capTqe
  | 0x61 => s.capKeys
  | _ => []

/-- The HEAD record: the selected sections as a bitmap in the order of R550's table. -/
def State.capHead (s : State) (secs : List Nat) : List (BitVec 8) :=
  let sel := (List.range capCodes.length).foldl (fun v i => if secs.contains (capCodes.getD i 0) then v + 2 ^ i else v) 0
  let ws := [s.rd DBG_PF_TIME.TIME, s.rd DBG_PF_STS.SRC, s.rd HUB_PKG_MODE.PREV_MODE, s.regWord DBG_POLICY.INV_S.addr,
    s.regWord HUB_ID.VENDOR.addr, s.regWord HUB_POP.TCD_PRESENT.addr, Config.serial.toNat, sel]
  capRecord 0x01 0 0 64 [ws.foldr (fun w v => w + 2 ^ 64 * v) 0]

/-- The whole stream of a selection; none selected means all (R543). -/
def State.capStream (s : State) (secs : List Nat) : List (BitVec 8) :=
  let secs := if secs.isEmpty then capCodes else secs
  let body := s.capHead secs ++ (capCodes.filter (fun c => secs.contains c)).flatMap s.capSection
  body ++ capRecord 0x7F 0 0 16 [body.length + 32 + crc32c body * 2 ^ 64]

end Sys2Proof.Machine
end

