-- ==== Sys2Proof/Machine/Monitor.lean ====
section
/-!
DEFINITION. The service monitor (R537 to R545), the readout of a capture (R549 to R553), and the photo-finish triggers and
its stop sequence (R546, R547).
-/
namespace Sys2Proof.Machine

/-- A change of the monitor's own state. -/
def State.setMon (s : State) (m : MonSt) : State := { s with mon := m }

/-! ### Answers (R527, R530, R539) -/

/-- A list in pieces of n; one empty piece for an empty list. -/
def chunks {α : Type} (n : Nat) : Nat → List α → List (List α)
  | 0, l => [l]
  | k + 1, l => if l.length ≤ n then [l] else l.take n :: chunks n k (l.drop n)

/-- The firmware processor writes bytes into an answer mailbox. -/
def State.fwBytes (s : State) (m : Nat) (bs : List (BitVec 8)) (world : Bool) (enc : Nat) : State :=
  let ws := chunks 4 bs.length bs
  (List.range ws.length).foldl (fun s k =>
    let w := ws.getD k []
    s.mbWord m (w.foldr (fun b v => b.toNat + 256 * v) 0) (if k + 1 = ws.length then some w.length else none) svcStop world
      enc) s

/-- Answers that wait leave for mailbox 13 while it has room. -/
def State.mbFlush : Nat → State → State
  | 0, s => s
  | n + 1, s =>
    match s.mon.mbOut with
    | [] => s
    | (w, e, bs) :: rest =>
      if s.fwRoom 13 ((bs.length + 15) / 16) then
        State.mbFlush n ((s.setMon { s.mon with mbOut := rest }).fwBytes 13 bs w e)
      else s

/-- The port has a position from 1 to 64; without one it answers nothing (R524). -/
def State.rlyPlaced (s : State) : Bool := decide (1 ≤ s.rd RLY_POS.POS) && decide (s.rd RLY_POS.POS ≤ 64)

/-- One answer of a ring command to where the command came from: on the ring to its source, or in mailbox 13. -/
def State.rlyAnswer (s : State) (p : Path) (cls code sts : Nat) (payload : List (BitVec 8)) : State :=
  match p with
  | .uart => s
  | .ring dst tag =>
    if s.rlyPlaced then s.rlySend cls code dst tag true sts payload else s
  | .mbx world tag enc =>
    let s := s.setMon { s.mon with
      mbOut := s.mon.mbOut ++ [(world, enc, packBytes [(cls * 32 + code, 1), (sts, 1), (tag, 2)] ++ payload)] }
    State.mbFlush s.mon.mbOut.length s

/-- A number for each command word. -/
def MonCmd.num : MonCmd → Nat
  | .mode => 0 | .ident => 1 | .status => 2 | .auth _ => 3 | .logout => 4 | .baud _ => 5 | .log _ => 6 | .boot => 7
  | .powerdown _ => 8 | .reset _ => 9 | .limit _ _ => 10 | .dietest => 11 | .photo => 12 | .cap _ _ => 13 | .rd _ => 14
  | .wr _ _ => 15 | .perf _ => 16 | .halt _ => 17 | .go _ => 18 | .step _ => 19 | .regs _ => 20 | .setreg _ _ _ => 21
  | .brk _ _ _ => 22 | .memrd _ _ _ _ => 23 | .memwr _ _ _ _ => 24
  | .malformed => 25

/-- The answer to a line: the values it prints, then its status. On the ring and in mailbox 13 the text of the output
travels in answers of up to 240 bytes, and STS carries the status. -/
def State.monAnswer (s : State) (p : Path) (cmd sts : Nat) (vals : List Nat) : State :=
  match p with
  | .uart => s.setMon { s.mon with out := s.mon.out ++ [⟨vals, some sts⟩] }
  | _ =>
    let text := if vals.isEmpty then [] else Config.monText cmd vals
    (chunks 240 text.length text).foldl (fun s c => s.rlyAnswer p 5 1 sts c) s

/-! ### Authority (R541) -/

/-- The level that a command needs: 0 none, 1 QUERY, 2 CONTROL, 3 DEBUG (R543). -/
def State.monNeed (s : State) : MonCmd → Nat
  | .mode | .ident | .status => 1
  | .auth _ | .logout | .baud _ | .malformed => 0
  | .log _ | .boot | .powerdown _ | .reset _ | .limit _ _ | .dietest | .photo | .cap _ _ => 2
  | .rd _ | .wr _ _ => if s.pkgMode = 7 then 2 else 3
  | _ => 3

/-- What DBG_POLICY is asked for a command: whether its debugging is invasive, and the world and enclave it concerns. -/
def State.monTarget (s : State) : MonCmd → Option (Bool × Bool × Nat)
  | .rd _ => if s.pkgMode = 7 then none else some (false, true, 0)
  | .wr _ _ => if s.pkgMode = 7 then none else some (true, true, 0)
  | .perf c => some (false, s.on (WCTL.WORLD c), (s.core c).enclave)
  | .halt c | .go c | .step c | .regs c | .setreg c _ _ | .brk c _ _ => some (true, s.on (WCTL.WORLD c), (s.core c).enclave)
  | .memrd w e _ _ | .memwr w e _ _ => some (true, w != 0, e)
  | _ => none

/-- The path holds the level that the command needs; one that needs none is above no path's level (R541, R543). -/
def State.monLevelOk (s : State) (p : Path) (c : MonCmd) : Bool :=
  let need := s.monNeed c
  match p with
  | .uart => decide (need ≤ s.monLevel)
  | .ring _ _ => true
  | .mbx world _ enc =>
    if world = true ∧ enc = 0 then true
    else decide (need ≤ 1) || (need == 3 && (s.monTarget c).any (fun t => !t.2.1))

def State.monMay (s : State) (p : Path) (c : MonCmd) : Bool :=
  s.monLevelOk p c && (match s.monTarget c with
    | none => true
    | some (inv, w, e) => s.dbgAllowed inv w e)

/-! ### Format, presence, state (R19, R543) -/

/-- The width in bits of the register at a PRS offset; 64 where there is none. -/
def prsBits (off : Nat) : Nat := (regAt off).elim 64 (fun d => d.bits)

/-- The register numbers of SETREG: those of the CORE section (R550). -/
def State.regNum (s : State) (c reg : Nat) : Bool :=
  (decide (0xF000 ≤ reg) && decide (reg ≤ 0xF020)) || (decide (reg < 0x10000) && (s.sysRegs c).any (fun e => e.1 == reg))

/-- A number of the line is out of range (R540, R543). -/
def State.monBad (s : State) : MonCmd → Bool
  | .auth (some (l, r)) => l == 0 || decide (3 < l) || decide (2 ^ 64 ≤ r)
  | .baud n => !([115200, 230400, 460800, 921600, 1500000, 3000000].contains n)
  | .log n => n == 0 || decide (256 < n)
  | .malformed => true
  | .powerdown k | .reset k => decide (1 < k)
  | .limit w l => decide (w < 700) || decide (1100 < w) || decide (1 < l)
  | .cap secs _ => secs.any (fun c => !capCodes.contains c)
  | .rd off => decide (0x10000000 ≤ off)
  | .wr off v => decide (0x10000000 ≤ off) || decide (2 ^ prsBits off ≤ v)
  | .perf c | .halt c | .go c | .step c | .regs c => decide (288 ≤ c)
  | .setreg c reg v => decide (288 ≤ c) || !s.regNum c reg || decide (2 ^ 64 ≤ v)
  | .brk c slot va => decide (288 ≤ c) || decide (3 < slot) || va.any (fun v => decide (2 ^ 64 ≤ v))
  | .memrd w e pa n => decide (1 < w) || decide (1024 ≤ e) || decide (2 ^ 52 < pa + n) || n == 0 || decide (64 < n)
  | .memwr w e pa v => decide (1 < w) || decide (1024 ≤ e) || decide (2 ^ 52 < pa + 8) || decide (2 ^ 64 ≤ v)
  | _ => false

/-- The core that a command names is absent or isolated. -/
def State.monNoDev (s : State) : MonCmd → Bool
  | .perf c | .halt c | .go c | .step c | .regs c | .setreg c _ _ | .brk c _ _ => !(s.coreReal c && s.coreThere c)
  | _ => false

/-- The present state forbids the command. -/
def State.monState (s : State) (c : MonCmd) : Bool :=
  let m := s.pkgMode
  let run := m == 3 || m == 4
  match c with
  | .auth _ => s.mon.lockout
  | .log _ => m == 5 || m == 6 || m == 1 || m == 7
  | .boot => m != 1 || s.sys.extest
  | .powerdown _ => m != 3
  | .reset k => k == 0 && s.warmReset.2 != OK
  | .limit _ _ => m == 4
  | .dietest => m != 1
  | .photo => !(m == 2 || run || m == 6)
  | .cap _ _ => m != 5
  | .rd _ | .wr _ _ => m == 5 || m == 6
  | .perf _ | .halt _ | .brk _ _ _ | .memrd _ _ _ _ | .memwr _ _ _ _ => !run
  | .go k | .step k => !run || !(s.core k).halted
  | .regs k | .setreg k _ _ => !(s.core k).halted
  | _ => false

def State.monCheck (s : State) (p : Path) (c : MonCmd) : Nat :=
  firstBad [(!s.monMay p c, EPERM), (s.monBad c, EINVAL), (s.monNoDev c, ENODEV), (s.monState c, ESTATE)]

/-! ### What the commands do (R543 to R545) -/

/-- What a command has come to: its status and what it prints; none while an access of it cannot be made yet. -/
abbrev MonRes := Option (State × Nat × List Nat)

/-- HUB_ID, HUB_POP, the serial and the position (R530). -/
def State.identVals (s : State) : List Nat :=
  [s.regWord HUB_ID.VENDOR.addr, s.regWord HUB_POP.TCD_PRESENT.addr, Config.serial.toNat, s.rd RLY_POS.POS]

/-- HUB_PKG_MODE, PMC_POWER, PMC_STS and ERR_FIFO_STS (R530). -/
def State.statusVals (s : State) : List Nat :=
  [s.regWord HUB_PKG_MODE.PKG_MODE.addr, s.regWord PMC_POWER.NOW_W.addr, s.regWord PMC_STS.ONBATT.addr,
   s.regWord ERR_FIFO_STS.COUNT.addr]

/-- AUTH with no argument: a fresh nonce. -/
def State.authNonce (s : State) : State × Nat × List Nat :=
  let p := s.free
  let n := p.1.toNat % 2 ^ 64
  (p.2.setMon { p.2.mon with nonce := some n }, OK, [n])

/-- The response that a nonce and a level ask for (R542). -/
def authResponse (nonce level : Nat) : Nat :=
  (cmac (Config.aes (toBe Config.serviceKey.toNat 16)) (toBe nonce 8 ++ toBe level 1 ++ toBe Config.serial.toNat 8)).toNat / 2 ^ 64

/-- AUTH with a response. The third failed response within 60 s locks AUTH out (R542). -/
def State.authTry (s : State) (level resp : Nat) : State × Nat × List Nat :=
  if level ≤ s.rd DBG_MON.UART_MAX ∧ s.mon.nonce.any (fun n => authResponse n level == resp) then
    (s.setMon { s.mon with nonce := none, level := some level }, OK, [])
  else
    let fails := s.mon.fails.filter (fun t => decide (s.now.toNat < t + 60000000000)) ++ [s.now.toNat]
    (s.setMon { s.mon with
      nonce := none, lockout := decide (3 ≤ fails.length), fails := if 3 ≤ fails.length then [] else fails }, EPERM, [])

/-- The session returns to UART_BASE. -/
def State.monLogout (s : State) : State := s.setMon { s.mon with level := none }

/-- LOG: up to n records are popped (R513). -/
def State.monLog : Nat → State → List Nat → State × List Nat
  | 0, s, vs => (s, vs)
  | n + 1, s, vs =>
    match s.err.fifo with
    | [] => (s, vs)
    | r :: _ => State.monLog n s.fifoPop (vs ++ r.words)

/-- DIETEST: every die is powered, and its link carries no traffic (R215). -/
def State.dieTest (s : State) : State :=
  let s : State := { s.setMode 7 with sys := { s.sys with enMain := true } }
  (List.range 12).foldl (fun s t => s.wr (PMC_DOM.STATE t) 2) s

/-- The SVP as a requester: WORLD 1, ENC 0. -/
def svpDev : Dev := ⟨toStop svcStop, ⟨true, 0, 0, 0, 0⟩⟩

/-- In STANDBY only the blocks of AON, and the HUB block's mode and identity, have power (R45). -/
def State.monDark (s : State) (off : Nat) : Bool :=
  s.pkgMode == 1 && !((decide (0xC00000 ≤ off) && decide (off < 0xE00000)) ||
    (decide (0x1000000 ≤ off) && decide (off < 0x1200000)) || (decide (0x100000 ≤ off) && decide (off < 0x100040)))

/-- A register access of the monitor takes the size of the register, and leaves the answer of others alone. -/
def State.monRd (s : State) (off : Nat) : State × Nat × List Nat :=
  if s.monDark off then (s.logReg (prsAddr off), OK, [0])
  else
    let t := s.prsLoad svpDev off (if prsBits off = 32 then 2 else 3)
    ({ t with ans := s.ans }, OK, [t.ans.2])

def State.monWr (s : State) (off v : Nat) : State × Nat × List Nat :=
  if s.monDark off then (s.logReg (prsAddr off), OK, [])
  else
    let t := s.prsStore svpDev off (if prsBits off = 32 then 2 else 3) v
    ({ t with ans := s.ans }, OK, [])

/-- A core's counters (R482): cycles, instructions, the six counters, the flags. -/
def State.perfVals (s : State) (c : Nat) : List Nat :=
  [s.rd (CCNT_CYC.COUNT c), s.rd (CCNT_INS.COUNT c)] ++ (List.range 6).map (fun n => s.rd (CCNT.COUNT c n)) ++
    [s.regWord (CCNT_STS.fINS_OVF c).bit.addr]

/-- A core halts before its next instruction: at once, or when the instruction at its head has been executed (R544). -/
def State.haltCore (s : State) (c : Nat) : State :=
  s.modCore c (fun x => if x.ph = 0 then { x with halted := true } else { x with stepping := true })

/-- A write of a core's register by its number. -/
def State.setReg (s : State) (c reg v : Nat) : State :=
  if 0xF000 ≤ reg ∧ reg < 0xF020 then s.modCore c (fun x => x.setReg (reg - 0xF000) (.val v))
  else if reg = 0xF020 then s.modCore c (fun x => { x with pc := v })
  else if reg = 0x4000 then s.modCore c (fun x => x.setBank (s.bankSel c) ((x.bank (s.bankSel c)).stateWrite v))
  else if reg = 0x4048 then s.modCore c (fun x => { x with bankV := x.bankV.stateWrite v })
  else if reg = 0x6008 then s.wr (WVEC c) v
  else
    let a := 0x100000000 + c * 0x10000 + reg
    match regAt a with
    | some d => (s.regPut a d 0 64 v).1
    | none => s

/-- The attributes that MEMRD and MEMWR name: MTAG 0, PCLS 0 (R545). -/
def monAttr (world enc : Nat) : Attr := ⟨world != 0, BitVec.ofNat 10 enc, 0, 0, 0⟩

/-- MEMRD of n bytes. Memory is read by RdOnce; a device answers at its size, and one that takes no such size as R10 says. -/
def State.monMemRd (s : State) (world enc pa n : Nat) : MonRes :=
  let a := monAttr world enc
  let dv : Dev := ⟨toStop svcStop, a⟩
  if (regionOf pa).isMem ∨ regionOf pa = .unmapped then
    (s.dmaBytes svcStop a pa n).map (fun p =>
      let r := p.2.2
      (p.1, if 2 ≤ r.sts then meshFail r.sts else if r.psn then POISONED else OK, [p.2.1]))
  else
    match lgOf n with
    | some lg =>
      let t := s.devLoad dv pa lg
      some ({ t with ans := s.ans }, OK, [t.ans.2])
    | none => some (s.logReg pa, OK, [0])

/-- MEMWR of 8 bytes. -/
def State.monMemWr (s : State) (world enc pa v : Nat) : MonRes :=
  let a := monAttr world enc
  let dv : Dev := ⟨toStop svcStop, a⟩
  if (regionOf pa).isMem ∨ regionOf pa = .unmapped then
    (s.dmaPut svcStop a pa 8 v false).map (fun p => (p.1, if 2 ≤ p.2 then meshFail p.2 else OK, []))
  else
    let t := s.devStore dv pa 3 v
    some ({ t with ans := s.ans }, OK, [])

/-- A command that has passed its checks. -/
def State.monDo (s : State) (p : Path) : MonCmd → MonRes
  | .malformed => some (s, EINVAL, [])
  | .mode => some (s, OK, [s.pkgMode, s.rd HUB_PKG_MODE.PREV_MODE])
  | .ident => some (s, OK, s.identVals)
  | .status => some (s, OK, s.statusVals)
  | .auth none => some s.authNonce
  | .auth (some (l, r)) => some (s.authTry l r)
  | .logout => some (s.monLogout, OK, [])
  | .baud n => some (s.setMon { s.mon with baud := n }, OK, [])
  | .log n => let r := State.monLog n s []; some (r.1, OK, r.2)
  | .boot => let r := s.bootReq; some (r.1, r.2, [])
  | .powerdown k => let r := s.powerDown (k != 0); some (r.1, r.2, [])
  | .reset _ => some (s, OK, [])
  | .limit w l => let r := s.setLimit true (w + l * 2 ^ 31) false; some (r.1, r.2, [])
  | .dietest => some (s.dieTest, OK, [])
  | .photo => some (s.photo 2, OK, [])
  | .cap secs off => some ((s.setMon { s.mon with cap := some (p, secs, off) }).wr DBG_PF_STS.READOUT 1, OK, [])
  | .rd off => some (s.monRd off)
  | .wr off v => some (s.monWr off v)
  | .perf c => some (s, OK, s.perfVals c)
  | .halt c => some (s.haltCore c, OK, [])
  | .go c => some ((s.modCore c (fun x => { x with halted := false })).poke c, OK, [])
  | .step c => some ((s.modCore c (fun x => { x with halted := false, stepping := true })).poke c, OK, [])
  | .regs c =>
    if (s.core c).g.any (fun e => match e.2 with | .val _ => false | .dep _ _ => true) then none
    else some (s, OK, (s.coreItems c).flatMap (fun e => [e.1, e.2]))
  | .setreg c reg v => some (s.setReg c reg v, OK, [])
  | .brk c slot va =>
    some (s.modCore c (fun x => { x with
      brk := match va with | some v => Tbl.set x.brk slot v | none => Tbl.erase x.brk slot }), OK, [])
  | .memrd w e pa n => s.monMemRd w e pa n
  | .memwr w e pa v => s.monMemWr w e pa v

/-! ### The queue of lines (R537) -/

/-- A refused command is logged where R18 says so. -/
def State.monRefuse (s : State) (p : Path) (c : MonCmd) (sts : Nat) : State :=
  (if sts = ESTATE then s.logCmd 0x0E 0 ESTATE else s).monAnswer p c.num sts []

/-- Execute the line at the head of the queue; none where it waits. A CAP is answered when its stream has ended. -/
def State.monRun (s : State) (p : Path) (c : MonCmd) : Option State :=
  let sts := s.monCheck p c
  if sts ≠ OK then some (s.monRefuse p c sts)
  else
    match s.monDo p c with
    | none => none
    | some (t, sts, vals) =>
      match c with
      | .cap _ _ => some t
      | _ => some (t.monAnswer p c.num sts vals)

/-- Execute lines in order while they can be; a CAP takes the monitor until its status line (R552). -/
def State.monGo : Nat → State → State
  | 0, s => s
  | n + 1, s =>
    if s.mon.cap.isSome ∨ s.mon.mbOut.isEmpty = false then s
    else
      match s.mon.lines with
      | [] => s
      | (p, c) :: rest =>
        match (s.setMon { s.mon with lines := rest }).monRun p c with
        | some t => State.monGo n t
        | none => s

/-- The monitor goes on: answers that wait, then lines. -/
def State.monNext (s : State) : State :=
  let s := State.mbFlush s.mon.mbOut.length s
  State.monGo s.mon.lines.length s

/-- A running CAP ends before its stream has: the spec gives no status for it, so its status line shows a free value. -/
def State.capEnd (s : State) : State :=
  match s.mon.cap with
  | none => s
  | some (p, _, _) =>
    let f := s.free
    let s := (f.2.setMon { f.2.mon with cap := none }).wr DBG_PF_STS.READOUT 0
    s.monAnswer p 13 (f.1.toNat % 256) []

/-- RESET is executed at once, and ends a running CAP; its status line is sent first. -/
def State.monReset (s : State) (p : Path) (kind : Nat) : State :=
  let sts := s.monCheck p (.reset kind)
  if sts ≠ OK then s.monRefuse p (.reset kind) sts
  else
    let s := s.capEnd.monAnswer p 9 OK []
    if kind = 0 then s.warmReset.1 else s.resetCold

/-- A line arrives: the queue holds four (R537). The SVP runs in every mode but OFF. -/
def State.monLine (s : State) (p : Path) (c : MonCmd) : State :=
  if s.pkgMode = 0 then s
  else
    match c with
    | .reset k => s.monReset p k
    | _ =>
      if 4 ≤ s.mon.lines.length then s.monAnswer p c.num ENORES []
      else (s.setMon { s.mon with lines := s.mon.lines ++ [(p, c)] }).monNext

/-! ### The readout (R549, R552) -/

/-- The next piece of a running CAP: a line of 32 bytes on the UART, or an answer of 232 on the ring; at the stream's end
the status line. -/
def State.capStep (s : State) : State :=
  match s.mon.cap with
  | none => s
  | some (p, secs, off) =>
    let n := match p with | .uart => 32 | _ => 232
    let part := ((s.capStream secs).drop off).take n
    if part.isEmpty then
      ((s.setMon { s.mon with cap := none }).wr DBG_PF_STS.READOUT 0).monAnswer p 13 OK []
    else
      let s := s.setMon { s.mon with cap := some (p, secs, off + part.length) }
      match p with
      | .uart => s.setMon { s.mon with
          out := s.mon.out ++ [⟨[off, part.foldr (fun b v => b.toNat + 256 * v) 0, crc32c part], none⟩] }
      | _ => s.rlyAnswer p 5 1 OK (bytesOf off 8 ++ part)

/-- What the monitor does of its own accord. -/
def State.monTick (s : State) : State := if s.mon.cap.isSome then s.capStep else s.monNext

/-! ### The rows of the UART -/

def execMonMode (s : State) : Host.Outcome State Fault Refusal := s.done (s.monLine .uart .mode)
def execMonIdent (s : State) : Host.Outcome State Fault Refusal := s.done (s.monLine .uart .ident)
def execMonStatus (s : State) : Host.Outcome State Fault Refusal := s.done (s.monLine .uart .status)

def execAuth (answer : Option (Nat × Nat)) (s : State) : Host.Outcome State Fault Refusal :=
  s.done (s.monLine .uart (.auth answer))

def execLogout (s : State) : Host.Outcome State Fault Refusal := s.done (s.monLine .uart .logout)
def execBaud (n : Nat) (s : State) : Host.Outcome State Fault Refusal := s.done (s.monLine .uart (.baud n))
def execLog (n : Nat) (s : State) : Host.Outcome State Fault Refusal := s.done (s.monLine .uart (.log n))
def execMonBoot (s : State) : Host.Outcome State Fault Refusal := s.done (s.monLine .uart .boot)
def execPowerdown (keep : Nat) (s : State) : Host.Outcome State Fault Refusal := s.done (s.monLine .uart (.powerdown keep))
def execMonReset (kind : Nat) (s : State) : Host.Outcome State Fault Refusal := s.done (s.monLine .uart (.reset kind))
def execLimit (watts lock : Nat) (s : State) : Host.Outcome State Fault Refusal := s.done (s.monLine .uart (.limit watts lock))
def execDietest (s : State) : Host.Outcome State Fault Refusal := s.done (s.monLine .uart .dietest)
def execPhoto (s : State) : Host.Outcome State Fault Refusal := s.done (s.monLine .uart .photo)

def execCap (secs : List Nat) (start : Nat) (s : State) : Host.Outcome State Fault Refusal :=
  s.done (s.monLine .uart (.cap secs start))

def execRd (off : Nat) (s : State) : Host.Outcome State Fault Refusal := s.done (s.monLine .uart (.rd off))
def execWr (off v : Nat) (s : State) : Host.Outcome State Fault Refusal := s.done (s.monLine .uart (.wr off v))
def execPerf (core : Nat) (s : State) : Host.Outcome State Fault Refusal := s.done (s.monLine .uart (.perf core))
def execHalt (core : Nat) (s : State) : Host.Outcome State Fault Refusal := s.done (s.monLine .uart (.halt core))
def execGo (core : Nat) (s : State) : Host.Outcome State Fault Refusal := s.done (s.monLine .uart (.go core))
def execStep (core : Nat) (s : State) : Host.Outcome State Fault Refusal := s.done (s.monLine .uart (.step core))
def execRegs (core : Nat) (s : State) : Host.Outcome State Fault Refusal := s.done (s.monLine .uart (.regs core))

def execSetreg (core reg v : Nat) (s : State) : Host.Outcome State Fault Refusal :=
  s.done (s.monLine .uart (.setreg core reg v))

def execBrk (core slot : Nat) (va : Option Nat) (s : State) : Host.Outcome State Fault Refusal :=
  s.done (s.monLine .uart (.brk core slot va))

def execMemrd (world enc pa len : Nat) (s : State) : Host.Outcome State Fault Refusal :=
  s.done (s.monLine .uart (.memrd world enc pa len))

def execMemwr (world enc pa v : Nat) (s : State) : Host.Outcome State Fault Refusal :=
  s.done (s.monLine .uart (.memwr world enc pa v))

/-! ### Breakpoints, the session, the UART (R540 to R544) -/

/-- A core reaches a breakpoint: it halts where invasive debug is allowed for the context it is in (R544). -/
def State.brkHit (s : State) (c : Nat) : State :=
  let x := s.core c
  if s.coreRuns c = true ∧ x.brk.any (fun e => e.2 == x.pc) = true ∧
      s.dbgAllowed true (s.on (WCTL.WORLD c)) x.enclave = true then s.haltCore c
  else s

def execBreakpointHit (c : Core) (s : State) : Host.Outcome State Fault Refusal :=
  s.ifRuns fun s => s.brkHit c.val

/-- A break on the UART. -/
def State.uartBreak (s : State) : State :=
  let s := s.capEnd.monLogout
  (s.setMon { s.mon with baud := 115200 }).monNext

def execUartBreak (s : State) : Host.Outcome State Fault Refusal := s.done (if s.pkgMode = 0 then s else s.uartBreak)

def execMonSessionTimeout (s : State) : Host.Outcome State Fault Refusal := s.done s.monLogout

def execMonAuthLockoutEnd (s : State) : Host.Outcome State Fault Refusal :=
  s.done (s.setMon { s.mon with lockout := false })

/-! ### Photo-finish (R546, R547) -/

/-- The package itself pulls PHOTO_N low: for 1 µs from 40 ns after a trigger that DRIVE lets out (R546, R547). -/
def State.pinDriven (s : State) : Bool :=
  s.pf.isSome && s.on DBG_PF_CTL.DRIVE && decide (s.now.toNat ≤ s.rd DBG_PF_TIME.TIME + 1040)

/-- PHOTO_N low for 50 ns while PIN_EN is 1 and the package is not driving it. -/
def State.pinTrigger (s : State) : State :=
  if s.on DBG_PF_CTL.PIN_EN ∧ s.pkgMode ≠ 0 ∧ s.pinDriven = false then s.photo 0 else s

def execPhotoPinTrigger (s : State) : Host.Outcome State Fault Refusal := s.done s.pinTrigger

/-- A write of 1 to DBG_PF_CTL.TRIG. -/
def execPfTrigWrite (d : Dev) (s : State) : Host.Outcome State Fault Refusal :=
  s.ifRuns fun s => s.prsWrite d DBG_PF_CTL.TRIG.addr 4 true (fun s => s.photo 3)

/-- Steps 3 to 5: every controller that has not reported places its ranks in self-refresh and reports; the stop order
goes out. `missing` are those that do not report in time. -/
def State.pfStop (s : State) (missing : Nat → Bool) : State :=
  match s.pf with
  | none => s
  | some p =>
    if p.stopped then s
    else
      let s := (p.wait.filter (fun c => !missing c)).foldl (fun s c => s.setChan c { s.chan c with sref := true }) s
      { s with pf := some ⟨p.wait.filter missing, true⟩ }

def execPfControllersReported (s : State) : Host.Outcome State Fault Refusal := s.done (s.pfStop (fun _ => false))

def execPfStopTimeout (missing : BitVec 80) (s : State) : Host.Outcome State Fault Refusal :=
  s.done (s.pfStop (fun c => hasBit missing c))

/-- Step 6: every island is stopped. -/
def State.pfDone (s : State) : State :=
  match s.pf with
  | none => s
  | some p =>
    if p.stopped = false ∨ s.pkgMode = 5 then s
    else ((s.setMode 5).raise DBG_PF_STS.fDONE).monNext

def execPfIslandsStopped (s : State) : Host.Outcome State Fault Refusal := s.done s.pfDone

end Sys2Proof.Machine
end

