-- ==== Sys2Proof/Machine/Peer.lean ====
section
/-!
DEFINITION. Peer transfers of a ring (R357, R373): stores to a device and loads from one, each made in the command's step as the
ring's other accesses are (assumption 12).
-/
namespace Sys2Proof.Machine

/-- A device access of the TQE goes out: none where it must wait, the status with which its target's stop, or its own,
answers it unperformed (R179, R181, R185), or the request as it leaves the pacer (R176). -/
def State.peerIssue (s : State) (m : Msg) : Option (State × Sum Nat Msg) :=
  let d := m.dst.val
  if s.stopState tqeStop ≠ 0 then some (s, .inl (if s.stopState tqeStop = 3 then 2 else 3))
  else
    match s.absorbSts d with
    | some v => some (s, .inl v)
    | none => if s.reachable tqeStop d then (s.dmaIssue m).map (fun p => (p.1, .inr p.2)) else some (s, .inl 2)

/-- One store of a peer transfer to a device (R160, R356, R373): its bytes of a line; with EP_FWD 0 one that would carry
poison is not made (R357). -/
def Job.peerStore (j : Job) (f : Nat) (a : Attr) (dst n v : Nat) (psn : Bool) : Job :=
  if j.live = false ∨ (psn = true ∧ j.s.on TQE_CTL.EP_FWD = false) then j
  else
    match j.s.winData f dst true true with
    | .inr reason => { j with s := j.s.winMiss f dst true reason, err := some (WINFAULT, dst / 64 * 64) }
    | .inl pa =>
      let t := j.s.devStop pa
      match j.s.peerIssue { mkMsg .wrPart tqeStop t.1 t.2 (pa / 64) a with
          size := 4, be := beOf (pa % 64) n, data := setLineField 0 (pa % 64) n v, poison := psn } with
      | none => { j with wait := true }
      | some (s, .inl v) => { j with s := s, err := some (meshFail v, dst / 64 * 64) }
      | some (s, .inr m) => { j with s := { s.storeMsg m with ans := s.ans } }

/-- The naturally aligned loads of at most 8 bytes that cover a range (R373). -/
def peerLoads : Nat → Nat → Nat → List (Nat × Nat)
  | 0, _, _ => []
  | k + 1, a, n =>
    if n = 0 then []
    else
      let g := if a % 8 = 0 ∧ 8 ≤ n then 8 else if a % 4 = 0 ∧ 4 ≤ n then 4 else if a % 2 = 0 ∧ 2 ≤ n then 2 else 1
      (a, g) :: peerLoads k (a + g) (n - g)

/-- One load of a peer transfer from a device, and whether it is poisoned: an absorbed load is (R179). -/
def Job.peerLoad (j : Job) (f : Nat) (at_ : Attr) (a n : Nat) : Job × Nat × Bool :=
  if j.live = false then (j, 0, false)
  else
    match j.s.winData f a false true with
    | .inr reason => ({ j with s := j.s.winMiss f a false reason, err := some (WINFAULT, a / 64 * 64) }, 0, false)
    | .inl pa =>
      let t := j.s.devStop pa
      match j.s.peerIssue { mkMsg .rdOnce tqeStop t.1 t.2 (pa / 64) at_ with
          size := BitVec.ofNat 3 (Nat.log2 n), low := BitVec.ofNat 6 pa } with
      | none => ({ j with wait := true }, 0, false)
      | some (s, .inl _) => ({ j with s := s, psn := j.psn.orElse (fun _ => some (a / 64 * 64)) }, 2 ^ (8 * n) - 1, true)
      | some (s, .inr m) =>
        let s' := s.devLoad m.dev pa (Nat.log2 n)
        ({ j with s := { s' with ans := s.ans } }, s'.ans.2 % 2 ^ (8 * n), false)

/-- The bytes of a range of a device, by its loads, and whether any is poisoned. -/
def Job.peerRead (j : Job) (f : Nat) (at_ : Attr) (a n : Nat) : Job × Nat × Bool :=
  (peerLoads n a n).foldl (fun x p =>
    let r := x.1.peerLoad f at_ p.1 p.2
    (r.1, x.2.1 + r.2.1 * 2 ^ (8 * (p.1 - a)), x.2.2 || r.2.2)) (j, 0, false)

def State.opPeer (s : State) (f : Nat) (a : Attr) (x : Run) : Job × (Nat × Nat) :=
  ((linePieces x.dst x.len).foldl (fun j p =>
    if x.dir then
      let r := j.peerRead f a (x.src + p.1) p.2
      r.1.writeLine f a (x.dst + p.1) p.2 r.2.1 r.2.2
    else
      let r := j.readP f a (x.src + p.1) p.2
      r.1.peerStore f a (x.dst + p.1) p.2 r.2.1 r.2.2) s.job, (OK, 0))

def execPeer (mv : BitVec 5) (s : State) : Host.Outcome State Fault Refusal :=
  s.ifRuns fun s => (s.opRun mv.toNat 9 State.opPeer)

end Sys2Proof.Machine
end

