-- ==== Sys2Proof/Machine/Relay.lean ====
section
/-!
DEFINITION. The relay ring: the port's states (R518, R519), ordered sets (R520, R531), what a node does with a frame
(R522, R523), discovery (R524, R525), authority and sequence numbers (R529, R535), time (R533, R534), and the ring's
commands from the ring and from mailbox 12 (R527 to R530).
-/
namespace Sys2Proof.Machine

/-- Flags of RLY_STS have changed: PIR source 53 follows (R536). -/
def State.rlySync (s : State) : State := s.srcSync 53

def State.rlyRaise (s : State) (g : Flag) : State := (s.raise g).rlySync

/-! ### The port (R518, R519) -/

/-- The port leaves BYPASS for TEST; after LEAVE it stays there until AON power-on or cold reset. -/
def State.bypassTimeout (s : State) : State :=
  if s.rd RLY_POS.STATE = 0 ∧ s.rly.left = false ∧ s.pkgMode ≠ 0 then s.wr RLY_POS.STATE 1 else s

def execRlyBypassTimeout (s : State) : Host.Outcome State Fault Refusal := s.done s.bypassTimeout

/-- The loop-back test ends. A port that becomes ACTIVE has no position, and sends ANNOUNCE. -/
def State.testDone (s : State) (ok : Bool) : State :=
  if s.rd RLY_POS.STATE ≠ 1 then s
  else if ok then ((s.wr RLY_POS.STATE 2).wr RLY_POS.POS 0).rlySend 0 2 0 0 false 0 []
  else s.wr RLY_POS.STATE 0

def execRlyTestDone (ok : Bool) (s : State) : Host.Outcome State Fault Refusal := s.done (s.testDone ok)

/-- A port fault. The spec gives its record no code, so the code is a free value. -/
def State.portFault (s : State) : State :=
  if s.pkgMode = 0 then s
  else
    let f := s.free
    let s := f.2.report (rec0 .error 0x0E 0 (f.1.toNat % 256))
    s.wr RLY_POS.STATE 0

def execRlyPortFault (s : State) : Host.Outcome State Fault Refusal := s.done s.portFault

/-! ### Frames (R521 to R523) -/

/-- A node passes a frame on: HOPS grows, a bad CRC stays bad, and a frame whose HOPS reaches 72 is removed. -/
def State.framePass (s : State) (f : Frame) : State :=
  let s := if f.badCrc then s.rlyRaise RLY_STS.fCRC else s
  let f := { f with hops := f.hops + 1 }
  if 72 ≤ f.hops.toNat then s.rlyRaise RLY_STS.fHOPDROP else s.rlyOut (.frame f)

/-- The frame is a frame of this package that has returned (R523). -/
def State.frameOwn (s : State) (f : Frame) : Bool := s.rlyPlaced && f.src.toNat == s.rd RLY_POS.POS

/-- The frame is for this node: its position, or every package. -/
def State.frameMine (s : State) (f : Frame) : Bool :=
  f.dst == 0xFF || (s.rlyPlaced && f.dst.toNat == s.rd RLY_POS.POS)

/-- What a node does with a frame; `k` is what it does with one it takes. A broadcast frame is passed on as well. -/
def State.frameIn (s : State) (f : Frame) (k : State → State) : State :=
  if s.rd RLY_POS.STATE ≠ 2 then s
  else if f.badCrc then s.framePass f
  else if f.epoch.toNat ≠ s.rd RLY_POS.EPOCH then (s.rlyRaise RLY_STS.fEPOCHDROP).framePass f
  else if s.frameOwn f then s
  else if s.frameMine f = false then s.framePass f
  else k (if f.dst = 0xFF then s.framePass f else s)

/-- Header and payload as the CMAC covers them: HOPS reads zero, and so do the mutable fields, which the caller has cleared
in the payload. -/
def Frame.macBytes (f : Frame) (payload : List (BitVec 8)) : List (BitVec 8) :=
  packBytes [(f.cls.toNat * 32 + f.code.toNat, 1), (f.dst.toNat, 1), (f.src.toNat, 1), (0, 1), (f.seq.toNat, 2),
    (f.tag.toNat, 2), (payload.length, 1), (f.auth.toNat + f.ans.toNat * 2, 1), (f.sts.toNat, 1), (f.epoch.toNat, 1),
    (0, 4)] ++ payload

/-- The CMAC tag is present and checks. -/
def Frame.macOk (f : Frame) (payload : List (BitVec 8)) : Bool :=
  f.auth && f.mac.toNat == (cmac (Config.aes (toBe Config.ringKey.toNat 16)) (f.macBytes payload)).toNat / 2 ^ 64

/-- Payload bytes as a number. -/
def payNat (l : List (BitVec 8)) : Nat := l.foldr (fun b v => b.toNat + 256 * v) 0

/-- The SEQ of a frame is newer than the last one accepted from its source (R535). -/
def State.seqNew (s : State) (f : Frame) : Bool :=
  match Tbl.get? s.rly.hist f.src.toNat with
  | none => true
  | some v => serialNewer 16 f.seq.toNat v

/-- A frame whose SEQ is not newer is flagged STALE (R535, R22). -/
def State.seqStale (s : State) (f : Frame) : State :=
  (s.rlyRaise RLY_STS.fSTALE).logHalf 0x0E 0 16 f.seq.toNat (Tbl.getD s.rly.hist f.src.toNat f.seq.toNat)

/-- A SEQ is accepted. -/
def State.seqTake (s : State) (f : Frame) : State :=
  { s with rly := { s.rly with hist := Tbl.set s.rly.hist f.src.toNat f.seq.toNat } }

/-! ### Discovery (R524, R525) -/

/-- A port accepts a DISCOVER. -/
def State.discTake (s : State) (f : Frame) (count aepoch : Nat) : State × Frame :=
  let auth := s.on RLY_CTL.AUTH
  let kept := if auth then s.rly.hist.filter (fun e => e.1 == 0) else []
  let kept := if auth ∧ aepoch ≠ s.rd RLY_AEPOCH.AEPOCH then [] else kept
  let s : State := { s with rly := { s.rly with hist := Tbl.set kept 0 f.seq.toNat } }
  let s := if auth then s.wr RLY_AEPOCH.AEPOCH aepoch else s
  let s := (s.wr RLY_POS.COUNT count).wr RLY_LINKDLY.SET 0
  if count < 64 then
    ((s.wr RLY_POS.POS (count + 1)).wr RLY_POS.EPOCH f.epoch.toNat,
      { f with payload := f.payload.set 4 (BitVec.ofNat 8 (count + 1)) })
  else ((s.wr RLY_POS.POS 0xFE).rlyRaise RLY_STS.fNOPOS, f)

/-- A DISCOVER at the port. A frame of another source, or with no room for its fields, is passed on without effect. -/
def State.discover (s : State) (f : Frame) : State :=
  if s.rd RLY_POS.STATE ≠ 2 then s
  else if f.badCrc = true ∨ f.src ≠ 0 ∨ f.dst ≠ 0xFF ∨ f.payload.length < 5 then s.framePass f
  else
    let v := payNat f.payload
    let aepoch := v % 2 ^ 32
    let count := v / 2 ^ 32 % 256
    if s.on RLY_CTL.AUTH ∧
        (f.macOk (f.payload.set 4 0) = false ∨ serialNewer 32 aepoch (s.rd RLY_AEPOCH.AEPOCH) = false) then
      let s := if f.macOk (f.payload.set 4 0) then s.logHalf 0x0E 0 32 aepoch (s.rd RLY_AEPOCH.AEPOCH) else s
      (s.rlyRaise RLY_STS.fAUTHFAIL).framePass f
    else
      let p := s.discTake f count aepoch
      p.1.framePass p.2

def execDiscover (f : Frame) (s : State) : Host.Outcome State Fault Refusal := s.done (s.discover f)

/-- An ANNOUNCE of another package is for the RMC. -/
def execAnnounce (f : Frame) (s : State) : Host.Outcome State Fault Refusal := s.done (s.frameIn f (fun s => s))

/-! ### Ordered sets (R520, R531) -/

/-- A set of this package has returned: it is removed, and its repeats end. -/
def State.setBack (s : State) (freeze : Bool) : State :=
  { s with rly := { s.rly with reps := s.rly.reps.filter (fun e => e.1 != freeze) } }

/-- The set is one that this package has originated. -/
def State.setOwn (s : State) (freeze : Bool) (origin : Nat) : Bool :=
  origin == s.rd RLY_POS.POS && (s.rlyPlaced || s.rly.reps.any (fun e => e.1 == freeze))

/-- An ordered set arrives, with its two copies of ORIGIN, and whether it holds a code violation: it is forwarded first. -/
def State.setIn (s : State) (freeze : Bool) (a b : BitVec 8) (viol : Bool) (k : State → State) : State :=
  if s.rd RLY_POS.STATE ≠ 2 then s
  else if viol = true ∨ a ≠ b then s.rlyRaise RLY_STS.fSYMERR
  else if s.setOwn freeze a.toNat then s.setBack freeze
  else k (s.rlyOut (.set freeze a.toNat))

def execRingFreeze (a b : BitVec 8) (viol : Bool) (s : State) : Host.Outcome State Fault Refusal :=
  s.done (s.setIn true a b viol (fun s =>
    if s.on RLY_CTL.FRZ_IN then (s.photo 1).rlySync
    else if s.pkgMode = 5 then s.rlyRaise RLY_STS.fFRZDUP
    else s))

def execRingMainsLost (a b : BitVec 8) (viol : Bool) (s : State) : Host.Outcome State Fault Refusal :=
  s.done (s.setIn false a b viol (fun s => s.mainsLoss true))

/-- A repeat is due: 10 µs after the last one while the set has not returned, at most 8 times; for MAINS_LOST 100 ms after
the last round while the loss lasts. -/
def State.setRepeat (s : State) (freeze : Bool) : State :=
  match s.rly.reps.find? (fun e => e.1 == freeze) with
  | some (_, n + 1) =>
    let s := s.rlyOut (.set freeze (s.rd RLY_POS.POS))
    { s with rly := { s.rly with
        reps := s.rly.reps.map (fun e => if e.1 = freeze then (freeze, n) else e) } }
  | _ =>
    let s := s.setBack freeze
    if freeze = false ∧ s.on RLY_CTL.ML_OUT ∧ s.sys.pwrfailN = false ∧ s.pkgMode ≠ 0 then
      let s := s.rlyOut (.set false (s.rd RLY_POS.POS))
      { s with rly := { s.rly with reps := s.rly.reps ++ [(false, 8)] } }
    else s

def execOrderedSetRepeat (freeze : Bool) (s : State) : Host.Outcome State Fault Refusal := s.done (s.setRepeat freeze)

/-- A break of the line: each lost symbol is a code violation (R519, R520). -/
def State.lineBreak (s : State) : Nat → State
  | 0 => s
  | n + 1 => (s.raise RLY_STS.fSYMERR).lineBreak n

def execRingLineBreak (n : BitVec 8) (s : State) : Host.Outcome State Fault Refusal :=
  s.done (if s.rd RLY_POS.STATE = 2 then (s.lineBreak n.toNat).rlySync else s)

/-! ### Time (R533, R534) -/

/-- A signed number in w bits, saturating. -/
def satSigned (w : Nat) (x : Int) : Nat :=
  let hi : Int := 2 ^ (w - 1) - 1
  let y := max (-hi - 1) (min hi x)
  (y % (2 ^ w : Int)).toNat

/-- The value of a 32-bit two's-complement number. -/
def signed32 (v : Nat) : Int := if v < 2 ^ 31 then (v : Int) else (v : Int) - 2 ^ 32

/-- The leader follows ring time: one step where it is behind by more than 10 µs, else its rate (R534). -/
def State.timeAdjust (s : State) (off : Int) : State :=
  if s.on RLY_CTL.TSYNC = false then s
  else if 10000 < off then
    let s := (s.tbSet (s.now.toNat + off.toNat)).rlyRaise RLY_STS.fTSTEP
    { s with rly := { s.rly with slew := 0 } }
  else { s with rly := { s.rly with slew := 15000 * off } }

/-- The state of time sync after an offset. -/
def State.timeLock (s : State) (off : Int) : State :=
  let good := if -50 ≤ off ∧ off ≤ 50 then min 16 (s.rly.good + 1) else 0
  let s : State := { s with rly := { s.rly with good := good, timeAt := s.now.toNat } }
  s.wr RLY_TSYNC.STATE (if good = 16 then 2 else 1)

/-- A TIME frame that the package takes. -/
def State.timeTake (s : State) (t corr loop : Nat) : State :=
  let r := t + (corr + s.rd RLY_LINKDLY.DLY) / 64
  let off : Int := (r : Int) - (s.now.toNat : Int)
  let s := (s.wr RLY_TSYNC.OFFSET (satSigned 32 off)).wr RLY_TSYNC.LOOP_ERR (satSigned 16 (signed32 loop))
  (s.timeLock off).timeAdjust off

/-- TIME; `lat` is the frame's measured repeat latency in 1/64 ns. -/
def State.timeFrame (s : State) (f : Frame) (lat : Nat) : State :=
  if s.rd RLY_POS.STATE ≠ 2 then s
  else if f.badCrc = true ∨ f.payload.length < 16 ∨ f.src ≠ 0 ∨ f.dst ≠ 0xFF then s.framePass f
  else if f.epoch.toNat ≠ s.rd RLY_POS.EPOCH then (s.rlyRaise RLY_STS.fEPOCHDROP).framePass f
  else if s.seqNew f = false then (s.seqStale f).framePass f
  else
    let v := payNat f.payload
    let corr := v / 2 ^ 64 % 2 ^ 32
    let dly := s.rd RLY_LINKDLY.DLY
    let s := (s.seqTake f).timeTake (v % 2 ^ 64) corr (v / 2 ^ 96 % 2 ^ 32)
    s.framePass { f with
      payload := f.payload.take 8 ++ bytesOf ((corr + dly + lat) % 2 ^ 32) 4 ++ f.payload.drop 12 }

def execTime (f : Frame) (lat : BitVec 16) (s : State) : Host.Outcome State Fault Refusal :=
  s.done (s.timeFrame f lat.toNat)

/-- No TIME frame for 10 ms. -/
def State.holdover (s : State) : State :=
  if s.pkgMode = 0 then s
  else
    let s : State := { s with rly := { s.rly with good := 0 } }
    (s.wr RLY_TSYNC.STATE 3).rlyRaise RLY_STS.fHOLDOVER

def execTimeHoldover (s : State) : Host.Outcome State Fault Refusal := s.done s.holdover

/-! ### Commands (R527 to R530) -/

/-- The authority of a command from the ring (R529): its status, and whether a CMAC failed. -/
def State.rlyAuth (s : State) (f : Frame) : Nat × Bool :=
  if f.src ≠ 0 then (EPERM, false)
  else if f.cls = 3 then (OK, false)
  else if s.on RLY_CTL.CTL_OK = false then (EPERM, false)
  else if s.on RLY_CTL.AUTH ∧ f.macOk f.payload = false then (EPERM, true)
  else (OK, false)

/-- What a command answers: the new state, the status and the payload. -/
abbrev RlyRes := State × Nat × List (BitVec 8)

/-- A refusal on account of the state is logged (R18). -/
def State.rlyLogged (s : State) (sts : Nat) : State := if sts = ESTATE then s.logCmd 0x0E 0 ESTATE else s

/-- A command frame that this node has taken: authority, SEQ, its effect, the answer; `after` follows the answer. -/
def State.rlyRing (s : State) (f : Frame) (run : State → List (BitVec 8) → RlyRes) (after : Nat → State → State) : State :=
  let cls := f.cls.toNat
  let code := f.code.toNat
  let p : Path := .ring f.src.toNat f.tag.toNat
  match s.rlyAuth f with
  | (sts, bad) =>
    let s := if bad then s.rlyRaise RLY_STS.fAUTHFAIL else s
    if sts ≠ OK then s.rlyAnswer p cls code sts []
    else if s.seqNew f = false then (s.seqStale f).rlyAnswer p cls code ESTALE []
    else
      let r := run (s.seqTake f) f.payload
      let s := (r.1.rlyLogged r.2.1).rlyAnswer p cls code r.2.1 r.2.2
      if r.2.1 = OK then after (payNat f.payload) s else s

/-- The head request of mailbox 12, if it is this command: the mailbox works while the hub mesh does. -/
def State.rlyMbx (s : State) (cls code : Nat) (run : State → List (BitVec 8) → RlyRes) (after : Nat → State → State) : State :=
  if s.coresRun = false then s
  else
    match s.fwPeek 12 with
    | none => s
    | some x =>
      if x.val % 256 ≠ cls * 32 + code then s
      else
        let p : Path := .mbx x.world (x.val / 2 ^ 16 % 65536) x.enc
        let pay := bytesOf (x.val / 2 ^ 32) (x.len - 4)
        let secure : Bool := x.world && x.enc == 0
        let s := s.fwTake 12
        let s :=
          if cls = 4 ∧ secure = false then s.rlyAnswer p cls code EPERM []
          else if x.dmg = true ∨ x.len < 4 ∨ x.val / 2 ^ 8 % 256 ≠ 0 then s.rlyAnswer p cls code EINVAL []
          else
            let r := run s pay
            let s := (r.1.rlyLogged r.2.1).rlyAnswer p cls code r.2.1 r.2.2
            if r.2.1 = OK then after (payNat pay) s else s
        s.fwGo 12

/-- A command row: a ring frame of that class and code, or the head of mailbox 12. Another frame is none of this row's. -/
def State.rlyCmd (s : State) (cls code : Nat) (f : Option Frame) (run : State → List (BitVec 8) → RlyRes)
    (after : Nat → State → State) : Host.Outcome State Fault Refusal :=
  s.done (match f with
    | some f =>
      if f.cls.toNat = cls ∧ f.code.toNat = code ∧ f.ans = false then s.frameIn f (fun s => s.rlyRing f run after)
      else s
    | none => s.rlyMbx cls code run after)

/-- Undefined payload bits are zero. -/
def payOk (pay : List (BitVec 8)) (mask : Nat) : Bool := payNat pay &&& mask == payNat pay

/-- A command with a payload: EINVAL where undefined bits are set. -/
def withPay (mask : Nat) (run : State → Nat → State × Nat) (s : State) (pay : List (BitVec 8)) : RlyRes :=
  if payOk pay mask then
    let r := run s (payNat pay)
    (r.1, r.2, [])
  else (s, EINVAL, [])

/-- Nothing follows the answer. -/
def noAfter (_ : Nat) (s : State) : State := s

/-- The IDENT answer: HUB_ID, HUB_POP, the serial, each of 8 bytes, and the position in one. -/
def State.identPay (s : State) : List (BitVec 8) :=
  packBytes (s.identVals.zip [8, 8, 8, 1])

/-- The STATUS answer: four registers of 8 bytes each. -/
def State.statusPay (s : State) : List (BitVec 8) := packBytes (s.statusVals.map (fun v => (v, 8)))

def execRlyIdent (f : Option Frame) (s : State) : Host.Outcome State Fault Refusal :=
  s.rlyCmd 3 1 f (fun s pay => if payOk pay 0 then (s, OK, s.identPay) else (s, EINVAL, [])) noAfter

def execRlyStatus (f : Option Frame) (s : State) : Host.Outcome State Fault Refusal :=
  s.rlyCmd 3 2 f (fun s pay => if payOk pay 0 then (s, OK, s.statusPay) else (s, EINVAL, [])) noAfter

def execRlyBoot (f : Option Frame) (s : State) : Host.Outcome State Fault Refusal :=
  s.rlyCmd 4 1 f (withPay 0 (fun s _ => s.bootReq)) noAfter

def execRlyPowerDown (f : Option Frame) (s : State) : Host.Outcome State Fault Refusal :=
  s.rlyCmd 4 2 f (withPay 1 (fun s v => s.powerDown (v != 0))) noAfter

def execRlyReset (f : Option Frame) (s : State) : Host.Outcome State Fault Refusal :=
  s.rlyCmd 4 3 f (withPay 1 (fun s v => (s, if v = 0 then s.warmReset.2 else OK)))
    (fun v s => if v = 0 then s.capEnd.warmReset.1 else s.capEnd.resetCold)

def execRlySetLimit (f : Option Frame) (s : State) : Host.Outcome State Fault Refusal :=
  s.rlyCmd 4 4 f (withPay (0x7FF + 2 ^ 31) (fun s v => s.setLimit true v false)) noAfter

def execLinkdly (f : Option Frame) (s : State) : Host.Outcome State Fault Refusal :=
  s.rlyCmd 4 5 f (withPay 0xFFFF (fun s v => ((s.wr RLY_LINKDLY.DLY v).wr RLY_LINKDLY.SET 1, OK))) noAfter

/-- LEAVE: the answer, then BYPASS until AON power-on or cold reset. -/
def execLeave (f : Option Frame) (s : State) : Host.Outcome State Fault Refusal :=
  s.rlyCmd 4 6 f (withPay 0 (fun s _ => (s, OK))) (fun _ s =>
    let s : State := { s with rly := { s.rly with left := true } }
    s.wr RLY_POS.STATE 0)

/-! ### MONITOR: a line of text (R530, R538) -/

/-- The characters of a line up to CR or LF. -/
def lineChars (l : List (BitVec 8)) : List Nat := (l.map BitVec.toNat).takeWhile (fun c => c != 13 && c != 10)

/-- Tokens separated by spaces. -/
def tokens : List Nat → List (List Nat)
  | [] => []
  | c :: cs =>
    if c = 32 then
      [] :: tokens cs
    else
      match tokens cs with
      | [] => [[c]]
      | t :: ts => (c :: t) :: ts

/-- The value of a hexadecimal digit. -/
def hexDigit (c : Nat) : Option Nat :=
  if 48 ≤ c ∧ c ≤ 57 then some (c - 48)
  else if 65 ≤ c ∧ c ≤ 70 then some (c - 55)
  else if 97 ≤ c ∧ c ≤ 102 then some (c - 87)
  else none

/-- A number in hexadecimal, with or without 0x, underscores allowed. -/
def parseHex (t : List Nat) : Option Nat :=
  let ds := match t with
    | 48 :: 120 :: ds => ds
    | 48 :: 88 :: ds => ds
    | ds => ds
  let ds := ds.filter (fun c => c != 95)
  if ds.isEmpty then none
  else ds.foldl (fun v c => match v, hexDigit c with | some v, some d => some (16 * v + d) | _, _ => none) (some 0)

/-- Every token is a number. -/
def parseNums : List (List Nat) → Option (List Nat)
  | [] => some []
  | t :: ts => match parseHex t, parseNums ts with | some v, some vs => some (v :: vs) | _, _ => none

/-- A token in capitals. -/
def upper (t : List Nat) : List Nat := t.map (fun c => if 97 ≤ c ∧ c ≤ 122 then c - 32 else c)

/-- A word as character codes. -/
def word (w : String) : List Nat := w.toList.map Char.toNat

/-- Commands with numbers only. -/
def parsePlain (w : List Nat) (vs : List Nat) : Option MonCmd :=
  let simple : List (List Nat × MonCmd) := [
    (word "MODE", .mode), (word "IDENT", .ident), (word "STATUS", .status), (word "LOGOUT", .logout), (word "BOOT", .boot),
    (word "DIETEST", .dietest), (word "PHOTO", .photo), (word "AUTH", .auth none)]
  let one : List (List Nat × (Nat → MonCmd)) := [
    (word "BAUD", .baud), (word "LOG", .log), (word "POWERDOWN", .powerdown), (word "RESET", .reset), (word "RD", .rd),
    (word "PERF", .perf), (word "HALT", .halt), (word "GO", .go), (word "STEP", .step), (word "REGS", .regs)]
  let two : List (List Nat × (Nat → Nat → MonCmd)) := [
    (word "LIMIT", .limit), (word "WR", .wr), (word "AUTH", fun l r => .auth (some (l, r)))]
  let three : List (List Nat × (Nat → Nat → Nat → MonCmd)) := [
    (word "SETREG", .setreg), (word "BRK", fun c k v => .brk c k (some v))]
  let four : List (List Nat × (Nat → Nat → Nat → Nat → MonCmd)) := [
    (word "MEMRD", .memrd), (word "MEMWR", .memwr)]
  match vs with
  | [] => (simple.find? (fun e => e.1 == w)).map (fun e => e.2)
  | [a] => (one.find? (fun e => e.1 == w)).map (fun e => e.2 a)
  | [a, b] => (two.find? (fun e => e.1 == w)).map (fun e => e.2 a b)
  | [a, b, c] => (three.find? (fun e => e.1 == w)).map (fun e => e.2 a b c)
  | [a, b, c, d] => (four.find? (fun e => e.1 == w)).map (fun e => e.2 a b c d)
  | _ => none

/-- CAP: section codes, then FROM and an offset. -/
def parseCap (args : List (List Nat)) : Option MonCmd :=
  let secs := args.takeWhile (fun t => upper t != word "FROM")
  match parseNums secs, args.drop secs.length with
  | some vs, [] => some (.cap vs 0)
  | some vs, [_, off] => (parseHex off).map (fun o => .cap vs o)
  | _, _ => none

/-- The command of a line; none where it is malformed. -/
def parseLine (cs : List Nat) : Option MonCmd :=
  if 240 < cs.length ∨ cs.any (fun c => decide (c < 32) || decide (126 < c)) = true then none
  else
    match (tokens cs).filter (fun t => !t.isEmpty) with
    | [] => none
    | w :: args =>
      let w := upper w
      if w = word "CAP" then parseCap args
      else
        match w == word "BRK", args with
        | true, [c, k, off] =>
          if upper off = word "OFF" then
            (match parseHex c, parseHex k with | some c, some k => some (.brk c k none) | _, _ => none)
          else (parseNums args).bind (parsePlain w)
        | _, _ => (parseNums args).bind (parsePlain w)

/-- A line of text arrives at the monitor: an empty one is ignored, one that is malformed is answered EINVAL in its turn. -/
def State.monText (s : State) (p : Path) (pay : List (BitVec 8)) : State :=
  let cs := lineChars pay
  if cs.all (fun c => c == 32) then s
  else
    s.monLine p ((parseLine cs).getD .malformed)

/-- A MONITOR frame that has passed R529, or a MONITOR request of mailbox 12. -/
def State.monFrame (s : State) (f : Frame) : State :=
  let p : Path := .ring f.src.toNat f.tag.toNat
  match s.rlyAuth f with
  | (sts, bad) =>
    let s := if bad then s.rlyRaise RLY_STS.fAUTHFAIL else s
    if sts ≠ OK then s.rlyAnswer p 5 1 sts []
    else if s.seqNew f = false then (s.seqStale f).rlyAnswer p 5 1 ESTALE []
    else (s.seqTake f).monText p f.payload

def State.monMbx (s : State) : State :=
  if s.coresRun = false then s
  else
    match s.fwPeek 12 with
    | none => s
    | some x =>
      if x.val % 256 ≠ 0xA1 then s
      else
        let p : Path := .mbx x.world (x.val / 2 ^ 16 % 65536) x.enc
        let s := s.fwTake 12
        let s := if x.dmg = true ∨ x.len < 4 ∨ x.val / 2 ^ 8 % 256 ≠ 0 then s.rlyAnswer p 5 1 EINVAL []
          else s.monText p (bytesOf (x.val / 2 ^ 32) (x.len - 4))
        s.fwGo 12

def execRlyMonitor (f : Option Frame) (s : State) : Host.Outcome State Fault Refusal :=
  s.done (match f with
    | some f =>
      if f.cls = 5 ∧ f.code = 1 ∧ f.ans = false then s.frameIn f (fun s => s.monFrame f) else s
    | none => s.monMbx)

/-! ### Reports (R474, R478, R529, R532) -/

/-- A REPORT frame of a code that the node takes: accepted from the RMC only, and discarded where its SEQ is stale (R535). -/
def State.rlyReport (s : State) (f : Frame) (code : Nat) (k : State → State) : State :=
  if f.cls = 2 ∧ f.code.toNat = code ∧ f.ans = false then
    s.frameIn f (fun s => if f.src ≠ 0 then s else if s.seqNew f then k (s.seqTake f) else s.seqStale f)
  else s

/-- A CDU frame: FLOW, T_IN and T_OUT; one without room for them is discarded. -/
def State.cduFrame (s : State) (f : Frame) : State :=
  s.rlyReport f 2 (fun s =>
    let v := payNat f.payload
    if f.payload.length < 6 then s else s.cduReport (v % 2 ^ 16) (v / 2 ^ 16 % 2 ^ 10) (v / 2 ^ 32 % 2 ^ 10))

/-- A RESERVE frame is the reserve notice of R473 and R478. -/
def State.reserveFrame (s : State) (f : Frame) : State := s.rlyReport f 3 (fun s => s.batteryReserve)

/-- A report of the RMC as it sends one to this node: the SEQ after its last and the present EPOCH (R521, R535). -/
def State.rmcReport (s : State) (code : BitVec 5) (dst : Nat) (payload : List (BitVec 8)) : Frame where
  cls := 2
  code := code
  dst := BitVec.ofNat 8 dst
  src := 0
  hops := 0
  seq := BitVec.ofNat 16 (Tbl.getD s.rly.hist 0 0 + 1)
  tag := 0
  auth := false
  ans := false
  sts := 0
  epoch := BitVec.ofNat 8 (s.rd RLY_POS.EPOCH)
  payload := payload
  mac := 0
  badCrc := false

/-- CDU_REPORT: the RMC's CDU frame for this position arrives (assumption 86). -/
def execCduReport (flow : BitVec 16) (tin tout : BitVec 10) (s : State) : Host.Outcome State Fault Refusal :=
  s.done (s.cduFrame (s.rmcReport 2 (s.rd RLY_POS.POS)
    (packBytes [(flow.toNat, 2), (tin.toNat, 2), (tout.toNat, 2)])))

/-- BATTERY_RESERVE: the RMC's RESERVE frame for all arrives (assumption 86). -/
def execBatteryReserve (s : State) : Host.Outcome State Fault Refusal :=
  s.done (s.reserveFrame (s.rmcReport 3 0xFF []))

/-! ### Other frames (R523, R528) -/

/-- A frame that no other row takes: passed on; or taken, and then a command of no known code is answered EINVAL, and any
other frame is discarded, a stale one with its flag. -/
def State.frameOther (s : State) (f : Frame) : State :=
  s.frameIn f (fun s =>
    let known := (rlyReports ++ rlyCommands).contains (f.cls.toNat * 32 + f.code.toNat)
    if f.ans = true ∨ known = true ∨ f.cls.toNat < 3 then
      (if s.seqNew f then s.seqTake f else s.seqStale f)
    else s.rlyRing f (fun s _ => (s, EINVAL, [])) noAfter)

/-- RING_FRAME_PASS: any frame without a row that carries it; the reports that the node takes are CDU and RESERVE. -/
def execRingFramePass (f : Frame) (s : State) : Host.Outcome State Fault Refusal :=
  s.done (if f.cls = 2 ∧ f.code = 2 ∧ f.ans = false then s.cduFrame f
    else if f.cls = 2 ∧ f.code = 3 ∧ f.ans = false then s.reserveFrame f
    else s.frameOther f)

end Sys2Proof.Machine
end

