-- ==== Sys2Proof/Machine/Dispatch.lean ====
section
/-!
DEFINITION. One arm for each command: its meaning, or its rejection by name.
-/
namespace Sys2Proof.Machine

def exec (i : Instr) (s : State) : Host.Outcome State Fault Refusal :=
  match i with
  | .registerWrite p lg v d => Sys2Proof.Machine.execRegisterWrite p lg v d s
  | .timebaseBell => Sys2Proof.Machine.execTimebaseBell s
  | .timebaseWrap => Sys2Proof.Machine.execTimebaseWrap s
  | .coreLoad c rd rb off w => Sys2Proof.Machine.execCoreLoad c rd rb off w s
  | .coreStore c rs rb off w => Sys2Proof.Machine.execCoreStore c rs rb off w s
  | .fence c ga gb imm => Sys2Proof.Machine.execFence c ga gb imm s
  | .fenceRetire c => Sys2Proof.Machine.execFenceRetire c s
  | .ldo c ga gb gc size order x => Sys2Proof.Machine.execLdo c ga gb gc size order x s
  | .sto c ga gb gc size order mbz => Sys2Proof.Machine.execSto c ga gb gc size order mbz s
  | .swp c ga gb gc size order mbz => Sys2Proof.Machine.execSwp c ga gb gc size order mbz s
  | .cas c ga gb gc size order mbz => Sys2Proof.Machine.execCas c ga gb gc size order mbz s
  | .fadd c ga gb gc size order mbz => Sys2Proof.Machine.execFadd c ga gb gc size order mbz s
  | .fand c ga gb gc size order mbz => Sys2Proof.Machine.execFand c ga gb gc size order mbz s
  | .forOp c ga gb gc size order mbz => Sys2Proof.Machine.execForOp c ga gb gc size order mbz s
  | .cas128 c ga gb gc size order mbz => Sys2Proof.Machine.execCas128 c ga gb gc size order mbz s
  | .gatheredWriteIssue c => Sys2Proof.Machine.execGatheredWriteIssue c s
  | .deviceLoadTimeout m => Sys2Proof.Machine.execDeviceLoadTimeout m s
  | .unmappedAccess m => Sys2Proof.Machine.execUnmappedAccess m s
  | .nonmemCoherentRefuse m => Sys2Proof.Machine.execNonmemCoherentRefuse m s
  | .rdshared m => Sys2Proof.Machine.execRdshared m s
  | .rdunique m => Sys2Proof.Machine.execRdunique m s
  | .upgrade m => Sys2Proof.Machine.execUpgrade m s
  | .rdonce m => Sys2Proof.Machine.execRdonce m s
  | .wrfull m => Sys2Proof.Machine.execWrfull m s
  | .wrpart m => Sys2Proof.Machine.execWrpart m s
  | .wbdirty m => Sys2Proof.Machine.execWbdirty m s
  | .evclean m => Sys2Proof.Machine.execEvclean m s
  | .maintcln m => Sys2Proof.Machine.execMaintcln m s
  | .maintinv m => Sys2Proof.Machine.execMaintinv m s
  | .homeAdmit h ecc => Sys2Proof.Machine.execHomeAdmit h ecc s
  | .snpshared m => Sys2Proof.Machine.execSnpshared m s
  | .snpunique m => Sys2Proof.Machine.execSnpunique m s
  | .snpinv m => Sys2Proof.Machine.execSnpinv m s
  | .snpcur m => Sys2Proof.Machine.execSnpcur m s
  | .snpcln m => Sys2Proof.Machine.execSnpcln m s
  | .rspclean m => Sys2Proof.Machine.execRspclean m s
  | .rspclnwb m => Sys2Proof.Machine.execRspclnwb m s
  | .rspi m => Sys2Proof.Machine.execRspi m s
  | .rsps m => Sys2Proof.Machine.execRsps m s
  | .rspifwd m => Sys2Proof.Machine.execRspifwd m s
  | .rspsfwd m => Sys2Proof.Machine.execRspsfwd m s
  | .rspofwd m => Sys2Proof.Machine.execRspofwd m s
  | .rspiwb m => Sys2Proof.Machine.execRspiwb m s
  | .rspswb m => Sys2Proof.Machine.execRspswb m s
  | .rspcurfwd m => Sys2Proof.Machine.execRspcurfwd m s
  | .datas m => Sys2Proof.Machine.execDatas m s
  | .datae m => Sys2Proof.Machine.execDatae m s
  | .datam m => Sys2Proof.Machine.execDatam m s
  | .grante m => Sys2Proof.Machine.execGrante m s
  | .dataonce m => Sys2Proof.Machine.execDataonce m s
  | .wback m => Sys2Proof.Machine.execWback m s
  | .wbackstale m => Sys2Proof.Machine.execWbackstale m s
  | .evack m => Sys2Proof.Machine.execEvack m s
  | .wrack m => Sys2Proof.Machine.execWrack m s
  | .maintack m => Sys2Proof.Machine.execMaintack m s
  | .compack m => Sys2Proof.Machine.execCompack m s
  | .snoopTimeout line a => Sys2Proof.Machine.execSnoopTimeout line a s
  | .suspectWindowExpire a => Sys2Proof.Machine.execSuspectWindowExpire a s
  | .deadAgentSweep h => Sys2Proof.Machine.execDeadAgentSweep h s
  | .hwPrefetch c near va own kind => Sys2Proof.Machine.execHwPrefetch c near va own kind s
  | .l3Evict t line => Sys2Proof.Machine.execL3Evict t line s
  | .l2Evict c line => Sys2Proof.Machine.execL2Evict c line s
  | .hmcVictimAccepted h line => Sys2Proof.Machine.execHmcVictimAccepted h line s
  | .hmcEnable half => Sys2Proof.Machine.execHmcEnable half s
  | .hmcDisable half => Sys2Proof.Machine.execHmcDisable half s
  | .hmcInvalidate half => Sys2Proof.Machine.execHmcInvalidate half s
  | .hmcDrainDone half => Sys2Proof.Machine.execHmcDrainDone half s
  | .hmcInvalidateDone half => Sys2Proof.Machine.execHmcInvalidateDone half s
  | .hmcSeedWrite h v a => Sys2Proof.Machine.execHmcSeedWrite h v a s
  | .hmcWaymaskWrite cls v => Sys2Proof.Machine.execHmcWaymaskWrite cls v s
  | .clean c ga gb imm => Sys2Proof.Machine.execClean c ga gb imm s
  | .clinv c ga gb imm => Sys2Proof.Machine.execClinv c ga gb imm s
  | .zero c ga gb imm => Sys2Proof.Machine.execZero c ga gb imm s
  | .prf c ga gb imm => Sys2Proof.Machine.execPrf c ga gb imm s
  | .cacheDataError arr u line uncorr => Sys2Proof.Machine.execCacheDataError arr u line uncorr s
  | .tagFatal arr die index set way dirty => Sys2Proof.Machine.execTagFatal arr die index set way dirty s
  | .crdFlit dst src sunit x a b rsv => Sys2Proof.Machine.execCrdFlit dst src sunit x a b rsv s
  | .meshLinkEccError r l err => Sys2Proof.Machine.execMeshLinkEccError r l err s
  | .requestTimeout st id => Sys2Proof.Machine.execRequestTimeout st id s
  | .pacerRelease p free => Sys2Proof.Machine.execPacerRelease p free s
  | .meshPcrWrite p c v d => Sys2Proof.Machine.execMeshPcrWrite p c v d s
  | .stopDrained st => Sys2Proof.Machine.execStopDrained st s
  | .stopDrainTimeout st => Sys2Proof.Machine.execStopDrainTimeout st s
  | .routerFault r => Sys2Proof.Machine.execRouterFault r s
  | .markDead op r d => Sys2Proof.Machine.execMarkDead op r d s
  | .recfgComputeDone => Sys2Proof.Machine.execRecfgComputeDone s
  | .recfgInstallDone => Sys2Proof.Machine.execRecfgInstallDone s
  | .recfgDrainEmpty => Sys2Proof.Machine.execRecfgDrainEmpty s
  | .recfgDrainTimeout lost => Sys2Proof.Machine.execRecfgDrainTimeout lost s
  | .linkSidebandReady t => Sys2Proof.Machine.execLinkSidebandReady t s
  | .capabilityExchange t r => Sys2Proof.Machine.execCapabilityExchange t r s
  | .trainingAttemptEnd t lock bad => Sys2Proof.Machine.execTrainingAttemptEnd t lock bad s
  | .trainingAttemptTimeout t => Sys2Proof.Machine.execTrainingAttemptTimeout t s
  | .widthCheckMsg t mask width set seq => Sys2Proof.Machine.execWidthCheckMsg t mask width set seq s
  | .creditRestoreDone t c0 c1 c2 => Sys2Proof.Machine.execCreditRestoreDone t c0 c1 c2 s
  | .linkReset t => Sys2Proof.Machine.execLinkReset t s
  | .groupClockLoss t g => Sys2Proof.Machine.execGroupClockLoss t g s
  | .wireRepairThreshold t g w => Sys2Proof.Machine.execWireRepairThreshold t g w s
  | .strideSlotReceive t toDie x again => Sys2Proof.Machine.execStrideSlotReceive t toDie x again s
  | .linkReplayRequest t w => Sys2Proof.Machine.execLinkReplayRequest t w s
  | .linkCreditReturn t w => Sys2Proof.Machine.execLinkCreditReturn t w s
  | .retrain t d => Sys2Proof.Machine.execRetrain t d s
  | .loopback t pattern point d => Sys2Proof.Machine.execLoopback t pattern point d s
  | .lbStop t d => Sys2Proof.Machine.execLbStop t d s
  | .regulatorTrip r => Sys2Proof.Machine.execRegulatorTrip r s
  | .regulatorSample r ma => Sys2Proof.Machine.execRegulatorSample r ma s
  | .mchReadArrive r => Sys2Proof.Machine.execMchReadArrive r s
  | .mchWriteArrive r e => Sys2Proof.Machine.execMchWriteArrive r e s
  | .dramReadReturn ch line e syn => Sys2Proof.Machine.execDramReadReturn ch line e syn s
  | .dramReadUncorrectable ch line syn => Sys2Proof.Machine.execDramReadUncorrectable ch line syn s
  | .writeAgeExpire ch => Sys2Proof.Machine.execWriteAgeExpire ch s
  | .refreshDue ch sc rk => Sys2Proof.Machine.execRefreshDue ch sc rk s
  | .mr4Poll ch hot => Sys2Proof.Machine.execMr4Poll ch hot s
  | .rowDisturbRefresh ch bank => Sys2Proof.Machine.execRowDisturbRefresh ch bank s
  | .actTableClear ch => Sys2Proof.Machine.execActTableClear ch s
  | .patrolScrub ch p e syn => Sys2Proof.Machine.execPatrolScrub ch p e syn s
  | .caParityAlert ch dcmd line again => Sys2Proof.Machine.execCaParityAlert ch dcmd line again s
  | .writeCrcFail ch line again => Sys2Proof.Machine.execWriteCrcFail ch line again s
  | .phyLockLoss ch => Sys2Proof.Machine.execPhyLockLoss ch s
  | .dqsRetune ch x => Sys2Proof.Machine.execDqsRetune ch x s
  | .resume ch => Sys2Proof.Machine.execResume ch s
  | .repair ch kind sc rk bg ba row => Sys2Proof.Machine.execRepair ch kind sc rk bg ba row s
  | .mchFence ch => Sys2Proof.Machine.execMchFence ch s
  | .resumeDone ch => Sys2Proof.Machine.execResumeDone ch s
  | .repairDone ch spare bad => Sys2Proof.Machine.execRepairDone ch spare bad s
  | .channelKeyLoad enc => Sys2Proof.Machine.execChannelKeyLoad enc s
  | .xcpDeltaArrive ch => Sys2Proof.Machine.execXcpDeltaArrive ch s
  | .parityUpdateArrive x => Sys2Proof.Machine.execParityUpdateArrive x s
  | .xcpReadHandover r => Sys2Proof.Machine.execXcpReadHandover r s
  | .xcpWriteHandover r => Sys2Proof.Machine.execXcpWriteHandover r s
  | .xcpRebuildLock g stripe => Sys2Proof.Machine.execXcpRebuildLock g stripe s
  | .xcpMemberAnswer g stripe x => Sys2Proof.Machine.execXcpMemberAnswer g stripe x s
  | .resyncStripe x => Sys2Proof.Machine.execResyncStripe x s
  | .xcpInit m => Sys2Proof.Machine.execXcpInit m s
  | .xcpInitDone => Sys2Proof.Machine.execXcpInitDone s
  | .xcpRebuild m => Sys2Proof.Machine.execXcpRebuild m s
  | .xcpMarkAll m => Sys2Proof.Machine.execXcpMarkAll m s
  | .deltaLineUncorrectable g stripe => Sys2Proof.Machine.execDeltaLineUncorrectable g stripe s
  | .xcpCtlWrite v => Sys2Proof.Machine.execXcpCtlWrite v s
  | .tlbiVa c ga gb imm => Sys2Proof.Machine.execTlbiVa c ga gb imm s
  | .tlbiVaa c ga gb imm => Sys2Proof.Machine.execTlbiVaa c ga gb imm s
  | .tlbiAsid c ga gb imm => Sys2Proof.Machine.execTlbiAsid c ga gb imm s
  | .tlbiVm c ga gb imm => Sys2Proof.Machine.execTlbiVm c ga gb imm s
  | .tlbiAll c ga gb imm => Sys2Proof.Machine.execTlbiAll c ga gb imm s
  | .tlblock c ga gb imm => Sys2Proof.Machine.execTlblock c ga gb imm s
  | .tlbunlock c ga gb imm => Sys2Proof.Machine.execTlbunlock c ga gb imm s
  | .jrinv c ga gb imm => Sys2Proof.Machine.execJrinv c ga gb imm s
  | .syncTlb c ga gb imm => Sys2Proof.Machine.execSyncTlb c ga gb imm s
  | .syncTlbComplete c => Sys2Proof.Machine.execSyncTlbComplete c s
  | .invalBroadcastArrive c => Sys2Proof.Machine.execInvalBroadcastArrive c s
  | .invalTcdDeliver t => Sys2Proof.Machine.execInvalTcdDeliver t s
  | .coreInvalAck c => Sys2Proof.Machine.execCoreInvalAck c s
  | .broadcastAck t => Sys2Proof.Machine.execBroadcastAck t s
  | .vmCtlWrite c v => Sys2Proof.Machine.execVmCtlWrite c v s
  | .ttRegWrite c r v => Sys2Proof.Machine.execTtRegWrite c r v s
  | .tableWalk c va acc spec => Sys2Proof.Machine.execTableWalk c va acc spec s
  | .vmidPresenceReport c => Sys2Proof.Machine.execVmidPresenceReport c s
  | .wcall c ga gb imm => Sys2Proof.Machine.execWcall c ga gb imm s
  | .encCreate q => Sys2Proof.Machine.execEncCreate q s
  | .encAdd q => Sys2Proof.Machine.execEncAdd q s
  | .encSeal q => Sys2Proof.Machine.execEncSeal q s
  | .encRemove q => Sys2Proof.Machine.execEncRemove q s
  | .encDestroy q => Sys2Proof.Machine.execEncDestroy q s
  | .encAttest q => Sys2Proof.Machine.execEncAttest q s
  | .assign q => Sys2Proof.Machine.execAssign q s
  | .claim q => Sys2Proof.Machine.execClaim q s
  | .release q => Sys2Proof.Machine.execRelease q s
  | .dbgSet q => Sys2Proof.Machine.execDbgSet q s
  | .claimTimeoutExpire d => Sys2Proof.Machine.execClaimTimeoutExpire d s
  | .ownershipCallResume => Sys2Proof.Machine.execOwnershipCallResume s
  | .ideTlpFail rid => Sys2Proof.Machine.execIdeTlpFail rid s
  | .bmeClear f => Sys2Proof.Machine.execBmeClear f s
  | .bmeSet f => Sys2Proof.Machine.execBmeSet f s
  | .flr f => Sys2Proof.Machine.execFlr f s
  | .flrComplete f => Sys2Proof.Machine.execFlrComplete f s
  | .msixEnableSet f => Sys2Proof.Machine.execMsixEnableSet f s
  | .msixVectorUnmask f v => Sys2Proof.Machine.execMsixVectorUnmask f v s
  | .peerPiece m rid => Sys2Proof.Machine.execPeerPiece m rid s
  | .tqeWinLowWrite n v d => Sys2Proof.Machine.execTqeWinLowWrite n v d s
  | .tqeWinHighWrite n v d => Sys2Proof.Machine.execTqeWinHighWrite n v d s
  | .tqeWinFenceRead d => Sys2Proof.Machine.execTqeWinFenceRead d s
  | .tqeWinFenceReturn => Sys2Proof.Machine.execTqeWinFenceReturn s
  | .tqeCompletionTimeout line => Sys2Proof.Machine.execTqeCompletionTimeout line s
  | .tqeAdmInWrite f v d => Sys2Proof.Machine.execTqeAdmInWrite f v d s
  | .tqeAdmEndWrite f v d => Sys2Proof.Machine.execTqeAdmEndWrite f v d s
  | .ringGrant f => Sys2Proof.Machine.execRingGrant f s
  | .ringSetup f => Sys2Proof.Machine.execRingSetup f s
  | .ringEnable f => Sys2Proof.Machine.execRingEnable f s
  | .ringDisable f => Sys2Proof.Machine.execRingDisable f s
  | .ringReset f => Sys2Proof.Machine.execRingReset f s
  | .fnClass f => Sys2Proof.Machine.execFnClass f s
  | .ringQuery f => Sys2Proof.Machine.execRingQuery f s
  | .admAnswerPop f hi lg half d => Sys2Proof.Machine.execAdmAnswerPop f hi lg half d s
  | .admQueueReset f => Sys2Proof.Machine.execAdmQueueReset f s
  | .doorbellReadComplete octet => Sys2Proof.Machine.execDoorbellReadComplete octet s
  | .doorbellRetry octet => Sys2Proof.Machine.execDoorbellRetry octet s
  | .descriptorFetch r => Sys2Proof.Machine.execDescriptorFetch r s
  | .moverStart => Sys2Proof.Machine.execMoverStart s
  | .copy mv => Sys2Proof.Machine.execCopy mv s
  | .fill mv => Sys2Proof.Machine.execFill mv s
  | .compare mv => Sys2Proof.Machine.execCompare mv s
  | .crc32c mv => Sys2Proof.Machine.execCrc32c mv s
  | .gcmEnc mv => Sys2Proof.Machine.execGcmEnc mv s
  | .gcmDec mv => Sys2Proof.Machine.execGcmDec mv s
  | .xtsEnc mv => Sys2Proof.Machine.execXtsEnc mv s
  | .xtsDec mv => Sys2Proof.Machine.execXtsDec mv s
  | .peer mv => Sys2Proof.Machine.execPeer mv s
  | .nop mv => Sys2Proof.Machine.execNop mv s
  | .descriptorCommit r => Sys2Proof.Machine.execDescriptorCommit r s
  | .ptrCopyMismatch x => Sys2Proof.Machine.execPtrCopyMismatch x s
  | .moverFifoReset mv => Sys2Proof.Machine.execMoverFifoReset mv s
  | .keyBind f => Sys2Proof.Machine.execKeyBind f s
  | .keyPut f => Sys2Proof.Machine.execKeyPut f s
  | .keyGen f => Sys2Proof.Machine.execKeyGen f s
  | .keyUnwrap f => Sys2Proof.Machine.execKeyUnwrap f s
  | .keyWrap f => Sys2Proof.Machine.execKeyWrap f s
  | .keyWrapEngineDone => Sys2Proof.Machine.execKeyWrapEngineDone s
  | .keyErase f => Sys2Proof.Machine.execKeyErase f s
  | .keyQuery f => Sys2Proof.Machine.execKeyQuery f s
  | .keyAlarm cause => Sys2Proof.Machine.execKeyAlarm cause s
  | .keyAlarmRearm => Sys2Proof.Machine.execKeyAlarmRearm s
  | .drbgReseed lane => Sys2Proof.Machine.execDrbgReseed lane s
  | .keySlotError slot => Sys2Proof.Machine.execKeySlotError slot s
  | .mbSend f pf d => Sys2Proof.Machine.execMbSend f pf d s
  | .mbInFullClear f pf d => Sys2Proof.Machine.execMbInFullClear f pf d s
  | .instFreeze f => Sys2Proof.Machine.execInstFreeze f s
  | .instSave f => Sys2Proof.Machine.execInstSave f s
  | .instRestore f => Sys2Proof.Machine.execInstRestore f s
  | .instResume f => Sys2Proof.Machine.execInstResume f s
  | .dirtyStart f => Sys2Proof.Machine.execDirtyStart f s
  | .dirtySync f => Sys2Proof.Machine.execDirtySync f s
  | .dirtyStop f => Sys2Proof.Machine.execDirtyStop f s
  | .instQuery f => Sys2Proof.Machine.execInstQuery f s
  | .wiredSourceLevel n level => Sys2Proof.Machine.execWiredSourceLevel n level s
  | .wiredSourceEdge n => Sys2Proof.Machine.execWiredSourceEdge n s
  | .pirSrcDone n v d => Sys2Proof.Machine.execPirSrcDone n v d s
  | .pirSrcWrite n v d => Sys2Proof.Machine.execPirSrcWrite n v d s
  | .msiMessage m => Sys2Proof.Machine.execMsiMessage m s
  | .mttInvalidate v d => Sys2Proof.Machine.execMttInvalidate v d s
  | .postedDelivery => Sys2Proof.Machine.execPostedDelivery s
  | .interruptArrive c vec world => Sys2Proof.Machine.execInterruptArrive c vec world s
  | .interruptTake c => Sys2Proof.Machine.execInterruptTake c s
  | .intAckRead c rd => Sys2Proof.Machine.execIntAckRead c rd s
  | .intEoi c v => Sys2Proof.Machine.execIntEoi c v s
  | .intIpi c v => Sys2Proof.Machine.execIntIpi c v s
  | .vipCtlWrite c v => Sys2Proof.Machine.execVipCtlWrite c v s
  | .mbxInWrite m v d => Sys2Proof.Machine.execMbxInWrite m v d s
  | .mbxEndWrite m v d => Sys2Proof.Machine.execMbxEndWrite m v d s
  | .mbxDbSetWrite m v d => Sys2Proof.Machine.execMbxDbSetWrite m v d s
  | .mbxOutHiRead m lg half d => Sys2Proof.Machine.execMbxOutHiRead m lg half d s
  | .mbxDbClear m v d => Sys2Proof.Machine.execMbxDbClear m v d s
  | .mbxPtrMismatch m => Sys2Proof.Machine.execMbxPtrMismatch m s
  | .mbxAgeDrop m => Sys2Proof.Machine.execMbxAgeDrop m s
  | .domOn q => Sys2Proof.Machine.execDomOn q s
  | .domOff q => Sys2Proof.Machine.execDomOff q s
  | .domGate q => Sys2Proof.Machine.execDomGate q s
  | .domainPowered d => Sys2Proof.Machine.execDomainPowered d s
  | .clusPerf q => Sys2Proof.Machine.execClusPerf q s
  | .coreOffline q => Sys2Proof.Machine.execCoreOffline q s
  | .coreOnline q => Sys2Proof.Machine.execCoreOnline q s
  | .setLimit q => Sys2Proof.Machine.execSetLimit q s
  | .setRide q => Sys2Proof.Machine.execSetRide q s
  | .pmcQuery q => Sys2Proof.Machine.execPmcQuery q s
  | .pmcControlInterval busy => Sys2Proof.Machine.execPmcControlInterval busy s
  | .voltageRampDone k => Sys2Proof.Machine.execVoltageRampDone k s
  | .waitForInterrupt c => Sys2Proof.Machine.execWaitForInterrupt c s
  | .idle2Entry c => Sys2Proof.Machine.execIdle2Entry c s
  | .aonSupplyGood => Sys2Proof.Machine.execAonSupplyGood s
  | .aonSupplyLoss => Sys2Proof.Machine.execAonSupplyLoss s
  | .bootRequest => Sys2Proof.Machine.execBootRequest s
  | .handoffRun d => Sys2Proof.Machine.execHandoffRun d s
  | .mainsLoss ring => Sys2Proof.Machine.execMainsLoss ring s
  | .mainsReturn => Sys2Proof.Machine.execMainsReturn s
  | .batteryReserve => Sys2Proof.Machine.execBatteryReserve s
  | .cduReport flow tin tout => Sys2Proof.Machine.execCduReport flow tin tout s
  | .cduStale => Sys2Proof.Machine.execCduStale s
  | .junctionHot k tj => Sys2Proof.Machine.execJunctionHot k tj s
  | .junctionFatal k => Sys2Proof.Machine.execJunctionFatal k s
  | .heatForecast => Sys2Proof.Machine.execHeatForecast s
  | .railReport mw => Sys2Proof.Machine.execRailReport mw s
  | .counterWrap x => Sys2Proof.Machine.execCounterWrap x s
  | .meteringInterval u => Sys2Proof.Machine.execMeteringInterval u s
  | .splCiWrite v d => Sys2Proof.Machine.execSplCiWrite v d s
  | .splOpen g d => Sys2Proof.Machine.execSplOpen g d s
  | .splClose g d => Sys2Proof.Machine.execSplClose g d s
  | .splQuery g d => Sys2Proof.Machine.execSplQuery g d s
  | .errRecordTake => Sys2Proof.Machine.execErrRecordTake s
  | .coalEntryExpire id => Sys2Proof.Machine.execCoalEntryExpire id s
  | .errFifoPop lg half => Sys2Proof.Machine.execErrFifoPop lg half s
  | .errRingCiWrite v => Sys2Proof.Machine.execErrRingCiWrite v s
  | .alarmTokenRefill => Sys2Proof.Machine.execAlarmTokenRefill s
  | .errInternalError => Sys2Proof.Machine.execErrInternalError s
  | .treeFatal => Sys2Proof.Machine.execTreeFatal s
  | .rlyBypassTimeout => Sys2Proof.Machine.execRlyBypassTimeout s
  | .rlyTestDone ok => Sys2Proof.Machine.execRlyTestDone ok s
  | .rlyPortFault => Sys2Proof.Machine.execRlyPortFault s
  | .ringFreeze a b viol => Sys2Proof.Machine.execRingFreeze a b viol s
  | .ringMainsLost a b viol => Sys2Proof.Machine.execRingMainsLost a b viol s
  | .orderedSetRepeat freeze => Sys2Proof.Machine.execOrderedSetRepeat freeze s
  | .discover f => Sys2Proof.Machine.execDiscover f s
  | .announce f => Sys2Proof.Machine.execAnnounce f s
  | .time f lat => Sys2Proof.Machine.execTime f lat s
  | .timeHoldover => Sys2Proof.Machine.execTimeHoldover s
  | .rlyIdent f => Sys2Proof.Machine.execRlyIdent f s
  | .rlyStatus f => Sys2Proof.Machine.execRlyStatus f s
  | .rlyBoot f => Sys2Proof.Machine.execRlyBoot f s
  | .rlyPowerDown f => Sys2Proof.Machine.execRlyPowerDown f s
  | .rlyReset f => Sys2Proof.Machine.execRlyReset f s
  | .rlySetLimit f => Sys2Proof.Machine.execRlySetLimit f s
  | .linkdly f => Sys2Proof.Machine.execLinkdly f s
  | .leave f => Sys2Proof.Machine.execLeave f s
  | .rlyMonitor f => Sys2Proof.Machine.execRlyMonitor f s
  | .monMode => Sys2Proof.Machine.execMonMode s
  | .monIdent => Sys2Proof.Machine.execMonIdent s
  | .monStatus => Sys2Proof.Machine.execMonStatus s
  | .auth answer => Sys2Proof.Machine.execAuth answer s
  | .logout => Sys2Proof.Machine.execLogout s
  | .baud n => Sys2Proof.Machine.execBaud n s
  | .log n => Sys2Proof.Machine.execLog n s
  | .monBoot => Sys2Proof.Machine.execMonBoot s
  | .powerdown keep => Sys2Proof.Machine.execPowerdown keep s
  | .monReset kind => Sys2Proof.Machine.execMonReset kind s
  | .flushDeadline => Sys2Proof.Machine.execFlushDeadline s
  | .limit watts lock => Sys2Proof.Machine.execLimit watts lock s
  | .dietest => Sys2Proof.Machine.execDietest s
  | .photo => Sys2Proof.Machine.execPhoto s
  | .cap secs start => Sys2Proof.Machine.execCap secs start s
  | .rd off => Sys2Proof.Machine.execRd off s
  | .wr off v => Sys2Proof.Machine.execWr off v s
  | .perf core => Sys2Proof.Machine.execPerf core s
  | .halt core => Sys2Proof.Machine.execHalt core s
  | .go core => Sys2Proof.Machine.execGo core s
  | .step core => Sys2Proof.Machine.execStep core s
  | .regs core => Sys2Proof.Machine.execRegs core s
  | .setreg core reg v => Sys2Proof.Machine.execSetreg core reg v s
  | .brk core slot va => Sys2Proof.Machine.execBrk core slot va s
  | .memrd world enc pa len => Sys2Proof.Machine.execMemrd world enc pa len s
  | .memwr world enc pa v => Sys2Proof.Machine.execMemwr world enc pa v s
  | .breakpointHit c => Sys2Proof.Machine.execBreakpointHit c s
  | .uartBreak => Sys2Proof.Machine.execUartBreak s
  | .monSessionTimeout => Sys2Proof.Machine.execMonSessionTimeout s
  | .monAuthLockoutEnd => Sys2Proof.Machine.execMonAuthLockoutEnd s
  | .photoPinTrigger => Sys2Proof.Machine.execPhotoPinTrigger s
  | .pfTrigWrite d => Sys2Proof.Machine.execPfTrigWrite d s
  | .pfControllersReported => Sys2Proof.Machine.execPfControllersReported s
  | .pfStopTimeout missing => Sys2Proof.Machine.execPfStopTimeout missing s
  | .pfIslandsStopped => Sys2Proof.Machine.execPfIslandsStopped s
  | .coldResetPin => Sys2Proof.Machine.execColdResetPin s
  | .pgMainRise => Sys2Proof.Machine.execPgMainRise s
  | .pgMainTimeout => Sys2Proof.Machine.execPgMainTimeout s
  | .pgAuxRise k => Sys2Proof.Machine.execPgAuxRise k s
  | .pgAuxTimeout k => Sys2Proof.Machine.execPgAuxTimeout k s
  | .powerGoodFall k => Sys2Proof.Machine.execPowerGoodFall k s
  | .hubRstDie t d => Sys2Proof.Machine.execHubRstDie t d s
  | .hubRstTqe d => Sys2Proof.Machine.execHubRstTqe d s
  | .dieResetDone => Sys2Proof.Machine.execDieResetDone s
  | .cxlwinWrite k v d => Sys2Proof.Machine.execCxlwinWrite k v d s
  | .tapInstruction ir => Sys2Proof.Machine.execTapInstruction ir s
  | .dramCommandIssue ch ready => Sys2Proof.Machine.execDramCommandIssue ch ready s
  | .memoryTrainingDone pass hbm map x => Sys2Proof.Machine.execMemoryTrainingDone pass hbm map x s
  | .bootChainVerified fail ver cfg => Sys2Proof.Machine.execBootChainVerified fail ver cfg s
  | .rstNRise => Sys2Proof.Machine.execRstNRise s
  | .pwrfailNRise => Sys2Proof.Machine.execPwrfailNRise s
  | .ringFramePass f => Sys2Proof.Machine.execRingFramePass f s
  | .ringLineBreak n => Sys2Proof.Machine.execRingLineBreak n s
  | .keyAlarmWindowExpire => Sys2Proof.Machine.execKeyAlarmWindowExpire s

end Sys2Proof.Machine
end

