-- ==== Sys2Proof/Machine/Tick.lean ====
section
/-!
DEFINITION. What happens in a mesh cycle whatever is commanded: an empty queue takes the package one cycle on
(assumption 2). The spec's timers and everything else that is told by a command of its own are not here.
-/
namespace Sys2Proof.Machine

/-- The timebase grows by 1 ns in three mesh cycles of 3.0 GHz; while an offset is being corrected its rate differs by
200 ppm (R534). The accumulator and the correction count 1/15,000 ns. -/
def State.tbTick (s : State) : State :=
  let r := s.rly
  let d : Int := if 0 < r.slew then 1 else if r.slew < 0 then -1 else 0
  let acc := (5000 + d).toNat + r.acc
  let s : State := { s with rly := { r with acc := acc % 15000, slew := r.slew - d } }
  if 15000 ≤ acc then s.tbSet (s.now.toNat + 1) else s

/-- The 32 LFSRs step (R130). -/
def State.lfsrTick (s : State) : State :=
  { s with lfsr := s.lfsr.map (fun e => (e.1, lfsrStep e.2)) }

/-- A bucket grows by its RATE, up to BURST (R175). -/
def State.bucketTick (s : State) (p c : Nat) : State :=
  if s.on (MESH_PCR.EN p c) then
    let top : Int := 1024 * (s.rd (MESH_PCR.BURST p c) : Int)
    let l := s.level p c
    if l < top then s.setLevel p c (min top (l + (s.rd (MESH_PCR.RATE p c) : Int))) else s
  else s

/-- The REQ ports of a point's stop that no message waits at: held messages may leave there (R163, R176). -/
def State.portsFree (s : State) (p : Nat) : List Nat :=
  let st := if p = 13 then iowStop else if p = 14 then ioeStop else stopOfSlot p
  (List.range 3).filter (fun k => !s.mesh.net.any (fun f =>
    !f.back && f.hop == 0 && f.src == st && f.plane == .req && f.dst % 3 == k))

/-- The pacer points: levels, the cycles in which a head waits for tokens, and the queues' occupancy (R175, R485). -/
def State.paceTick (s : State) (p : Nat) : State :=
  let cs := List.range 16
  let s := cs.foldl (fun s c => s.bucketTick p c) s
  let s := cs.foldl (fun s c =>
    match s.pqueue p c with
    | m :: _ => if s.paceReady p c m then s else s.count bankMesh 2 p (some m.attr)
    | [] => s) s
  let s := State.paceCycle p 3 (s.portsFree p) s
  s.occupy bankMesh 0x10 p (cs.flatMap (fun c => (s.pqueue p c).map (fun m => some m.attr)))

/-- The requests that hold trackers of a home: those that wait to be admitted, those at work, those behind a lock. -/
def State.trackers (s : State) (h : Nat) : List Msg :=
  let x := s.home h
  x.rqq ++ x.locks.flatMap (fun l => (match l.txn with
    | .req m | .backInv m | .recover m => [m]
    | .victim | .sweep => []) ++ l.queue)

/-- The occupancy events of homes, links, channels and the TQE (R485). A slot's messages have the attributes of its first. -/
def State.occTick (s : State) : State :=
  let s := (List.range 32).foldl (fun s h =>
    s.occupy (bankHome h) 0x10 0 ((s.trackers h).map (fun m => some m.attr))) s
  let s := (List.range 12).foldl (fun s t => s.occupy (bankStr t) 0x10 0 ((s.link t).rx.map (fun e => e.2.head?.map (fun m => m.attr)))) s
  let chans (s : State) (cs : List Nat) (bank : Nat) : State :=
    (s.occupy bank 0x10 0 (cs.flatMap (fun c => (s.chan c).rq.map (fun e => some e.req.attr)))).occupy bank 0x11 0
      (cs.flatMap (fun c => (s.chan c).wq.map (fun e => some e.req.attr)))
  let s := (List.range 16).foldl (fun s m => chans s [m] (bankMch m)) s
  let s := (List.range 4).foldl (fun s b => chans s (ctlChans (16 + b)) (bankHbc b)) s
  s.occupy bankTqe 0x10 0 ((s.ctxCache.filter (fun r => s.pinned r)).map (fun r => some (s.ringAttr r)))

/-- The instruction waits as a FENCE or a SYNC.TLB does. -/
def CInstr.fences : CInstr → Bool
  | .fence .. => true
  | .tlb fn .. => fn == 2
  | _ => false

/-- A clock cycle of a core: CCNT_CYC, and the cycles in which its next instruction waits: a FENCE or SYNC.TLB (0x09), or
another one behind an access whose data has not come (0x08) (R482). -/
def State.coreCycle (s : State) (c : Nat) : State :=
  let x := s.core c
  let s := s.ccCyc c
  match x.front with
  | i :: _ =>
    if i.fences then s.ccEvent c 0x09
    else if x.win.any (fun o => o.k.reads) then s.ccEvent c 0x08 else s
  | [] => s

/-- A core that is not in an idle state runs at its cluster's frequency, less the eighths in which its clocks stop, in a mesh
cycle of 3.0 GHz (R466, R468, R482; assumption 2). -/
def State.coreTick (s : State) (c : Nat) : State :=
  let x := s.core c
  if x.online && x.idle == 0 && s.coresRun then
    let v := x.cyc + psFreq (s.rd (PMC_CLUS.PS (c / 4))) * (8 - s.rd (PMC_CLUS.STOP8 (c / 4)))
    (List.range (v / 24000)).foldl (fun s _ => s.coreCycle c) (s.modCore c (fun x => { x with cyc := v % 24000 }))
  else s

/-- One mesh cycle of the islands outside AON: flits move (R162 to R164), root ports issue (R75), cores with something
waiting have a turn (R69); the sources of AON's units take their levels (R431). -/
def State.meshTick (s : State) : State :=
  let s := s.lfsrTick
  let s := s.portQ.foldl (fun s e => s.portIssue e.1) s
  let s := if s.cores.isEmpty then s else (List.range 12).foldl (fun s t => s.pokeDie t) s
  let s := s.cores.foldl (fun s e => s.coreTick e.1) s
  let s := (List.range 15).foldl (fun s p => s.paceTick p) s
  let s : State := { s with mesh := s.mesh.cycle }
  let s := s.recfgEnd
  let s := s.hsweep.foldl (fun s e => s.hmcSweep e.1) s
  s.occTick.unitSync

/-- One cycle. In OFF nothing runs; outside AON nothing runs in STANDBY and where the islands are stopped (R499, R547). -/
def State.tick (s : State) : State :=
  if s.pkgMode = 0 then s
  else
    let s : State := s.tbTick
    let s := if s.stopped || s.pkgMode == 1 then s else s.meshTick
    s.monTick

end Sys2Proof.Machine
end

