-- ==== Sys2Proof/WellFormed.lean ====
section
/-!
DEFINITION. Which commands can be sent at all: what the operands' types do not say. The meanings are total: an ill-formed
command has a meaning too, but no statement has to speak of it.
-/
namespace Sys2Proof.Machine

/-- No entry twice. -/
def noTwice {α : Type} [DecidableEq α] : List α → Bool
  | [] => true
  | x :: xs => !xs.contains x && noTwice xs

/-- A frame carries at most 240 bytes (R521), no tag unless AUTH says so, and a status only in an answer. -/
def Frame.wf (f : Frame) : Bool :=
  decide (f.payload.length ≤ 240) && (f.auth || f.mac == 0) && (f.ans || f.sts == 0)

/-- The frame is of a class and code (R528). -/
def Frame.is (f : Frame) (cls code : Nat) : Bool := f.cls.toNat == cls && f.code.toNat == code

/-- A number that a line of at most 240 characters can hold (R538). -/
def fitsLine (n : Nat) : Bool := decide (n < 16 ^ 236)

/-- A register write goes to a device address (R39): the low or high MMIO region, ECAM or the PRS. -/
def RegPlace.wf : RegPlace → Bool
  | .mem pa =>
    let a := pa.toNat
    (decide (0xC0000000 ≤ a) && decide (a < 0x100000000)) || (decide (0xC000000000000 ≤ a) && decide (a < 0xF000000000000)) ||
      (decide (0xFFE0000000000 ≤ a) && decide (a < 0xFFE0020000000))
  | .sys _ _ => true

/-- A boot configuration sets each field once. -/
def BootCfg.wf (c : BootCfg) : Bool := noTwice (c.fields.map (fun p => p.1))

end Sys2Proof.Machine

namespace Sys2Proof
open Sys2Proof.Machine

/-- The operands of a command are ones that can be sent. -/
def Instr.wf : Instr → Bool
  | .registerWrite p _ _ _ => p.wf
  | .trainingAttemptEnd _ _ bad => noTwice bad
  | .regulatorTrip r => decide (r.toNat < 92)
  | .regulatorSample r _ => decide (r.toNat < 92)
  | .voltageRampDone k => decide (k.toNat < 72)
  | .junctionHot k _ => decide (k.toNat < 72)
  | .junctionFatal k => decide (k.toNat < 72)
  | .meteringInterval u => noTwice (u.map (fun x => (x.core.val, x.mtag.toNat)))
  | .discover f => f.wf && f.is 0 1
  | .announce f => f.wf && f.is 0 2
  | .time f _ => f.wf && f.is 1 1
  | .rlyIdent f => f.all (fun f => f.wf && f.is 3 1 && !f.ans)
  | .rlyStatus f => f.all (fun f => f.wf && f.is 3 2 && !f.ans)
  | .rlyBoot f => f.all (fun f => f.wf && f.is 4 1 && !f.ans)
  | .rlyPowerDown f => f.all (fun f => f.wf && f.is 4 2 && !f.ans)
  | .rlyReset f => f.all (fun f => f.wf && f.is 4 3 && !f.ans)
  | .rlySetLimit f => f.all (fun f => f.wf && f.is 4 4 && !f.ans)
  | .linkdly f => f.all (fun f => f.wf && f.is 4 5 && !f.ans)
  | .leave f => f.all (fun f => f.wf && f.is 4 6 && !f.ans)
  | .rlyMonitor f => f.all (fun f => f.wf && f.is 5 1 && !f.ans)
  | .auth a => (match a with | some (l, r) => fitsLine l && fitsLine r | none => true)
  | .baud n => fitsLine n
  | .log n => fitsLine n
  | .powerdown k => fitsLine k
  | .monReset k => fitsLine k
  | .limit w l => fitsLine w && fitsLine l
  | .cap secs off => secs.all fitsLine && decide (secs.length ≤ 110) && fitsLine off
  | .rd o => fitsLine o
  | .wr o v => fitsLine o && fitsLine v
  | .perf c => fitsLine c
  | .halt c => fitsLine c
  | .go c => fitsLine c
  | .step c => fitsLine c
  | .regs c => fitsLine c
  | .setreg c r v => fitsLine c && fitsLine r && fitsLine v
  | .brk c k va => fitsLine c && fitsLine k && va.all fitsLine
  | .memrd w e a n => fitsLine w && fitsLine e && fitsLine a && fitsLine n
  | .memwr w e a v => fitsLine w && fitsLine e && fitsLine a && fitsLine v
  | .bootChainVerified _ _ cfg => cfg.wf
  | .ringFramePass f => f.wf
  | .strideSlotReceive _ _ x _ => decide (x.msgs.length ≤ 5)
  | .timebaseBell | .timebaseWrap | .coreLoad .. | .coreStore .. | .fence .. | .fenceRetire .. | .ldo ..
  | .sto .. | .swp .. | .cas .. | .fadd .. | .fand .. | .forOp .. | .cas128 .. | .gatheredWriteIssue ..
  | .deviceLoadTimeout .. | .unmappedAccess .. | .nonmemCoherentRefuse .. | .rdshared .. | .rdunique ..
  | .upgrade .. | .rdonce .. | .wrfull .. | .wrpart .. | .wbdirty .. | .evclean .. | .maintcln ..
  | .maintinv .. | .homeAdmit .. | .snpshared .. | .snpunique .. | .snpinv .. | .snpcur .. | .snpcln ..
  | .rspclean .. | .rspclnwb .. | .rspi .. | .rsps .. | .rspifwd .. | .rspsfwd .. | .rspofwd .. | .rspiwb ..
  | .rspswb .. | .rspcurfwd .. | .datas .. | .datae .. | .datam .. | .grante .. | .dataonce .. | .wback ..
  | .wbackstale .. | .evack .. | .wrack .. | .maintack .. | .compack .. | .snoopTimeout ..
  | .suspectWindowExpire .. | .deadAgentSweep .. | .hwPrefetch .. | .l3Evict .. | .l2Evict ..
  | .hmcVictimAccepted .. | .hmcEnable .. | .hmcDisable .. | .hmcInvalidate .. | .hmcDrainDone ..
  | .hmcInvalidateDone .. | .hmcSeedWrite .. | .hmcWaymaskWrite .. | .clean .. | .clinv .. | .zero .. | .prf ..
  | .cacheDataError .. | .tagFatal .. | .crdFlit .. | .meshLinkEccError .. | .requestTimeout ..
  | .pacerRelease .. | .meshPcrWrite .. | .stopDrained .. | .stopDrainTimeout .. | .routerFault ..
  | .markDead .. | .recfgComputeDone | .recfgInstallDone | .recfgDrainEmpty | .recfgDrainTimeout ..
  | .linkSidebandReady .. | .capabilityExchange .. | .trainingAttemptTimeout .. | .widthCheckMsg ..
  | .creditRestoreDone .. | .linkReset .. | .groupClockLoss .. | .wireRepairThreshold ..
  | .linkReplayRequest .. | .linkCreditReturn .. | .retrain .. | .loopback ..
  | .lbStop .. | .mchReadArrive .. | .mchWriteArrive .. | .dramReadReturn .. | .dramReadUncorrectable ..
  | .writeAgeExpire .. | .refreshDue .. | .mr4Poll .. | .rowDisturbRefresh .. | .actTableClear ..
  | .patrolScrub .. | .caParityAlert .. | .writeCrcFail .. | .phyLockLoss .. | .dqsRetune .. | .resume ..
  | .repair .. | .mchFence .. | .resumeDone .. | .repairDone .. | .channelKeyLoad .. | .xcpDeltaArrive ..
  | .parityUpdateArrive .. | .xcpReadHandover .. | .xcpWriteHandover .. | .xcpRebuildLock ..
  | .xcpMemberAnswer .. | .resyncStripe .. | .xcpInit .. | .xcpInitDone | .xcpRebuild .. | .xcpMarkAll ..
  | .deltaLineUncorrectable .. | .xcpCtlWrite .. | .tlbiVa .. | .tlbiVaa .. | .tlbiAsid .. | .tlbiVm ..
  | .tlbiAll .. | .tlblock .. | .tlbunlock .. | .jrinv .. | .syncTlb .. | .syncTlbComplete ..
  | .invalBroadcastArrive .. | .invalTcdDeliver .. | .coreInvalAck .. | .broadcastAck .. | .vmCtlWrite ..
  | .ttRegWrite .. | .tableWalk .. | .vmidPresenceReport .. | .wcall .. | .encCreate .. | .encAdd ..
  | .encSeal .. | .encRemove .. | .encDestroy .. | .encAttest .. | .assign .. | .claim .. | .release ..
  | .dbgSet .. | .claimTimeoutExpire .. | .ownershipCallResume | .ideTlpFail .. | .bmeClear .. | .bmeSet ..
  | .flr .. | .flrComplete .. | .msixEnableSet .. | .msixVectorUnmask .. | .peerPiece .. | .tqeWinLowWrite ..
  | .tqeWinHighWrite .. | .tqeWinFenceRead .. | .tqeWinFenceReturn | .tqeCompletionTimeout ..
  | .tqeAdmInWrite .. | .tqeAdmEndWrite .. | .ringGrant .. | .ringSetup .. | .ringEnable .. | .ringDisable ..
  | .ringReset .. | .fnClass .. | .ringQuery .. | .admAnswerPop .. | .admQueueReset ..
  | .doorbellReadComplete .. | .doorbellRetry .. | .descriptorFetch .. | .moverStart | .copy .. | .fill ..
  | .compare .. | .crc32c .. | .gcmEnc .. | .gcmDec .. | .xtsEnc .. | .xtsDec .. | .peer .. | .nop ..
  | .descriptorCommit .. | .ptrCopyMismatch .. | .moverFifoReset .. | .keyBind .. | .keyPut .. | .keyGen ..
  | .keyUnwrap .. | .keyWrap .. | .keyWrapEngineDone | .keyErase .. | .keyQuery .. | .keyAlarm ..
  | .keyAlarmRearm | .drbgReseed .. | .keySlotError .. | .mbSend .. | .mbInFullClear .. | .instFreeze ..
  | .instSave .. | .instRestore .. | .instResume .. | .dirtyStart .. | .dirtySync .. | .dirtyStop ..
  | .instQuery .. | .wiredSourceLevel .. | .wiredSourceEdge .. | .pirSrcDone .. | .pirSrcWrite ..
  | .msiMessage .. | .mttInvalidate .. | .postedDelivery | .interruptArrive .. | .interruptTake ..
  | .intAckRead .. | .intEoi .. | .intIpi .. | .vipCtlWrite .. | .mbxInWrite .. | .mbxEndWrite ..
  | .mbxDbSetWrite .. | .mbxOutHiRead .. | .mbxDbClear .. | .mbxPtrMismatch .. | .mbxAgeDrop .. | .domOn ..
  | .domOff .. | .domGate .. | .domainPowered .. | .clusPerf .. | .coreOffline .. | .coreOnline ..
  | .setLimit .. | .setRide .. | .pmcQuery .. | .pmcControlInterval .. | .waitForInterrupt .. | .idle2Entry ..
  | .aonSupplyGood | .aonSupplyLoss | .bootRequest | .handoffRun .. | .mainsLoss .. | .mainsReturn
  | .cduReport .. | .batteryReserve | .cduStale | .heatForecast | .railReport .. | .counterWrap ..
  | .splCiWrite .. | .splOpen .. | .splClose .. | .splQuery .. | .errRecordTake | .coalEntryExpire ..
  | .errFifoPop .. | .errRingCiWrite .. | .alarmTokenRefill | .errInternalError | .treeFatal
  | .rlyBypassTimeout | .rlyTestDone .. | .rlyPortFault | .ringFreeze .. | .ringMainsLost ..
  | .orderedSetRepeat .. | .timeHoldover | .monMode | .monIdent | .monStatus | .logout | .monBoot
  | .flushDeadline | .dietest | .photo | .breakpointHit .. | .uartBreak | .monSessionTimeout
  | .monAuthLockoutEnd | .photoPinTrigger | .pfTrigWrite .. | .pfControllersReported | .pfStopTimeout ..
  | .pfIslandsStopped | .coldResetPin | .pgMainRise | .pgMainTimeout | .pgAuxRise .. | .pgAuxTimeout ..
  | .powerGoodFall .. | .hubRstDie .. | .hubRstTqe .. | .dieResetDone | .cxlwinWrite .. | .tapInstruction ..
  | .dramCommandIssue .. | .memoryTrainingDone .. | .rstNRise | .pwrfailNRise | .ringLineBreak ..
  | .keyAlarmWindowExpire => true

end Sys2Proof
end

