-- ==== Sys2Proof/Safety.lean ====
section
/-!
DEFINITION. What counts as a safe run of the package: every step answers a next state, and what waits in the queue can be
sent.
-/
namespace Sys2Proof

/-- The command is one of an island outside AON: it does nothing while the islands are stopped (R499, R500, R547). -/
def Instr.outsideAon : Instr → Bool
  | .registerWrite .. | .coreLoad .. | .coreStore .. | .fence .. | .fenceRetire .. | .ldo .. | .sto .. | .swp .. |
    .cas .. | .fadd .. | .fand .. | .forOp .. | .cas128 .. | .gatheredWriteIssue .. | .deviceLoadTimeout .. |
    .unmappedAccess .. | .nonmemCoherentRefuse .. | .rdshared .. | .rdunique .. | .upgrade .. | .rdonce .. |
    .wrfull .. | .wrpart .. | .wbdirty .. | .evclean .. | .maintcln .. | .maintinv .. | .homeAdmit .. |
    .snpshared .. | .snpunique .. | .snpinv .. | .snpcur .. | .snpcln .. | .rspclean .. | .rspclnwb .. | .rspi .. |
    .rsps .. | .rspifwd .. | .rspsfwd .. | .rspofwd .. | .rspiwb .. | .rspswb .. | .rspcurfwd .. | .datas .. |
    .datae .. | .datam .. | .grante .. | .dataonce .. | .wback .. | .wbackstale .. | .evack .. | .wrack .. |
    .maintack .. | .compack .. | .snoopTimeout .. | .suspectWindowExpire .. | .deadAgentSweep .. | .hwPrefetch .. |
    .l3Evict .. | .l2Evict .. | .hmcVictimAccepted .. | .hmcEnable .. | .hmcDisable .. | .hmcInvalidate .. |
    .hmcDrainDone .. | .hmcInvalidateDone .. | .hmcSeedWrite .. | .hmcWaymaskWrite .. | .clean .. | .clinv .. |
    .zero .. | .prf .. | .cacheDataError .. | .tagFatal .. | .crdFlit .. | .meshLinkEccError .. | .requestTimeout ..
    | .pacerRelease .. | .meshPcrWrite .. | .stopDrained .. | .stopDrainTimeout .. | .routerFault .. | .markDead ..
    | .recfgComputeDone .. | .recfgInstallDone .. | .recfgDrainEmpty .. | .recfgDrainTimeout .. |
    .linkSidebandReady .. | .capabilityExchange .. | .trainingAttemptEnd .. | .trainingAttemptTimeout .. |
    .widthCheckMsg .. | .creditRestoreDone .. | .linkReset .. | .groupClockLoss .. | .wireRepairThreshold .. |
    .strideSlotReceive .. | .linkReplayRequest .. | .linkCreditReturn .. | .retrain .. | .loopback .. | .lbStop .. |
    .mchReadArrive .. | .mchWriteArrive .. | .dramReadReturn .. | .dramReadUncorrectable .. | .writeAgeExpire .. |
    .refreshDue .. | .mr4Poll .. | .rowDisturbRefresh .. | .actTableClear .. | .patrolScrub .. | .caParityAlert .. |
    .writeCrcFail .. | .phyLockLoss .. | .dqsRetune .. | .resume .. | .repair .. | .mchFence .. | .resumeDone .. |
    .repairDone .. | .channelKeyLoad .. | .xcpDeltaArrive .. | .parityUpdateArrive .. | .xcpReadHandover .. |
    .xcpWriteHandover .. | .xcpRebuildLock .. | .xcpMemberAnswer .. | .resyncStripe .. | .xcpInit .. |
    .xcpInitDone .. | .xcpRebuild .. | .xcpMarkAll .. | .deltaLineUncorrectable .. | .xcpCtlWrite .. | .tlbiVa .. |
    .tlbiVaa .. | .tlbiAsid .. | .tlbiVm .. | .tlbiAll .. | .tlblock .. | .tlbunlock .. | .jrinv .. | .syncTlb .. |
    .syncTlbComplete .. | .invalBroadcastArrive .. | .invalTcdDeliver .. | .coreInvalAck .. | .broadcastAck .. |
    .vmCtlWrite .. | .ttRegWrite .. | .tableWalk .. | .vmidPresenceReport .. | .wcall .. | .bmeClear .. | .bmeSet ..
    | .flr .. | .flrComplete .. | .msixEnableSet .. | .msixVectorUnmask .. | .peerPiece .. | .tqeWinLowWrite .. |
    .tqeWinHighWrite .. | .tqeWinFenceRead .. | .tqeWinFenceReturn .. | .tqeCompletionTimeout .. | .tqeAdmInWrite ..
    | .tqeAdmEndWrite .. | .ringGrant .. | .ringSetup .. | .ringEnable .. | .ringDisable .. | .ringReset .. |
    .fnClass .. | .ringQuery .. | .admAnswerPop .. | .admQueueReset .. | .doorbellReadComplete .. |
    .doorbellRetry .. | .descriptorFetch .. | .moverStart .. | .copy .. | .fill .. | .compare .. | .crc32c .. |
    .gcmEnc .. | .gcmDec .. | .xtsEnc .. | .xtsDec .. | .peer .. | .nop .. | .descriptorCommit .. |
    .ptrCopyMismatch .. | .moverFifoReset .. | .keyBind .. | .keyPut .. | .keyGen .. | .keyUnwrap .. | .keyWrap .. |
    .keyWrapEngineDone .. | .keyErase .. | .keyQuery .. | .keyAlarm .. | .keyAlarmRearm .. | .keySlotError .. |
    .mbSend .. | .mbInFullClear .. | .instFreeze .. | .instSave .. | .instRestore .. | .instResume .. |
    .dirtyStart .. | .dirtySync .. | .dirtyStop .. | .instQuery .. | .wiredSourceLevel .. | .wiredSourceEdge .. |
    .pirSrcDone .. | .pirSrcWrite .. | .msiMessage .. | .mttInvalidate .. | .postedDelivery .. | .interruptArrive ..
    | .interruptTake .. | .intAckRead .. | .intEoi .. | .intIpi .. | .vipCtlWrite .. | .mbxInWrite .. |
    .mbxEndWrite .. | .mbxDbSetWrite .. | .mbxOutHiRead .. | .mbxDbClear .. | .mbxPtrMismatch .. | .mbxAgeDrop .. |
    .waitForInterrupt .. | .idle2Entry .. | .handoffRun .. | .counterWrap .. | .meteringInterval .. | .splCiWrite ..
    | .splOpen .. | .splClose .. | .splQuery .. | .errFifoPop .. | .errRingCiWrite .. | .errInternalError .. |
    .treeFatal .. | .breakpointHit .. | .pfTrigWrite .. | .pgAuxTimeout .. | .hubRstDie .. | .hubRstTqe .. |
    .dieResetDone .. | .cxlwinWrite .. | .dramCommandIssue .. | .keyAlarmWindowExpire .. => true
  | .timebaseBell .. | .timebaseWrap .. | .regulatorTrip .. | .regulatorSample .. | .encCreate .. | .encAdd .. |
    .encSeal .. | .encRemove .. | .encDestroy .. | .encAttest .. | .assign .. | .claim .. | .release .. | .dbgSet ..
    | .claimTimeoutExpire .. | .ownershipCallResume .. | .ideTlpFail .. | .drbgReseed .. | .domOn .. | .domOff .. |
    .domGate .. | .domainPowered .. | .clusPerf .. | .coreOffline .. | .coreOnline .. | .setLimit .. | .setRide .. |
    .pmcQuery .. | .pmcControlInterval .. | .voltageRampDone .. | .aonSupplyGood .. | .aonSupplyLoss .. |
    .bootRequest .. | .mainsLoss .. | .mainsReturn .. | .batteryReserve .. | .cduReport .. | .cduStale .. |
    .junctionHot .. | .junctionFatal .. | .heatForecast .. | .railReport .. | .errRecordTake .. |
    .coalEntryExpire .. | .alarmTokenRefill .. | .rlyBypassTimeout .. | .rlyTestDone .. | .rlyPortFault .. |
    .ringFreeze .. | .ringMainsLost .. | .orderedSetRepeat .. | .discover .. | .announce .. | .time .. |
    .timeHoldover .. | .rlyIdent .. | .rlyStatus .. | .rlyBoot .. | .rlyPowerDown .. | .rlyReset .. |
    .rlySetLimit .. | .linkdly .. | .leave .. | .rlyMonitor .. | .monMode .. | .monIdent .. | .monStatus .. |
    .auth .. | .logout .. | .baud .. | .log .. | .monBoot .. | .powerdown .. | .monReset .. | .flushDeadline .. |
    .limit .. | .dietest .. | .photo .. | .cap .. | .rd .. | .wr .. | .perf .. | .halt .. | .go .. | .step .. |
    .regs .. | .setreg .. | .brk .. | .memrd .. | .memwr .. | .uartBreak .. | .monSessionTimeout .. |
    .monAuthLockoutEnd .. | .photoPinTrigger .. | .pfControllersReported .. | .pfStopTimeout .. |
    .pfIslandsStopped .. | .coldResetPin .. | .pgMainRise .. | .pgMainTimeout .. | .pgAuxRise .. | .powerGoodFall ..
    | .tapInstruction .. | .memoryTrainingDone .. | .bootChainVerified .. | .rstNRise .. | .pwrfailNRise .. |
    .ringFramePass .. | .ringLineBreak .. => false

end Sys2Proof

namespace Sys2Proof.Machine

/-- Every command that waits can be sent. -/
def State.queueOk (s : State) : Prop := ∀ c ∈ s.pending, c.wf = true

/-- A run of n steps ends in no fault and no refusal. -/
def State.runsOn (s : State) (n : Nat) : Prop := ∃ t, Sys2Proof.core.run n s = .next t

/-- A safe state: it runs on for ever. -/
def State.safe (s : State) : Prop := ∀ n, s.runsOn n

/-- What a package sends on when a frame reaches it: the last frame that leaves its port, if one does. -/
def State.sentOn (s t : State) : Option Frame :=
  match (t.rly.out.drop s.rly.out.length).getLast? with
  | some (.frame f) => some f
  | _ => none

/-- A DISCOVER goes round a ring: each package in its order takes the frame that the one before it has sent on (R524). The
packages afterwards, and the frame that leaves the last one. -/
def discoverRing : List State → Frame → List State × Option Frame
  | [], f => ([], some f)
  | s :: ring, f =>
    let t := s.discover f
    match s.sentOn t with
    | some g =>
      let r := discoverRing ring g
      (t :: r.1, r.2)
    | none => (t :: ring, none)

/-- The monitor command that a row sends from the UART; none for every other row. -/
def monCmdOf : Instr → Option MonCmd
  | .monMode => some .mode
  | .monIdent => some .ident
  | .monStatus => some .status
  | .auth a => some (.auth a)
  | .logout => some .logout
  | .baud n => some (.baud n)
  | .log n => some (.log n)
  | .monBoot => some .boot
  | .powerdown k => some (.powerdown k)
  | .monReset k => some (.reset k)
  | .limit w l => some (.limit w l)
  | .dietest => some .dietest
  | .photo => some .photo
  | .cap secs off => some (.cap secs off)
  | .rd off => some (.rd off)
  | .wr off v => some (.wr off v)
  | .perf c => some (.perf c)
  | .halt c => some (.halt c)
  | .go c => some (.go c)
  | .step c => some (.step c)
  | .regs c => some (.regs c)
  | .setreg c r v => some (.setreg c r v)
  | .brk c k v => some (.brk c k v)
  | .memrd w e a n => some (.memrd w e a n)
  | .memwr w e a v => some (.memwr w e a v)
  | _ => none

/-- The monitor is ready for a line from the UART: it has power, and no line, answer or readout is in its way. -/
def State.monReady (s : State) : Prop := s.pkgMode ≠ 0 ∧ s.mon.cap = none ∧ s.mon.lines = [] ∧ s.mon.mbOut = []

end Sys2Proof.Machine
end

