-- ==== Sys2Proof/Certificates/Slice0/Obligations.lean ====
section
/-!
DEFINITION. The statements for the provers: what a step does, what each command answers, and the spec's numbered rules over
all states and operands.
-/
open Sys2Proof Sys2Proof.Machine

/-- With a command waiting, a step is exec of the front command on the package with the queue's rest; with none, it is one cycle
of the package, which leaves the queue empty (the model's choice, assumption 2). -/
def Obligations.StepRunsTheFrontCommand : Prop :=
  ∀ s : State,
    (∀ (c : Instr) (rest : List Instr), s.pending = c :: rest → step s = exec c { s with pending := rest }) ∧
    (s.pending = [] → step s = .next { s.tick with pending := [] })

/-- Every step keeps the queue sound: if every command that waits can be sent, then so it is after any step, and the step has
taken exactly the front command out of the queue. -/
def Obligations.QueueStaysSound : Prop :=
  ∀ s t : State, s.queueOk → step s = .next t → t.queueOk ∧ t.pending = s.pending.tail

/-- No command stops the package: every state runs on for any number of steps with neither a fault nor a refusal. -/
def Obligations.PackageNeverStops : Prop := ∀ s : State, s.safe

/-- In OFF, and in PHOTO and QUARANTINE but for the flush of a reset, the islands outside AON are stopped: a queue that holds
only commands of those islands runs empty and leaves the whole package as it was. -/
def Obligations.FrozenPackageStays : Prop :=
  ∀ s : State, s.stopped = true → (∀ c ∈ s.pending, c.outsideAon = true) →
    Sys2Proof.core.run s.pending.length s = .next { s with pending := [] }

/-- What cold reset leaves (the model's reset state, assumption 9): no command waits, so the queue is sound; STANDBY, every slot of an agent ABSENT, both HMC halves OFF, no ownership check, no memory written, no
directory entry, no line in the HMC or in an L3, no enclave, no ring, an empty error FIFO, the hub's five domains and every
die OFF, and the relay port in its loop-back test without a position. -/
def Obligations.ResetLeavesStandby : Prop :=
  State.reset.queueOk ∧ State.reset.pending = [] ∧
  State.reset.pkgMode = 1 ∧ (∀ a < 13, State.reset.agentState a = 3) ∧
  State.reset.rd HMC_STATE.STATE_N = 0 ∧ State.reset.rd HMC_STATE.STATE_S = 0 ∧ State.reset.rd OWN_CTL.EN = 0 ∧
  (∀ line, State.reset.cell line = memUnwritten) ∧ (∀ h set way, State.reset.dirAt h set way = none) ∧
  (∀ h set way, State.reset.hmcWay h set way = none) ∧ (∀ t line, State.reset.l3At t line = none) ∧
  (∀ e, State.reset.encl e = none) ∧ State.reset.err.fifo = [] ∧ State.reset.rd ERR_FIFO_STS.COUNT = 0 ∧
  (∀ d < 20, State.reset.rd (PMC_DOM.STATE d) = 0) ∧
  State.reset.rd RLY_POS.STATE = 1 ∧ State.reset.rd RLY_POS.POS = 0 ∧ State.reset.stopped = false

/-- What a write of a whole 64-bit register does to a field, by the field's type: RW takes the value, RO and WO do nothing here,
W1C clears the bits written as 1, W1S sets them, a count takes zero only; every other field keeps its value. -/
def Obligations.FieldsFollowTheirTypes : Prop :=
  ∀ (s : State) (a v : Nat) (f : FieldD), 0 < f.w → f.lo + f.w ≤ 64 →
    let t := s.fieldWrite a false [] 0 64 v f
    let x := f.at a
    let c := v / 2 ^ f.lo % 2 ^ f.w
    (f.ty = .rw → f.allows c = true → t.rd x = c) ∧
    (f.ty = .rw → f.allows c = false → t = s) ∧
    (f.ty = .rwl → f.allows c = true → t.rd x = c ∧ s.fieldWrite a true [] 0 64 v f = s) ∧
    (f.ty = .ro ∨ f.ty = .wo → t = s) ∧
    (f.ty = .w1c → ∀ n, (t.rd x).testBit n = (decide (n < f.w) && (s.rd x).testBit n && !c.testBit n)) ∧
    (f.ty = .w1s → ∀ n, (t.rd x).testBit n = (decide (n < f.w) && ((s.rd x).testBit n || c.testBit n))) ∧
    (f.ty = .cnt → (c = 0 → t.rd x = 0) ∧ (c ≠ 0 → t = s)) ∧
    (∀ g : Fld, g.key ≠ x.key → t.rd g = s.rd g)

/-- An event of a status flag sets the flag and counts one in its count, which stops at all ones; nothing else of the register
file changes, and no other state does. -/
def Obligations.FlagEventsSetAndCount : Prop :=
  ∀ (s : State) (g : Flag), g.bit.w = 1 → g.cnt.w = 16 → g.bit.key ≠ g.cnt.key → s.rd g.cnt < 65536 →
    (s.raise g).rd g.bit = 1 ∧
    (s.raise g).rd g.cnt = (if s.rd g.cnt = 0xFFFF then 0xFFFF else s.rd g.cnt + 1) ∧
    (∀ f : Fld, f.key ≠ g.bit.key → f.key ≠ g.cnt.key → (s.raise g).rd f = s.rd f) ∧
    s.raise g = { s with regs := (s.raise g).regs }

/-- Serial-number comparison of N-bit numbers: of two different numbers exactly one order holds, and at a distance of half the
range each is older than the other. -/
def Obligations.SerialNumbersAreOrdered : Prop :=
  ∀ n a b : Nat, 0 < n → a < 2 ^ n → b < 2 ^ n →
    (serialNewer n a b = true ↔ ∃ d, 0 < d ∧ d < 2 ^ (n - 1) ∧ (b + d) % 2 ^ n = a) ∧
    (serialOlder n a b = true ↔ a ≠ b ∧ serialNewer n a b = false) ∧
    (serialNewer n a b = true → serialOlder n b a = true) ∧
    ((b + 2 ^ (n - 1)) % 2 ^ n = a → serialOlder n a b = true ∧ serialOlder n b a = true)

/-- A number that hardware advances k times from zero, with its lap counter from zero: it holds k mod 2^N, the laps are counted
up to 0xFFFF, and LAP_SAT is set exactly when a lap could not be counted. -/
def Obligations.NumbersCountTheirLaps : Prop :=
  ∀ (s : State) (num lap sat : Fld) (bell : Flag) (k : Nat),
    [num.key, lap.key, sat.key, bell.bit.key, bell.cnt.key].Nodup → 1 ≤ num.w → lap.w = 16 → sat.w = 1 →
    s.rd num = 0 → s.rd lap = 0 → s.rd sat = 0 →
    let t := (fun u : State => u.advance num lap sat bell)^[k] s
    t.rd num = k % 2 ^ num.w ∧ t.rd lap = min (k / 2 ^ num.w) 0xFFFF ∧
    t.rd sat = (if 0xFFFF < k / 2 ^ num.w then 1 else 0)

/-- The bell of a hardware number of N bits, with T = 7 x 2^N / 8 rounded down: an advance that moves the number from below T to T
or above, and an advance that wraps it to zero, each set the bell and count one, up to all ones; no other advance touches the
bell or its count; T is 3 for 2 bits and exactly seven eighths of the range for 3 or more. -/
def Obligations.BellRingsTwicePerLap : Prop :=
  ∀ (s : State) (num lap sat : Fld) (bell : Flag),
    [num.key, lap.key, sat.key, bell.bit.key, bell.cnt.key].Nodup → bell.bit.w = 1 → bell.cnt.w = 16 →
    s.rd num < 2 ^ num.w → s.rd bell.cnt < 65536 →
    let t := s.advance num lap sat bell
    let T := 7 * 2 ^ num.w / 8
    (s.rd num < T ∧ T ≤ t.rd num ∨ s.rd num = 2 ^ num.w - 1 ∧ 0 < num.w →
      t.rd bell.bit = 1 ∧ t.rd bell.cnt = min (s.rd bell.cnt + 1) 0xFFFF) ∧
    (¬ (s.rd num < T ∧ T ≤ t.rd num) → s.rd num ≠ 2 ^ num.w - 1 →
      t.rd bell.bit = s.rd bell.bit ∧ t.rd bell.cnt = s.rd bell.cnt) ∧
    (num.w = 2 → T = 3) ∧ (3 ≤ num.w → 8 * T = 7 * 2 ^ num.w)

/-- The timebase: its bell rings when it reaches seven eighths of its range and again at its wrap to zero, which counts a lap or,
with the lap counter full, sets LAP_SAT; each ring counts one. Nothing else changes but that PIR source 55 follows the bell. -/
def Obligations.TimebaseBellAndWrap : Prop :=
  ∀ s : State,
    (s.now.toNat < 0xE000000000000000 → exec .timebaseBell s =
      .next { State.srcSync { s with
          now := 0xE000000000000000#64
          tb := { s.tb with bell := true, count := min (s.tb.count + 1) 0xFFFF } } 55 with pending := s.pending }) ∧
    (∃ u : State, exec .timebaseWrap s = .next { u.srcSync 55 with pending := s.pending } ∧
      u = { s with now := 0#64, tb := u.tb } ∧ u.tb.bell = true ∧
      (s.tb.lap = 0xFFFF → u.tb.lap = 0xFFFF ∧ u.tb.sat = true) ∧
      (s.tb.lap ≠ 0xFFFF → u.tb.lap = s.tb.lap + 1 ∧ u.tb.sat = s.tb.sat) ∧
      (0xE000000000000000 ≤ s.now.toNat → u.tb.count = min (s.tb.count + 1) 0xFFFF))

/-- The home hash: every line has a home from 0 to 31, the hash is linear in the line address under exclusive or, and bit k of the
line address flips bit k mod 5 of the home and no other. -/
def Obligations.HomeHashSpreadsLines : Prop :=
  (∀ line : Nat, homeOf line < 32) ∧
  (∀ line k : Nat, k < 46 →
    homeOf (line ^^^ 2 ^ k) = homeOf line ^^^ 2 ^ (k % 5)) ∧
  (∀ a b : Nat, homeOf (a ^^^ b) = homeOf a ^^^ homeOf b)

/-- The HMC's LFSR: its step is the shift of the rule, a seeded register never becomes zero, and no two states have one
successor. -/
def Obligations.LfsrStepsAndNeverDies : Prop :=
  (∀ v : BitVec 32, lfsrStep v.toNat =
    ((v <<< 1) ||| (BitVec.ofBool ((v.getLsbD 31 ^^ v.getLsbD 21) ^^ (v.getLsbD 1 ^^ v.getLsbD 0))).setWidth 32).toNat) ∧
  (∀ v : Nat, 0 < v → v < 2 ^ 32 → 0 < lfsrStep v) ∧
  (∀ v w : Nat, v < 2 ^ 32 → w < 2 ^ 32 → lfsrStep v = lfsrStep w → v = w)

/-- The way that a class's line takes: none when every allowed way holds a locked line; the lowest invalid way of the allowed
set where it has one; else the way at position (v x k) >> 16 among the k allowed ways, counted from the lowest. -/
def Obligations.VictimWayIsInTheMask : Prop :=
  ∀ (s : State) (h set mask : Nat),
    let a := s.freeWays h set mask
    (a = [] → s.hmcChoose h set mask = none) ∧
    (∀ w ∈ a, s.hmcWay h set w = none → (∀ x ∈ a, x < w → s.hmcWay h set x ≠ none) → s.hmcChoose h set mask = some w) ∧
    (a ≠ [] → (∀ w ∈ a, s.hmcWay h set w ≠ none) → s.hmcChoose h set mask = a[s.lfsr16 h * a.length / 65536]?) ∧
    (a ≠ [] → ∃ w ∈ a, s.hmcChoose h set mask = some w ∧ mask.testBit w = true ∧ w < 16) ∧
    a.Pairwise (· < ·)

/-- An L2 eviction tells the L3, which clears the core's presence bit and keeps its copy in the state it had; the line has then left
the core's L2 and L1 caches; it sends nothing, and no other line, no other cache, no memory and no register changes. -/
def Obligations.L2EvictionStaysInTheDie : Prop :=
  ∀ (s : State) (c : Core) (line : LineAddr), s.stopped = false →
    ∃ t : State, exec (.l2Evict c line) s = .next t ∧ t = { s with l3 := t.l3, arrs := t.arrs } ∧
      (∀ (d l : Nat), (d ≠ dieOf c.val ∨ l ≠ line.toNat) → l < 2 ^ 46 → t.l3At d l = s.l3At d l) ∧
      (∀ k, k ≠ coreArr c.val 0 → k ≠ coreArr c.val 1 → k ≠ coreArr c.val 2 → t.arr k = s.arr k) ∧
      (s.l3At (dieOf c.val) line.toNat = none → t = s) ∧
      (∀ x, s.l3At (dieOf c.val) line.toNat = some x → ∃ y, t.l3At (dieOf c.val) line.toNat = some y ∧
        y.st = x.st ∧ y.data = x.data ∧ hasBit y.pres (c.val % 24) = false ∧
        (∀ k < 24, k ≠ c.val % 24 → hasBit y.pres k = hasBit x.pres k) ∧
        ∀ a, t.arrHas c.val a line.toNat = false)

/-- Memory keeps what is written: a line written under an enclave reads back as written under the same enclave while its key is
the same; every other line, and every register, is as before; a CXL line reads back under every enclave; and the memory's
canonical form is kept. -/
def Obligations.MemoryKeepsWhatIsWritten : Prop :=
  ∀ (s : State) (line enc : Nat) (d : LineData) (psn : Bool),
    let t := s.memWrite line d psn enc
    t.memData line enc = d ∧ (t.cell line).poison = psn ∧
    (isCxlLine line = true → ∀ e, t.memData line e = d) ∧
    (∀ l e, l ≠ line → t.memData l e = s.memData l e ∧ t.cell l = s.cell l) ∧
    t = { s with mem := t.mem } ∧
    (Memory.wf s.mem = true → Memory.wf t.mem = true)

/-- The ownership check: with OWN_CTL.EN 0 everything passes; with it 1, OPEN memory passes for ENC 0 in either world, OWNED
memory only for the world and enclave of its entry, and nothing passes for a LOCKED or an unusable entry. -/
def Obligations.OwnershipCheckFollowsTheTable : Prop :=
  ∀ (s : State) (line enc : Nat) (w : Bool),
    (s.rd OWN_CTL.EN = 0 → s.ownPass line w enc = true) ∧
    (s.rd OWN_CTL.EN ≠ 0 →
      ((s.mot line).kind = .open_ → (s.ownPass line w enc = true ↔ enc = 0)) ∧
      ((s.mot line).kind = .owned → (s.ownPass line w enc = true ↔ w = (s.mot line).world ∧ enc = (s.mot line).enc)) ∧
      ((s.mot line).kind = .locked ∨ (s.mot line).kind = .bad → s.ownPass line w enc = false) ∧
      ((s.mot line).kind = .owned → (s.mot line).enc = 0 → (s.mot line).world = true) ∧
      (s.motIndex (line / 32768) = none → (s.mot line).kind = .bad))

/-- A transaction that the check refuses touches nothing at its home: the directory, the HMC and memory are as before, the read
is answered with the refusal pattern and the write acknowledged with its data dropped, and the refusal is flagged and logged. -/
def Obligations.RefusedRequestTouchesNothing : Prop :=
  ∀ (s : State) (h : Slice) (m : Msg),
    s.populated (m.line.toNat * 64) = true → s.ownPass m.line.toNat m.attr.world m.attr.enc.toNat = false →
    m.opc ∈ [Opc.rdShared, .rdUnique, .rdOnce, .wrFull, .wrPart, .maintCln, .maintInv] →
    let t := s.admitMsg h.val m
    t.dir = s.dir ∧ t.hmc = s.hmc ∧ t.mem = s.mem ∧ t.l3 = s.l3 ∧ t.homes = s.homes ∧
    (∃ u : State, t = u.answer m (if m.opc.isWrite then ackOf m.opc else .dataOnce) 0
      (if m.opc.isWrite then 0 else refusalLine) false ∧
      u.rd OWN_LOG.LINE = m.line.toNat % 2 ^ OWN_LOG.LINE.w ∧ u.rd OWN_LOG.ENC = m.attr.enc.toNat % 2 ^ OWN_LOG.ENC.w ∧
      u.rd (if m.opc.isWrite then OWN_STS.fREFUSE_WR else OWN_STS.fREFUSE_RD).bit = 1)

/-- The debug policy: an operation is allowed for a world exactly when that world's enable is 1, where INV implies NI, and for an
enclave also only when the enclave was created with DEBUG. -/
def Obligations.DebugPolicyTable : Prop :=
  ∀ (s : State) (w : Bool) (e : Nat),
    let inv := s.rd (if w then DBG_POLICY.INV_S else DBG_POLICY.INV_N) ≠ 0
    let ni := s.rd (if w then DBG_POLICY.NI_S else DBG_POLICY.NI_N) ≠ 0
    let debug := ∃ x, s.encl e = some x ∧ x.debug = true
    (s.dbgAllowed true w e = true ↔ inv ∧ (e = 0 ∨ debug)) ∧
    (s.dbgAllowed false w e = true ↔ (inv ∨ ni) ∧ (e = 0 ∨ debug)) ∧
    (s.dbgAllowed true w e = true → s.dbgAllowed false w e = true)

/-- Claims: CLAIM and RELEASE change exactly the bit of their domain in SEP_CLAIMS, and while a domain is claimed a request of the
Normal world to switch it off or to gate it is deferred and held, and nothing else happens to the domain. -/
def Obligations.ClaimsBindTheNormalWorld : Prop :=
  (∀ (s : State) (c : SepCall), c.world = true → c.enc = 0 → c.bad 1 = false → c.w 1 < 22 → s.rd SEP_CLAIMS.CLAIMED < 2 ^ 22 →
    s.noHbm (c.w 1) = false → s.domOn (c.w 1) = true → s.claimed (c.w 1) = false →
    (s.claimCall c).2 = (OK, 0) ∧ ∀ d < 22, (s.claimCall c).1.claimed d = (s.claimed d || d == c.w 1)) ∧
  (∀ (s : State) (c : PmcCall) (code : Nat), code = 2 ∨ code = 3 → s.domCheck code c = OK → s.claimed c.target = true →
    (c.secure = false → (s.domReq code c).2 = some (DEFERRED, 0) ∧
      (s.domReq code c).1.rd (PMC_DOM.STATE c.target) = s.rd (PMC_DOM.STATE c.target) ∧
      (s.domReq code c).1.rd (PMC_DOM.HELD c.target) = 1) ∧
    (c.secure = true → (s.domReq code c).2 = none))

/-- While stage 1 is off, translation is the identity: with stage 2 off too every address is taken as it is, as NORM-WB in a
memory region and as DEV-S elsewhere, for every access and with no walk; with stage 2 on, stage 2 decides alone. -/
def Obligations.TranslationOffIsIdentity : Prop :=
  ∀ (s : State) (c va acc : Nat), s.rd (TT_CTL.EN c) = 0 →
    let ty := if (regionOf va).isMem then 3 else 0
    s.translate c va acc = s.stage2 c acc va ty ∧
    (s.rd (VM_CTL.S2EN c) = 0 → s.translate c va acc = .ok ⟨va, ty, 0⟩)

/-- What a leaf allows: an access is allowed exactly when A is 1 and the table's line for it holds; where A is 0 the cause is
ACCESS, where only D is missing it is DIRTY, and otherwise PERM. Accesses are 0 load, 1 store, 2 fetch. -/
def Obligations.LeafPermissionTable : Prop :=
  ∀ (perm : Nat) (l : Lvl),
    let b (i : Nat) : Bool := perm.testBit i
    let load := l = .u → b 6 = true
    (b 1 = false → ∀ acc, leafCheck perm acc l = some 0x03) ∧
    (b 1 = true →
      (leafCheck perm 0 l = none ↔ load) ∧
      (leafCheck perm 1 l = none ↔ load ∧ b 5 = true ∧ b 0 = true) ∧
      (leafCheck perm 1 l = some 0x05 ↔ load ∧ b 5 = true ∧ b 0 = false) ∧
      (leafCheck perm 2 .u = none ↔ b 6 = true ∧ b 4 = false) ∧
      (leafCheck perm 2 .s = none ↔ b 6 = false ∧ b 3 = false) ∧
      (∀ acc, leafCheck perm acc l = none ∨ leafCheck perm acc l = some 0x04 ∨ leafCheck perm acc l = some 0x05))

/-- The state in which a core starts: at W in the Secure world, at the given address, every system register of the core at its
reset value but for the world, with no translation cached and stage 1 off; the other cores are as before. -/
def Obligations.CoreStartState : Prop :=
  ∀ (s : State) (c pc : Nat), c < 288 →
    let t := s.coreStart c pc
    (t.core c).lvl = .w ∧ (t.core c).pc = pc ∧ (t.core c).online = true ∧ t.rd (WCTL.WORLD c) = 1 ∧
    (t.core c).tlb = [] ∧ (t.core c).win = [] ∧ t.rd (TT_CTL.EN c) = 0 ∧ t.rd (VM_CTL.S2EN c) = 0 ∧
    (∀ f : Fld, 64 * (2 ^ 32 + c * 0x10000) ≤ f.key → f.key < 64 * (2 ^ 32 + (c + 1) * 0x10000) →
      f.key ≠ (WCTL.WORLD c).key → t.rd f = f.rst) ∧
    (∀ k, k ≠ c → t.core k = s.core k)

/-- What a pacer charges: the level falls by the full cost, but not below -4096 tokens; only a charge beyond that floor raises
CLAMP, and the LEVEL field shows the level rounded down to whole tokens. -/
def Obligations.PacerChargesDownToTheFloor : Prop :=
  ∀ (s : State) (p c cost : Nat), p < 15 → c < 16 → s.rd (MESH_PCR.EN p c) ≠ 0 →
    let t := s.charge p c cost
    let l := s.level p c - 1024 * (cost : Int)
    t.level p c = max l (-4194304) ∧
    (-4194304 ≤ l → t.rd MESH_STS.CLAMP = s.rd MESH_STS.CLAMP) ∧
    (l < -4194304 → t.rd MESH_STS.CLAMP = 1) ∧
    t.rd (MESH_PCR.LEVEL p c) = ((max l (-4194304)) / 1024 % 16384).toNat % 2 ^ (MESH_PCR.LEVEL p c).w ∧
    (∀ q k, q < 15 → k < 16 → (q, k) ≠ (p, c) → t.level q k = s.level q k)

/-- The phases of a reconfiguration: COMPUTE, INSTALL, DRAIN and ISOLATE in this order, each moved on by its own event and by no
other; INSTALL advances the epoch by one and takes the computed routes, and the end of DRAIN, with every flit of the old epoch
out of the routers, isolates the dead router. A cycle later (assumption 67) the reconfiguration ends, or the next router's
starts where one waits. -/
def Obligations.ReconfigurationPhases : Prop :=
  ∀ s : State, s.stopped = false →
    (s.rd MESH_RECFG_STS.PHASE = 1 →
      exec .recfgComputeDone s = .next (s.wr MESH_RECFG_STS.PHASE 2) ∧ exec .recfgInstallDone s = .next s ∧
      exec .recfgDrainEmpty s = .next s) ∧
    (s.rd MESH_RECFG_STS.PHASE = 2 → exec .recfgComputeDone s = .next s ∧ exec .recfgDrainEmpty s = .next s ∧
      ∃ t : State, exec .recfgInstallDone s = .next t ∧ t.rd MESH_RECFG_STS.PHASE = 3 ∧
        t.rd MESH_EPOCH.EPOCH = (s.rd MESH_EPOCH.EPOCH + 1) % 65536 ∧ t.mesh = { s.mesh with mask := s.mesh.spare }) ∧
    (s.rd MESH_RECFG_STS.PHASE = 3 → exec .recfgComputeDone s = .next s ∧ exec .recfgInstallDone s = .next s ∧
      ∃ t : State, exec .recfgDrainEmpty s = .next t ∧ t.rd MESH_RECFG_STS.PHASE = 4 ∧ (∀ f ∈ t.mesh.net, t.oldFlit f = false) ∧
        t.mesh.net.map (fun f => f.load) = s.mesh.net.map (fun f => f.load) ∧ t = { s with mesh := t.mesh, regs := t.regs }) ∧
    (s.rd MESH_RECFG_STS.PHASE = 4 → exec .recfgComputeDone s = .next s ∧ exec .recfgInstallDone s = .next s ∧
      exec .recfgDrainEmpty s = .next s ∧
      (s.mesh.toMark = [] → s.recfgEnd = (s.wr MESH_RECFG_STS.PHASE 0).wr MESH_RECFG_STS.BUSY 0) ∧
      (∀ r rs, s.mesh.toMark = r :: rs → s.recfgEnd.rd MESH_RECFG_STS.PHASE = 1 ∧
        s.recfgEnd.rd MESH_RECFG_STS.ROUTER = r % 2 ^ MESH_RECFG_STS.ROUTER.w ∧ s.recfgEnd.mesh.toMark = rs))

/-- The commands of a link, from a sender that may give them: RETRAIN runs only on an ACTIVE link, LOOPBACK only on a link that is
DOWN in DIETEST, LB_STOP only in LOOPBACK; anywhere else the answer is ESTATE, and the link's state stays. -/
def Obligations.LinkCommandsNeedTheirState : Prop :=
  ∀ (s : State) (t : Tcd) (d : Dev), s.stopped = false → d.attr.enc = 0 →
    (∃ u : State, exec (.retrain t d) s = .next u ∧
      (s.linkState t.val = 2 → u.linkState t.val = 3 ∧ u.rd (STR_STATE.HOLD t.val) = 1 ∧
        u.rd (STR_STATE.LAST_STS t.val) = OK) ∧
      (s.linkState t.val ≠ 2 → u.linkState t.val = s.linkState t.val ∧ u.rd (STR_STATE.LAST_STS t.val) = ESTATE ∧
        u.links = s.links)) ∧
    (∀ pattern point, pattern.toNat ≤ 2 → point.toNat ≤ 1 → ∃ u : State, exec (.loopback t pattern point d) s = .next u ∧
      (s.pkgMode = 7 ∧ s.linkState t.val = 0 → u.linkState t.val = 5 ∧ u.rd (STR_STATE.LAST_STS t.val) = OK) ∧
      (¬ (s.pkgMode = 7 ∧ s.linkState t.val = 0) → u.linkState t.val = s.linkState t.val ∧
        u.rd (STR_STATE.LAST_STS t.val) = ESTATE)) ∧
    (∃ u : State, exec (.lbStop t d) s = .next u ∧
      (s.linkState t.val = 5 → u.linkState t.val = 0 ∧ u.rd (STR_STATE.LAST_STS t.val) = OK) ∧
      (s.linkState t.val ≠ 5 → u.linkState t.val = s.linkState t.val ∧ u.rd (STR_STATE.LAST_STS t.val) = ESTATE))

/-- The read that a channel issues next is a queued read that has not issued and whose bank takes it, and no other such read comes
before it: a member read of the parity engine first, of them the oldest; then an aged read before one that is not aged, of aged
reads the oldest; else the higher QOS, then a row hit, then the oldest. None is issued only where no read can be. -/
def Obligations.ReadSchedulerOrder : Prop :=
  ∀ (s : State) (ch : Nat) (ready : BitVec 512),
    let able (e : RdEnt) : Prop := e ∈ (s.chan ch).rq ∧ e.issued = false ∧ s.bankTakes ch ready e.req e.seq = true
    let member (e : RdEnt) : Prop := e.req.ofXcp = true
    let aged (e : RdEnt) : Prop := s.rd (rdAge ch) * 100 ≤ s.now.toNat - e.at_
    let hit (e : RdEnt) : Prop := s.rowHit ch e.req = true
    (s.pickRead ch ready = none ↔ ∀ e, ¬ able e) ∧
    (∀ e, s.pickRead ch ready = some e → able e ∧ ∀ x, able x →
      (member x → member e ∧ e.seq ≤ x.seq) ∧
      (¬ member e → aged x → aged e ∧ e.seq ≤ x.seq) ∧
      (¬ member e → ¬ aged e → x.req.attr.qos ≤ e.req.attr.qos) ∧
      (¬ member e → ¬ aged e → x.req.attr.qos = e.req.attr.qos → hit x → hit e) ∧
      (¬ member e → ¬ aged e → x.req.attr.qos = e.req.attr.qos → (hit x ↔ hit e) → e.seq ≤ x.seq))

/-- A delta keeps a stripe's parity: where the parity line is the XOR of the old stored line and the rest, the parity update that
carries the XOR of the old and the new stored line leaves it the XOR of the new line and the rest, poisoned only where it was or
where the merge finds it uncorrectable; the update is taken, and memory and the other parity lines are as before. -/
def Obligations.DeltaKeepsParity : Prop :=
  ∀ (s : State) (ch : Chan) (e : DramErr) (d : Delta) (old new rest : LineData), s.stopped = false →
    s.xcp.updates.find? (fun d => d.chan == ch.val && d.sent) = some d → s.grpParity d.group = true →
    s.parityLost d.group d.stripe = false → s.chActive ch.val = true → s.wqRoom ch.val d.stripe = true →
    (s.parityLine d.group d.stripe).data = old ^^^ rest → d.x = old ^^^ new →
    ∃ t : State, exec (.parityUpdateArrive ⟨ch, e⟩) s = .next t ∧
      Tbl.getD t.parity (parKey d.group d.stripe) ⟨s.parityBase d.group d.stripe, false⟩ =
        ⟨new ^^^ rest, (s.parityLine d.group d.stripe).poison || s.eccOf ch.val e == .bad⟩ ∧
      (∀ k, k ≠ parKey d.group d.stripe → Tbl.get? t.parity k = Tbl.get? s.parity k) ∧
      t.mem = s.mem ∧ (d.fill = none → t.xcp = { s.xcp with updates := s.xcp.updates.erase d })

/-- The CRC32C of a buffer: the register starts from SEED, and its final value is inverted; a buffer in two parts gives the same
result when the second part's SEED is the inverse of the first part's result. -/
def Obligations.Crc32cChains : Prop :=
  let crc (seed : BitVec 32) (l : List (BitVec 8)) : BitVec 32 := ~~~(crcBytes seed l)
  (∀ (seed : BitVec 32) (a b : List (BitVec 8)), crc seed (a ++ b) = crc (~~~(crc seed a)) b) ∧
  (∀ l, crc32c l = (crc 0xFFFFFFFF#32 l).toNat) ∧
  crc 0xFFFFFFFF#32 [0x31, 0x32, 0x33, 0x34, 0x35, 0x36, 0x37, 0x38, 0x39] = 0xE3069283#32

/-- A mailbox packs words into entries: four words close an entry of 16 valid bytes that is not the last; a message's last word,
with n valid bytes after k words of its entry, closes an entry of 4 k + n valid bytes that is the last, the bytes beyond them
zero; each entry carries the world and enclave of its sender, the message is no longer open, and the mailbox's two PIR sources
then take their levels. -/
def Obligations.MailboxPacksWords : Prop :=
  ∀ (s : State) (m src : Nat) (world : Bool) (enc : Nat), m < 64 → (s.mb m).opn = none → (s.mb m).ents.length < 32 →
    let put (s : State) (w : Nat) : State := s.mbWord m w none src world enc
    (∀ a b c d : Nat, a < 2 ^ 32 → b < 2 ^ 32 → c < 2 ^ 32 → d < 2 ^ 32 →
      ((put (put (put (put s a) b) c) d).mb m).ents = (s.mb m).ents ++
        [⟨a + 2 ^ 32 * b + 2 ^ 64 * c + 2 ^ 96 * d, 16, false, false, world, enc⟩]) ∧
    (∀ a n : Nat, 1 ≤ n → n ≤ 4 → ∃ t : State, s.mbWord m a (some n) src world enc = t.mbSync m ∧
      (t.mb m).ents = (s.mb m).ents ++ [⟨a % 2 ^ (8 * n), n, true, false, world, enc⟩] ∧ (t.mb m).opn = none) ∧
    (∀ a b n : Nat, a < 2 ^ 32 → 1 ≤ n → n ≤ 4 →
      ∃ t : State, (put s a).mbWord m b (some n) src world enc = t.mbSync m ∧ (t.mb m).opn = none ∧
        (t.mb m).ents = (s.mb m).ents ++ [⟨(a + 2 ^ 32 * b) % 2 ^ (32 + 8 * n), 4 + n, true, false, world, enc⟩])

/-- Which interrupt a core takes: a Secure one before every other, at W; a Normal one only outside the Secure world, at H with
stage 2 on, else at the core's level or at S from U; a virtual one at S, only with stage 2 on and the core at S or U. -/
def Obligations.InterruptsAreTakenByBank : Prop :=
  ∀ (s : State) (c : Nat),
    let x := s.core c
    (∀ v, x.bankS.deliverable = some v → s.takeable c = some (1, v, .w)) ∧
    (x.bankS.deliverable = none → s.rd (WCTL.WORLD c) = 0 → ∀ v, x.bankN.deliverable = some v →
      s.takeable c = some (0, v, if s.rd (VM_CTL.S2EN c) ≠ 0 then .h else if x.lvl = .u then .s else x.lvl)) ∧
    (x.bankS.deliverable = none → s.rd (WCTL.WORLD c) ≠ 0 ∨ x.bankN.deliverable = none → ∀ v, x.bankV.deliverable = some v →
      (s.takeable c = some (2, v, .s) ↔ s.rd (VM_CTL.S2EN c) ≠ 0 ∧ (x.lvl = .s ∨ x.lvl = .u)))

/-- A counter that grows wraps from all ones to zero, and on the wrap, and only then, its overflow flag is set and counted; the row
of a unit's wrap leaves the counter at zero with its flag set. -/
def Obligations.CountersWrapWithTheirFlag : Prop :=
  (∀ (s : State) (f : Fld) (g : Flag) (n : Nat), f.key ≠ g.bit.key → f.key ≠ g.cnt.key → g.bit.key ≠ g.cnt.key →
    g.bit.w = 1 → s.rd f < 2 ^ f.w →
    (s.bump f g n).rd f = (s.rd f + n) % 2 ^ f.w ∧
    (s.rd f + n < 2 ^ f.w → (s.bump f g n).rd g.bit = s.rd g.bit ∧ (s.bump f g n).rd g.cnt = s.rd g.cnt) ∧
    (2 ^ f.w ≤ s.rd f + n → (s.bump f g n).rd g.bit = 1)) ∧
  (∀ (s : State) (h : Slice) (k : Fin 4), s.stopped = false → ∃ t : State, exec (.counterWrap (.home h k)) s = .next t ∧
    t.rd (cntFld (bankHome h.val) k.val) = 0 ∧ t.rd (ovfFlag (bankHome h.val) k.val).bit = 1 ∧
    t = { s with regs := t.regs })

/-- The error FIFO is popped by a read of the upper half of its last word, and by no other read: a 64-bit read, or a 32-bit read
of the upper half, takes the head, and the PIR sources 49 to 51 follow; a 32-bit read of the lower half takes nothing; on an
empty FIFO nothing pops, and UNDERRUN is set. -/
def Obligations.ErrorFifoPops : Prop :=
  ∀ (s : State), s.stopped = false →
    (exec (.errFifoPop 2 0) s = .next { s with ans := (0, s.rd (ERR_FIFO_OUT.WORD 7) % 2 ^ 32) }) ∧
    (∀ lg half : BitVec 2, (lg = 3 ∧ half = 0) ∨ (lg = 2 ∧ half = 1) →
      let v := if lg = 3 then s.rd (ERR_FIFO_OUT.WORD 7) else s.rd (ERR_FIFO_OUT.WORD 7) / 2 ^ 32 % 2 ^ 32
      (∀ r rs, s.err.fifo = r :: rs → s.err.fifoLoss = none → ∃ u : State,
        exec (.errFifoPop lg half) s =
          .next { ((u.srcSync 49).srcSync 50).srcSync 51 with ans := (0, v), pending := s.pending } ∧
        u.err.fifo = rs ∧ u.err.last = r.words ∧ u.rd ERR_FIFO_STS.COUNT = rs.length % 2 ^ ERR_FIFO_STS.COUNT.w) ∧
      (s.err.fifo = [] → exec (.errFifoPop lg half) s = .next { s.raise ERR_STS.fUNDERRUN with ans := (0, v) }))

/-- A trigger of a photo-finish: in BOOT, RUN, RIDE and QUARANTINE it starts one and is recorded with its time; while one runs, and
in PHOTO, it only sets DUP, or FRZDUP where it is a ring FREEZE (assumption 38), but a trigger of the very nanosecond of the one that
runs is recorded beside it (assumption 85); in any other mode it only sets IGN. -/
def Obligations.PhotoFinishTriggers : Prop :=
  ∀ (s : State) (bit : Nat), bit < 5 →
    let t := s.photo bit
    let together := s.pf.any (fun p => !p.stopped) = true ∧ s.rd DBG_PF_TIME.TIME = s.now.toNat
    (s.pkgMode ∈ [2, 3, 4, 6] → s.pf = none →
      t.pf.isSome = true ∧ t.rd DBG_PF_STS.SRC = 2 ^ bit ∧ t.rd DBG_PF_TIME.TIME = s.now.toNat ∧ t.pkgMode = s.pkgMode ∧
      (s.rd RLY_CTL.FRZ_OUT = 0 → t.rly = s.rly)) ∧
    (together → t = s.wr DBG_PF_STS.SRC (s.rd DBG_PF_STS.SRC ||| 2 ^ bit)) ∧
    (¬ together → s.pkgMode = 5 ∨ s.pf.isSome = true → t = s.raise (if bit = 1 then RLY_STS.fFRZDUP else DBG_PF_STS.fDUP)) ∧
    (s.pkgMode ∈ [0, 1, 7] → s.pf = none → t = s.raise DBG_PF_STS.fIGN)

/-- The steps of a photo-finish: the controllers that report place their ranks in self-refresh and the islands are told to stop; when
they have stopped, the mode is PHOTO, the mode before it is kept and DONE is set; no step happens before the one it follows. -/
def Obligations.PhotoFinishStops : Prop :=
  ∀ (s : State) (p : PfSt), s.pkgMode < 8 → s.pf = some p → s.mon.lines = [] → s.mon.mbOut = [] →
    (p.stopped = false → exec .pfIslandsStopped s = .next s ∧
      ∃ t : State, exec .pfControllersReported s = .next t ∧ t.pf = some ⟨[], true⟩ ∧ t.pkgMode = s.pkgMode ∧
        (∀ c ∈ p.wait, (t.chan c).sref = true)) ∧
    (p.stopped = true → s.pkgMode ≠ 5 → exec .pfControllersReported s = .next s ∧
      ∃ t : State, exec .pfIslandsStopped s = .next t ∧ t.pkgMode = 5 ∧ t.rd HUB_PKG_MODE.PREV_MODE = s.pkgMode ∧
        t.rd DBG_PF_STS.DONE = 1 ∧ t = { s with regs := t.regs })

/-- SET_LIMIT: a limit of 700 to 1,100 W is taken, and the lock too where the sender may lock; a locked limit turns away the Normal
world, a number out of range is EINVAL, RIDE is ESTATE, and each refusal changes nothing. -/
def Obligations.PowerLimitRules : Prop :=
  ∀ (s : State) (secure : Bool) (w lock : Nat), w < 2048 → lock < 2 →
    let v := w + lock * 2 ^ 31
    let r := s.setLimit secure v false
    (secure = false → s.rd PMC_LIMIT.LOCK ≠ 0 → r = (s, EPERM)) ∧
    (secure = true ∨ s.rd PMC_LIMIT.LOCK = 0 →
      ((w < 700 ∨ 1100 < w) → r = (s, EINVAL)) ∧
      (700 ≤ w → w ≤ 1100 → s.pkgMode = 4 → r = (s, ESTATE)) ∧
      (700 ≤ w → w ≤ 1100 → s.pkgMode ≠ 4 → r.2 = OK ∧ r.1.rd PMC_LIMIT.LIMIT_W = w ∧
        r.1.rd PMC_LIMIT.LOCK = (if secure = true ∧ lock = 1 then 1 else s.rd PMC_LIMIT.LOCK) ∧
        r.1 = { s with regs := r.1.regs }))

/-- Mode changes: a boot request boots from STANDBY only, the hand-off runs from BOOT only, a first notice of mains loss takes RUN to
RIDE with every cluster at PS 0 and nothing else to another mode, mains return takes RIDE back to RUN, and loss of the AON supply
leads to OFF from everywhere. -/
def Obligations.ModesChangeOnTheirEvents : Prop :=
  ∀ s : State,
    (∃ t : State, exec .bootRequest s = .next t ∧
      (s.pkgMode = 1 → s.sys.extest = false → t.pkgMode = 2 ∧ t.rd HUB_PKG_MODE.PREV_MODE = 1) ∧
      (s.pkgMode ≠ 1 → t = s)) ∧
    (∀ d : Dev, d.attr.enc = 0 → d.attr.world = true → s.stopped = false → ∃ t : State, exec (.handoffRun d) s = .next t ∧
      (s.pkgMode = 2 → t.pkgMode = 3) ∧ (s.pkgMode ≠ 2 → t.pkgMode = s.pkgMode)) ∧
    (∀ ring : Bool,
      (s.pmc.lost = true → ∃ t : State, exec (.mainsLoss ring) s = .next t ∧ t.pmc.lost = true ∧ t.regs = s.regs) ∧
      (s.pmc.lost = false → 2 ≤ s.pkgMode →
        ∃ u : State, exec (.mainsLoss ring) s = .next { u.srcSync 52 with pending := s.pending } ∧ u.pmc.lost = true ∧
          (s.pkgMode = 3 → u.pkgMode = 4 ∧ u.rd HUB_PKG_MODE.PREV_MODE = 3 ∧ ∀ k < 72, u.rd (PMC_CLUS.PS k) = 0) ∧
          (s.pkgMode ≠ 3 → u.pkgMode = s.pkgMode))) ∧
    (s.pkgMode = 4 → s.pmc.lost = true → s.sys.pwrfailN = true →
      ∃ t : State, exec .mainsReturn s = .next t ∧ t.pkgMode = 3 ∧ t.pmc.lost = false) ∧
    (∃ t : State, exec .aonSupplyLoss s = .next t ∧ t.pkgMode = 0 ∧ t.rd RLY_POS.STATE = 0 ∧ t.mem = [])

/-- Discovery: the RMC's DISCOVER with COUNT 0 goes round a ring of ACTIVE packages that take it without authentication. Package k
takes position k + 1 and the frame's EPOCH, and knows that k packages came before it; the frame that comes back holds the
number of packages. -/
def Obligations.DiscoveryNumbersTheRing : Prop :=
  ∀ (ring : List State) (f : Frame),
    ring.length ≤ 64 → (∀ s ∈ ring, s.rd RLY_POS.STATE = 2 ∧ s.rd RLY_CTL.AUTH = 0) →
    f.badCrc = false → f.src = 0 → f.dst = 0xFF → f.hops = 0 → 5 ≤ f.payload.length → f.payload[4]? = some 0 →
    let r := discoverRing ring f
    r.1.length = ring.length ∧
    (∀ (k : Nat) (t : State), r.1[k]? = some t →
      t.rd RLY_POS.POS = k + 1 ∧ t.rd RLY_POS.COUNT = k ∧ t.rd RLY_POS.EPOCH = f.epoch.toNat ∧ t.rd RLY_LINKDLY.SET = 0) ∧
    (∃ g, r.2 = some g ∧ g.payload[4]? = some (BitVec.ofNat 8 ring.length) ∧ g.hops.toNat = ring.length ∧ g.epoch = f.epoch)

/-- A frame at a node: one whose EPOCH is another is counted and passed on, one of this node's own that returns is removed, one for
this node is removed and acted on, a broadcast is passed on and acted on, any other is passed on; what is passed on has one hop
more, and at 72 hops it is removed and HOPDROP takes an event. -/
def Obligations.FramesAtANode : Prop :=
  ∀ (s : State) (f : Frame) (k : State → State), s.rd RLY_POS.STATE = 2 → f.badCrc = false →
    (f.epoch.toNat ≠ s.rd RLY_POS.EPOCH → s.frameIn f k = (s.rlyRaise RLY_STS.fEPOCHDROP).framePass f) ∧
    (f.epoch.toNat = s.rd RLY_POS.EPOCH →
      (s.frameOwn f = true → s.frameIn f k = s) ∧
      (s.frameOwn f = false → f.dst = 0xFF → s.frameIn f k = k (s.framePass f)) ∧
      (s.frameOwn f = false → f.dst ≠ 0xFF → s.frameMine f = true → s.frameIn f k = k s) ∧
      (s.frameMine f = false → s.frameOwn f = false → s.frameIn f k = s.framePass f)) ∧
    (f.hops.toNat < 71 →
      s.framePass f = { s with rly := { s.rly with out := s.rly.out ++ [.frame { f with hops := f.hops + 1 }] } }) ∧
    (71 ≤ f.hops.toNat → f.hops.toNat < 255 → s.framePass f = s.rlyRaise RLY_STS.fHOPDROP)

/-- TIME: a package that takes the frame sets its offset to T + (CORR + LINKDLY) / 64 less its own time, saturating, remembers the
frame's SEQ, and sends the frame on with CORR grown by LINKDLY and its own latency. Its timebase is left alone while
RLY_CTL.TSYNC is 0 and while the package is not behind by more than 10 us; there the offset is what remains to be slewed;
a package behind by more steps forward once by the offset and sets TSTEP. -/
def Obligations.TimeFramesCarryTheDelay : Prop :=
  ∀ (s : State) (f : Frame) (lat : BitVec 16) (time : BitVec 64) (corr loop : BitVec 32),
    s.rd RLY_POS.STATE = 2 → f.badCrc = false → f.src = 0 → f.dst = 0xFF → f.epoch.toNat = s.rd RLY_POS.EPOCH →
    s.seqNew f = true → f.hops.toNat < 71 →
    f.payload = bytesOf time.toNat 8 ++ bytesOf corr.toNat 4 ++ bytesOf loop.toNat 4 →
    let off : Int := (time.toNat + (corr.toNat + s.rd RLY_LINKDLY.DLY) / 64 : Nat) - (s.now.toNat : Int)
    let g : Frame := { f with
      payload := bytesOf time.toNat 8 ++ bytesOf ((corr.toNat + s.rd RLY_LINKDLY.DLY + lat.toNat) % 2 ^ 32) 4 ++
        bytesOf loop.toNat 4 }
    ∃ u : State, u.rd RLY_TSYNC.OFFSET = satSigned 32 off ∧ u.now = s.now ∧ u.rly.out = s.rly.out ∧
      Tbl.get? u.rly.hist f.src.toNat = some f.seq.toNat ∧ u.rd RLY_POS.STATE = 2 ∧
      (s.rd RLY_CTL.TSYNC = 0 ∨ off ≤ 10000 → exec (.time f lat) s =
        .next { u with rly := { u.rly with out := s.rly.out ++ [.frame { g with hops := f.hops + 1 }] } }) ∧
      (s.rd RLY_CTL.TSYNC ≠ 0 → off ≤ 10000 → u.rly.slew = 15000 * off) ∧
      (s.rd RLY_CTL.TSYNC ≠ 0 → 10000 < off →
        let t := (u.tbSet (s.now.toNat + off.toNat)).rlyRaise RLY_STS.fTSTEP
        exec (.time f lat) s =
          .next { State.framePass { t with rly := { t.rly with slew := 0 } } g with pending := s.pending })

/-- FREEZE and MAINS_LOST at an ACTIVE port: a set with a code violation, or whose two copies of ORIGIN differ, is lost and counted;
the package's own set is removed and not sent again; any other is sent on first: a FREEZE is then a trigger where FRZ_IN is 1,
and a MAINS_LOST a notice of mains loss. -/
def Obligations.OrderedSetsAreForwarded : Prop :=
  ∀ (s : State) (a b : BitVec 8) (viol : Bool), s.rd RLY_POS.STATE = 2 →
    let sent (freeze : Bool) : State := { s with rly := { s.rly with out := s.rly.out ++ [.set freeze a.toNat] } }
    (viol = true ∨ a ≠ b → exec (.ringFreeze a b viol) s = .next { s.rlyRaise RLY_STS.fSYMERR with pending := s.pending } ∧
      exec (.ringMainsLost a b viol) s = .next { s.rlyRaise RLY_STS.fSYMERR with pending := s.pending }) ∧
    (viol = false → a = b →
      (s.setOwn true a.toNat = true → ∃ t : State, exec (.ringFreeze a b viol) s = .next t ∧ t.rly.out = s.rly.out ∧
        t.pkgMode = s.pkgMode ∧ ∀ e ∈ t.rly.reps, e.1 = false) ∧
      (s.setOwn true a.toNat = false →
        (s.rd RLY_CTL.FRZ_IN ≠ 0 → exec (.ringFreeze a b viol) s =
          .next { ((sent true).photo 1).rlySync with pending := s.pending }) ∧
        (s.rd RLY_CTL.FRZ_IN = 0 → s.pkgMode ≠ 5 → exec (.ringFreeze a b viol) s = .next (sent true)) ∧
        (s.rd RLY_CTL.FRZ_IN = 0 → s.pkgMode = 5 → exec (.ringFreeze a b viol) s =
          .next { (sent true).rlyRaise RLY_STS.fFRZDUP with pending := s.pending })) ∧
      (s.setOwn false a.toNat = true → ∃ t : State, exec (.ringMainsLost a b viol) s = .next t ∧ t.rly.out = s.rly.out ∧
        t.pkgMode = s.pkgMode ∧ ∀ e ∈ t.rly.reps, e.1 = true) ∧
      (s.setOwn false a.toNat = false → exec (.ringMainsLost a b viol) s =
        .next { (sent false).mainsLoss true with pending := s.pending }))

/-- The monitor's authority comes first: a line from the UART that needs a level above the session's is answered EPERM whatever else
is wrong with it, its answer prints nothing, and nothing but the answer changes. -/
def Obligations.MonitorAuthorityComesFirst : Prop :=
  ∀ (s : State) (i : Instr) (c : MonCmd), monCmdOf i = some c → s.monReady → (∀ k, c ≠ .reset k) →
    s.monLevel < s.monNeed c →
    exec i s = .next { s with mon := { s.mon with out := s.mon.out ++ [⟨[], some EPERM⟩] } }

/-- A monitor line that passes its checks is executed and answered: the values it prints and its status are the last thing on the
UART, and the rest of the package is what the command makes of it. Held for every row of the UART but CAP, which is answered
when its stream has ended, and RESET, which is answered before it acts. -/
def Obligations.MonitorLinesAreAnswered : Prop :=
  ∀ (s u : State) (i : Instr) (c : MonCmd) (sts : Nat) (vals : List Nat), monCmdOf i = some c → s.monReady →
    (∀ k, c ≠ .reset k) → (∀ l o, c ≠ .cap l o) → s.monCheck .uart c = OK → s.monDo .uart c = some (u, sts, vals) →
    exec i s = .next { u with pending := s.pending, mon := { u.mon with out := u.mon.out ++ [⟨vals, some sts⟩] } }

/-- The monitor's session: AUTH with the response that the nonce asks for takes a level up to UART_MAX and uses the nonce up; a wrong
one is EPERM, leaves the level and uses the nonce up too, and the third within 60 s locks AUTH out; LOGOUT, a break and the
session's timeout return to UART_BASE, and a break restores 115,200 baud. -/
def Obligations.MonitorSession : Prop :=
  (∀ (s : State) (n level : Nat), s.mon.nonce = some n →
    (level ≤ s.rd DBG_MON.UART_MAX → (s.authTry level (authResponse n level)).2.1 = OK ∧
      (s.authTry level (authResponse n level)).1.monLevel = level ∧
      (s.authTry level (authResponse n level)).1.mon.nonce = none) ∧
    (∀ resp, resp ≠ authResponse n level ∨ s.rd DBG_MON.UART_MAX < level →
      (s.authTry level resp).2.1 = EPERM ∧ (s.authTry level resp).1.monLevel = s.monLevel ∧
      (s.authTry level resp).1.mon.nonce = none ∧
      (∀ a b, s.mon.fails = [a, b] → s.now.toNat < a + 60000000000 → s.now.toNat < b + 60000000000 →
        (s.authTry level resp).1.mon.lockout = true))) ∧
  (∀ s : State, exec .monSessionTimeout s = .next { s with mon := { s.mon with level := none } }) ∧
  (∀ s : State, s.monReady →
    exec .uartBreak s = .next { s with mon := { s.mon with level := none, baud := 115200 } } ∧
    exec .logout s = .next { s with mon := { s.mon with level := none, out := s.mon.out ++ [⟨[], some OK⟩] } })

/-- A window entry is written in two halves: the low half changes no register, and the high half then replaces every field of the
entry with those of both halves and leaves no low half behind. -/
def Obligations.WindowEntriesAreReplacedWhole : Prop :=
  ∀ (s : State) (n lo hi : Nat), n < 65280 → lo < 2 ^ 64 → hi < 2 ^ 64 →
    let a := s.winLow n lo
    let t := a.winHigh n hi
    a.regs = s.regs ∧ t.winStage = none ∧ t.rd (TQE_WIN.EN n) = lo % 2 ∧ t.rd (TQE_WIN.PR n) = lo / 4 % 2 ∧
    t.rd (TQE_WIN.PW n) = lo / 8 % 2 ∧ t.rd (TQE_WIN.MT n) = lo / 16 % 2 ∧ t.rd (TQE_WIN.GRAN n) = lo / 32 % 2 ∧
    t.rd (TQE_WIN.ID n) = lo / 2 ^ 12 % 65536 ∧ t.rd (TQE_WIN.SIZE n) = lo / 2 ^ 28 % 2 ^ 20 ∧
    t.rd (TQE_WIN.IBASE n) = (lo / 2 ^ 48 + hi * 65536) % 2 ^ 40 ∧ t.rd (TQE_WIN.OBASE n) = hi / 2 ^ 24 ∧
    (∀ f : Fld, f.key < (TQE_WIN.EN n).key ∨ (TQE_WIN.EN n).key + 128 ≤ f.key → t.rd f = s.rd f)

/-- KEY_ERASE by a sender that may erase leaves nothing of the key: the slot has no type, no key and no attribute, keeps its binding,
and every other slot is as it was. -/
def Obligations.KeyEraseLeavesNothing : Prop :=
  ∀ (s : State) (f : Nat) (c : AdmCmd), (f = 0 ∨ (s.slot c.slotNo).fn = f) → s.keyTagBad f c = false → c.badKey 16 = false →
    let t := (s.keyErase f c).1
    (t.slot c.slotNo).type = 0 ∧ (t.slot c.slotNo).key = 0 ∧ (t.slot c.slotNo).exp = false ∧
    (t.slot c.slotNo).fn = (s.slot c.slotNo).fn ∧ (∀ n, n ≠ c.slotNo → t.slot n = s.slot n) ∧
    (s.slotBusy c.slotNo = false → (s.keyErase f c).2 = some (OK, 0, 0)) ∧
    (s.slotBusy c.slotNo = true → (s.keyErase f c).2 = none)

/-- Register writes, core accesses, ordered operations and the timebase's events complete: a register write reaches
the device at its address or the core it names; each access or ordered operation joins its core's program order with
the operation number that R62 gives it; the timebase's bell and wrap move it, in every state (an event of the islands:
in every state in which they are not stopped). -/
def Obligations.CoreCommandsComplete : Prop :=
  ∀ s : State,
    (∀ (p : RegPlace) (lg : BitVec 2) (v : BitVec 64) (d : Dev), s.stopped = false → exec (.registerWrite p lg v d) s =
      .next { (
        match p with
        | .mem pa => s.devStore d pa.toNat lg.toNat v.toNat
        | .sys c num => s.coreInstr c (.sysW num.toNat v.toNat) : State) with pending := s.pending }) ∧
    (exec .timebaseBell s =
      .next { (
        (if s.now.toNat < tbThreshold then s.tbSet tbThreshold else s) : State) with pending := s.pending }) ∧
    (exec .timebaseWrap s = .next { (((s.tbMove (2 ^ 64 - 1)).tbSet (2 ^ 64)) : State) with pending := s.pending }) ∧
    (∀ (c : Core) (rd rb : BitVec 5) (off : BitVec 64) (w : LoadForm), s.stopped = false →
      exec (.coreLoad c rd rb off w) s =
      .next { (
        (s.coreInstr c (.load rd.toNat rb.toNat off.toNat w.lg.toNat w.vec)) : State) with pending := s.pending }) ∧
    (∀ (c : Core) (rs rb : BitVec 5) (off : BitVec 64) (w : StoreForm), s.stopped = false →
      exec (.coreStore c rs rb off w) s =
      .next { (
        (s.coreInstr c (.store rs.toNat rb.toNat off.toNat w.lg.toNat w.vec w.br.toNat)) : State) with pending := s.pending }) ∧
    (∀ (c : Core) (ga gb : BitVec 5) (imm : BitVec 16), s.stopped = false → exec (.fence c ga gb imm) s =
      .next { (
        (s.coreInstr c (.fence ga.toNat gb.toNat imm.toNat)) : State) with pending := s.pending }) ∧
    (∀ (c : Core), s.stopped = false → exec (.fenceRetire c) s =
      .next { (
        (s.fenceRetire c.val) : State) with pending := s.pending }) ∧
    (∀ (c : Core) (ga gb gc : BitVec 5) (size order : BitVec 2) (x : LdoBits), s.stopped = false →
      exec (.ldo c ga gb gc size order x) s =
      .next { (
        (s.coreInstr c
        (.ord (if x.op.toNat < 8 then 0 else x.op.toNat) ga.toNat gb.toNat gc.toNat size.toNat order.toNat x.mbz.toNat)) : State) with pending := s.pending }) ∧
    (∀ (c : Core) (ga gb gc : BitVec 5) (size order mbz : BitVec 2), s.stopped = false →
      exec (.sto c ga gb gc size order mbz) s =
      .next { (
        (s.coreInstr c (.ord 1 ga.toNat gb.toNat gc.toNat size.toNat order.toNat mbz.toNat)) : State) with pending := s.pending }) ∧
    (∀ (c : Core) (ga gb gc : BitVec 5) (size order mbz : BitVec 2), s.stopped = false →
      exec (.swp c ga gb gc size order mbz) s =
      .next { (
        (s.coreInstr c (.ord 2 ga.toNat gb.toNat gc.toNat size.toNat order.toNat mbz.toNat)) : State) with pending := s.pending }) ∧
    (∀ (c : Core) (ga gb gc : BitVec 5) (size order mbz : BitVec 2), s.stopped = false →
      exec (.cas c ga gb gc size order mbz) s =
      .next { (
        (s.coreInstr c (.ord 3 ga.toNat gb.toNat gc.toNat size.toNat order.toNat mbz.toNat)) : State) with pending := s.pending }) ∧
    (∀ (c : Core) (ga gb gc : BitVec 5) (size order mbz : BitVec 2), s.stopped = false →
      exec (.fadd c ga gb gc size order mbz) s =
      .next { (
        (s.coreInstr c (.ord 4 ga.toNat gb.toNat gc.toNat size.toNat order.toNat mbz.toNat)) : State) with pending := s.pending }) ∧
    (∀ (c : Core) (ga gb gc : BitVec 5) (size order mbz : BitVec 2), s.stopped = false →
      exec (.fand c ga gb gc size order mbz) s =
      .next { (
        (s.coreInstr c (.ord 5 ga.toNat gb.toNat gc.toNat size.toNat order.toNat mbz.toNat)) : State) with pending := s.pending }) ∧
    (∀ (c : Core) (ga gb gc : BitVec 5) (size order mbz : BitVec 2), s.stopped = false →
      exec (.forOp c ga gb gc size order mbz) s =
      .next { (
        (s.coreInstr c (.ord 6 ga.toNat gb.toNat gc.toNat size.toNat order.toNat mbz.toNat)) : State) with pending := s.pending }) ∧
    (∀ (c : Core) (ga gb gc : BitVec 5) (size order mbz : BitVec 2), s.stopped = false →
      exec (.cas128 c ga gb gc size order mbz) s =
      .next { (
        (s.coreInstr c (.ord 7 ga.toNat gb.toNat gc.toNat size.toNat order.toNat mbz.toNat)) : State) with pending := s.pending }) ∧
    (∀ (c : Core), s.stopped = false → exec (.gatheredWriteIssue c) s =
      .next { (
        ((s.ungather c.val).poke c.val) : State) with pending := s.pending })

/-- Maintenance, translation and system-register instructions of a core complete: each instruction joins its core's
program order with the function code and operands of its own, in every state in which the islands are not stopped. -/
def Obligations.CoreSystemCommandsComplete : Prop :=
  ∀ s : State, s.stopped = false →
    (∀ (c : Core) (ga gb : BitVec 5) (imm : BitVec 16), exec (.clean c ga gb imm) s =
      .next { (
        (s.coreInstr c (.maint 0x10 ga.toNat gb.toNat imm.toNat)) : State) with pending := s.pending }) ∧
    (∀ (c : Core) (ga gb : BitVec 5) (imm : BitVec 16), exec (.clinv c ga gb imm) s =
      .next { (
        (s.coreInstr c (.maint 0x11 ga.toNat gb.toNat imm.toNat)) : State) with pending := s.pending }) ∧
    (∀ (c : Core) (ga gb : BitVec 5) (imm : BitVec 16), exec (.zero c ga gb imm) s =
      .next { (
        (s.coreInstr c (.maint 0x12 ga.toNat gb.toNat imm.toNat)) : State) with pending := s.pending }) ∧
    (∀ (c : Core) (ga gb : BitVec 5) (imm : BitVec 16), exec (.prf c ga gb imm) s =
      .next { (
        (s.coreInstr c (.maint 0x14 ga.toNat gb.toNat imm.toNat)) : State) with pending := s.pending }) ∧
    (∀ (c : Core) (ga gb : BitVec 5) (imm : BitVec 16), exec (.tlbiVa c ga gb imm) s =
      .next { (
        (s.coreInstr c (.tlb 0x20 ga.toNat gb.toNat imm.toNat)) : State) with pending := s.pending }) ∧
    (∀ (c : Core) (ga gb : BitVec 5) (imm : BitVec 16), exec (.tlbiVaa c ga gb imm) s =
      .next { (
        (s.coreInstr c (.tlb 0x21 ga.toNat gb.toNat imm.toNat)) : State) with pending := s.pending }) ∧
    (∀ (c : Core) (ga gb : BitVec 5) (imm : BitVec 16), exec (.tlbiAsid c ga gb imm) s =
      .next { (
        (s.coreInstr c (.tlb 0x22 ga.toNat gb.toNat imm.toNat)) : State) with pending := s.pending }) ∧
    (∀ (c : Core) (ga gb : BitVec 5) (imm : BitVec 16), exec (.tlbiVm c ga gb imm) s =
      .next { (
        (s.coreInstr c (.tlb 0x23 ga.toNat gb.toNat imm.toNat)) : State) with pending := s.pending }) ∧
    (∀ (c : Core) (ga gb : BitVec 5) (imm : BitVec 16), exec (.tlbiAll c ga gb imm) s =
      .next { (
        (s.coreInstr c (.tlb 0x24 ga.toNat gb.toNat imm.toNat)) : State) with pending := s.pending }) ∧
    (∀ (c : Core) (ga gb : BitVec 5) (imm : BitVec 16), exec (.tlblock c ga gb imm) s =
      .next { (
        (s.coreInstr c (.tlb 0x28 ga.toNat gb.toNat imm.toNat)) : State) with pending := s.pending }) ∧
    (∀ (c : Core) (ga gb : BitVec 5) (imm : BitVec 16), exec (.tlbunlock c ga gb imm) s =
      .next { (
        (s.coreInstr c (.tlb 0x29 ga.toNat gb.toNat imm.toNat)) : State) with pending := s.pending }) ∧
    (∀ (c : Core) (ga gb : BitVec 5) (imm : BitVec 16), exec (.jrinv c ga gb imm) s =
      .next { (
        (s.coreInstr c (.tlb 0x38 ga.toNat gb.toNat imm.toNat)) : State) with pending := s.pending }) ∧
    (∀ (c : Core) (ga gb : BitVec 5) (imm : BitVec 16), exec (.syncTlb c ga gb imm) s =
      .next { (
        (s.coreInstr c (.tlb 0x02 ga.toNat gb.toNat imm.toNat)) : State) with pending := s.pending }) ∧
    (∀ (c : Core) (v : BitVec 64), exec (.vmCtlWrite c v) s =
      .next { (
        (s.coreInstr c (.vmCtl v.toNat)) : State) with pending := s.pending }) ∧
    (∀ (c : Core) (r : BitVec 2) (v : BitVec 64), exec (.ttRegWrite c r v) s =
      .next { (
        (s.coreInstr c (.ttReg r.toNat v.toNat)) : State) with pending := s.pending }) ∧
    (∀ (c : Core) (ga gb : BitVec 5) (imm : BitVec 16), exec (.wcall c ga gb imm) s =
      .next { (
        (s.coreInstr c (.wcall ga.toNat gb.toNat imm.toNat)) : State) with pending := s.pending }) ∧
    (∀ (c : Core) (rd : BitVec 5), exec (.intAckRead c rd) s =
      .next { (
        (s.coreInstr c (.ackRead rd.toNat)) : State) with pending := s.pending }) ∧
    (∀ (c : Core) (v : BitVec 64), exec (.intEoi c v) s =
      .next { (
        (s.coreInstr c (.eoi v.toNat)) : State) with pending := s.pending }) ∧
    (∀ (c : Core) (v : BitVec 64), exec (.intIpi c v) s =
      .next { (
        (s.coreInstr c (.ipi v.toNat)) : State) with pending := s.pending }) ∧
    (∀ (c : Core) (v : BitVec 64), exec (.vipCtlWrite c v) s =
      .next { (
        (s.coreInstr c (.vipCtl v.toNat)) : State) with pending := s.pending }) ∧
    (∀ (c : Core), exec (.waitForInterrupt c) s = .next { ((s.coreInstr c .wfi) : State) with pending := s.pending })

/-- Translation broadcasts, agent time windows, evictions and HMC commands complete: each event is taken by the unit,
agent or slice it is about, and each command acts on the halves it names, in every state in which the islands are not
stopped. -/
def Obligations.TranslationAndCacheEventsComplete : Prop :=
  ∀ s : State, s.stopped = false →
    (∀ (c : Core), exec (.syncTlbComplete c) s = .next { ((s.syncComplete c.val) : State) with pending := s.pending }) ∧
    (∀ (c : Core),
      exec (.invalBroadcastArrive c) s = .next { ((s.invArrive c.val) : State) with pending := s.pending }) ∧
    (∀ (t : Tcd), exec (.invalTcdDeliver t) s = .next { ((s.invDeliver t.val) : State) with pending := s.pending }) ∧
    (∀ (c : Core), exec (.coreInvalAck c) s = .next { ((s.coreAck c.val) : State) with pending := s.pending }) ∧
    (∀ (t : Tcd), exec (.broadcastAck t) s = .next { ((s.bcastAck t.val) : State) with pending := s.pending }) ∧
    (∀ (c : Core) (va : BitVec 64) (acc : BitVec 2) (spec : Bool), exec (.tableWalk c va acc spec) s =
      .next { (
        (if s.coreRuns c.val ∧ s.on (TT_CTL.EN c.val) ∧ canonical va.toNat = true then
          let s := s.ccEvent c.val 6
          let s := if spec = false ∧ acc ≠ 2 then s.ccEvent c.val 5 else s
          (s.walkStart c.val va.toNat acc.toNat spec).poke c.val
        else s) : State) with pending := s.pending }) ∧
    (∀ (c : Core), exec (.vmidPresenceReport c) s =
      .next { (
        let v := s.rd (VM_CTL.VMID c.val)
        let t := Tbl.getD s.vmpv v 0
        (({ s with vmpv := Tbl.put s.vmpv v 0 (t ||| 2 ^ dieOf c.val) }).poke c.val) : State) with pending := s.pending }) ∧
    (∀ (a : Agent),
      exec (.suspectWindowExpire a) s = .next { ((s.suspectExpire a.val) : State) with pending := s.pending }) ∧
    (∀ (h : Slice), exec (.deadAgentSweep h) s = .next { ((s.sweepSet h.val) : State) with pending := s.pending }) ∧
    (∀ (c : Core) (near va : BitVec 64) (own : Bool) (kind : BitVec 2), exec (.hwPrefetch c near va own kind) s =
      .next { (
        (s.hwPrefetch c.val near.toNat va.toNat own kind.toNat) : State) with pending := s.pending }) ∧
    (∀ (t : Tcd) (line : LineAddr), exec (.l3Evict t line) s =
      .next { (
        (s.l3Evict t.val line.toNat) : State) with pending := s.pending }) ∧
    (∀ (c : Core) (line : LineAddr), exec (.l2Evict c line) s =
      .next { (
        (s.l2Evict c.val line.toNat) : State) with pending := s.pending }) ∧
    (∀ (h : Slice) (line : LineAddr), exec (.hmcVictimAccepted h line) s =
      .next { (
        (match s.lock? h.val line.toNat with
        | some l => if l.txn = .victim then s.victimAccepted h.val line.toNat else s
        | none => s) : State) with pending := s.pending }) ∧
    (∀ (arr : BitVec 3) (u : BitVec 9) (line : LineAddr) (uncorr : Bool), exec (.cacheDataError arr u line uncorr) s =
      .next { (
        (s.cacheError arr.toNat u.toNat line.toNat uncorr) : State) with pending := s.pending }) ∧
    (∀ (arr : BitVec 3) (die : Tcd) (index : BitVec 8) (set : BitVec 16) (way : BitVec 4) (dirty : Bool),
      exec (.tagFatal arr die index set way dirty) s =
      .next { (
        s.tagFatal arr.toNat die.val index.toNat set.toNat way.toNat dirty : State) with pending := s.pending }) ∧
    (∀ (half : BitVec 2),
      exec (.hmcEnable half) s = .next { ((s.hmcCmd 1 half.toNat) : State) with pending := s.pending }) ∧
    (∀ (half : BitVec 2),
      exec (.hmcDisable half) s = .next { ((s.hmcCmd 2 half.toNat) : State) with pending := s.pending }) ∧
    (∀ (half : BitVec 2),
      exec (.hmcInvalidate half) s = .next { ((s.hmcCmd 3 half.toNat) : State) with pending := s.pending }) ∧
    (∀ (half : BitVec 2), exec (.hmcDrainDone half) s =
      .next { (
        ((halvesOf half.toNat).foldl (fun s x =>
        if s.drained x then (s.wr (halfState (16 * x)) HDRAINED).hmcBusy else s) s) : State) with pending := s.pending }) ∧
    (∀ (half : BitVec 2), exec (.hmcInvalidateDone half) s =
      .next { (
        ((halvesOf half.toNat).foldl (fun s x =>
        if s.rd (halfState (16 * x)) = HINVAL then ((s.hmcClear x).wr (halfState (16 * x)) HOFF).hmcBusy else s) s) : State) with pending := s.pending }) ∧
    (∀ (h : Slice) (v : BitVec 32) (a : Attr), exec (.hmcSeedWrite h v a) s =
      .next { (
        (s.hmcSeed h.val v.toNat a) : State) with pending := s.pending }) ∧
    (∀ (cls : BitVec 4) (v : BitVec 32), exec (.hmcWaymaskWrite cls v) s =
      .next { (
        (s.wr (HMC_WAYMASK.MASK cls.toNat) v.toNat) : State) with pending := s.pending })

/-- Coherent requests, snoops, answers, data and acknowledges complete: each request is taken by the home of its line,
or by the device at its address, each snoop by its agent, each answer by its home and each datum by its requester,
under the opcode of its row, in every state in which the islands are not stopped. -/
def Obligations.CoherenceMessagesComplete : Prop :=
  ∀ s : State, s.stopped = false →
    (∀ (m : Msg),
      exec (.rdshared m) s = .next { ((s.homeArrive { m with opc := .rdShared }) : State) with pending := s.pending }) ∧
    (∀ (m : Msg),
      exec (.rdunique m) s = .next { ((s.homeArrive { m with opc := .rdUnique }) : State) with pending := s.pending }) ∧
    (∀ (m : Msg),
      exec (.upgrade m) s = .next { ((s.homeArrive { m with opc := .upgrade }) : State) with pending := s.pending }) ∧
    (∀ (m : Msg), exec (.rdonce m) s =
      .next { (
        let m := { m with opc := .rdOnce }
        if m.isDevice then s.devRdOnce m else s.homeArrive m : State) with pending := s.pending }) ∧
    (∀ (m : Msg),
      exec (.wrfull m) s = .next { ((s.homeArrive { m with opc := .wrFull }) : State) with pending := s.pending }) ∧
    (∀ (m : Msg), exec (.wrpart m) s =
      .next { (
        let m := { m with opc := .wrPart }
        match m.interrupt? with
          | some (c, vec, world) => s.intStore c vec world m
          | none => if m.isDevice then s.devWrPart m else s.homeArrive m : State) with pending := s.pending }) ∧
    (∀ (m : Msg),
      exec (.wbdirty m) s = .next { ((s.homeArrive { m with opc := .wbDirty }) : State) with pending := s.pending }) ∧
    (∀ (m : Msg),
      exec (.evclean m) s = .next { ((s.homeArrive { m with opc := .evClean }) : State) with pending := s.pending }) ∧
    (∀ (m : Msg),
      exec (.maintcln m) s = .next { ((s.homeArrive { m with opc := .maintCln }) : State) with pending := s.pending }) ∧
    (∀ (m : Msg),
      exec (.maintinv m) s = .next { ((s.homeArrive { m with opc := .maintInv }) : State) with pending := s.pending }) ∧
    (∀ (m : Msg), exec (.deviceLoadTimeout m) s =
      .next { (
        s.devTimeout { m with opc := .rdOnce } : State) with pending := s.pending }) ∧
    (∀ (m : Msg), exec (.unmappedAccess m) s =
      .next { (
        (s.deliver m (fun s m => ((s.unmapped (m.line.toNat * 64 + m.low.toNat) m.attr m.src.val (s.coreOf m)).answerBare m 0))) : State) with pending := s.pending }) ∧
    (∀ (m : Msg), exec (.nonmemCoherentRefuse m) s =
      .next { (
        (s.deliver m (fun s m => s.nonMem m)) : State) with pending := s.pending }) ∧
    (∀ (h : Slice) (ecc : Ecc),
      exec (.homeAdmit h ecc) s = .next { ((s.homeAdmit h.val ecc) : State) with pending := s.pending }) ∧
    (∀ (m : Msg), exec (.snpshared m) s =
      .next { (
        (s.agentArrive { m with opc := .snpShared }) : State) with pending := s.pending }) ∧
    (∀ (m : Msg), exec (.snpunique m) s =
      .next { (
        (s.agentArrive { m with opc := .snpUnique }) : State) with pending := s.pending }) ∧
    (∀ (m : Msg),
      exec (.snpinv m) s = .next { ((s.agentArrive { m with opc := .snpInv }) : State) with pending := s.pending }) ∧
    (∀ (m : Msg),
      exec (.snpcur m) s = .next { ((s.agentArrive { m with opc := .snpCur }) : State) with pending := s.pending }) ∧
    (∀ (m : Msg),
      exec (.snpcln m) s = .next { ((s.agentArrive { m with opc := .snpCln }) : State) with pending := s.pending }) ∧
    (∀ (m : Msg),
      exec (.rspclean m) s = .next { ((s.homeRsp { m with opc := .rspClean }) : State) with pending := s.pending }) ∧
    (∀ (m : Msg),
      exec (.rspclnwb m) s = .next { ((s.homeRsp { m with opc := .rspClnWb }) : State) with pending := s.pending }) ∧
    (∀ (m : Msg),
      exec (.rspi m) s = .next { ((s.homeRsp { m with opc := .rspI }) : State) with pending := s.pending }) ∧
    (∀ (m : Msg),
      exec (.rsps m) s = .next { ((s.homeRsp { m with opc := .rspS }) : State) with pending := s.pending }) ∧
    (∀ (m : Msg),
      exec (.rspifwd m) s = .next { ((s.homeRsp { m with opc := .rspIFwd }) : State) with pending := s.pending }) ∧
    (∀ (m : Msg),
      exec (.rspsfwd m) s = .next { ((s.homeRsp { m with opc := .rspSFwd }) : State) with pending := s.pending }) ∧
    (∀ (m : Msg),
      exec (.rspofwd m) s = .next { ((s.homeRsp { m with opc := .rspOFwd }) : State) with pending := s.pending }) ∧
    (∀ (m : Msg),
      exec (.rspiwb m) s = .next { ((s.homeRsp { m with opc := .rspIWb }) : State) with pending := s.pending }) ∧
    (∀ (m : Msg),
      exec (.rspswb m) s = .next { ((s.homeRsp { m with opc := .rspSWb }) : State) with pending := s.pending }) ∧
    (∀ (m : Msg),
      exec (.rspcurfwd m) s = .next { ((s.homeRsp { m with opc := .rspCurFwd }) : State) with pending := s.pending }) ∧
    (∀ (line : LineAddr) (a : Agent), exec (.snoopTimeout line a) s =
      .next { (
        if a.val < 12 ∧ s.on (STR_STATE.HOLD a.val) then s else s.snoopTimeout (homeOf line.toNat) line.toNat a.val : State) with pending := s.pending }) ∧
    (∀ (m : Msg),
      exec (.datas m) s = .next { ((s.agentArrive { m with opc := .dataS }) : State) with pending := s.pending }) ∧
    (∀ (m : Msg),
      exec (.datae m) s = .next { ((s.agentArrive { m with opc := .dataE }) : State) with pending := s.pending }) ∧
    (∀ (m : Msg),
      exec (.datam m) s = .next { ((s.agentArrive { m with opc := .dataM }) : State) with pending := s.pending }) ∧
    (∀ (m : Msg),
      exec (.grante m) s = .next { ((s.agentArrive { m with opc := .grantE }) : State) with pending := s.pending }) ∧
    (∀ (m : Msg), exec (.dataonce m) s =
      .next { (
        (s.agentArrive { m with opc := .dataOnce }) : State) with pending := s.pending }) ∧
    (∀ (m : Msg),
      exec (.wback m) s = .next { ((s.agentArrive { m with opc := .wbAck }) : State) with pending := s.pending }) ∧
    (∀ (m : Msg), exec (.wbackstale m) s =
      .next { (
        (s.agentArrive { m with opc := .wbAckStale }) : State) with pending := s.pending }) ∧
    (∀ (m : Msg),
      exec (.evack m) s = .next { ((s.agentArrive { m with opc := .evAck }) : State) with pending := s.pending }) ∧
    (∀ (m : Msg), exec (.wrack m) s =
      .next { (
        (if m.dst.val = pirStop then s.pirAck { m with opc := .wrAck } else s.agentArrive { m with opc := .wrAck }) : State) with pending := s.pending }) ∧
    (∀ (m : Msg), exec (.maintack m) s =
      .next { (
        (s.agentArrive { m with opc := .maintAck }) : State) with pending := s.pending }) ∧
    (∀ (m : Msg),
      exec (.compack m) s = .next { ((s.homeRsp { m with opc := .compAck }) : State) with pending := s.pending })

/-- Mesh, router and Stride link events and commands complete: each event is taken by the stop, point, route engine or
hub end of a link that it is about, in every state in which the islands are not stopped. -/
def Obligations.MeshAndLinkEventsComplete : Prop :=
  ∀ s : State, s.stopped = false →
    (∀ (dst src : Stop) (sunit : BitVec 4) (x : CtlOpc) (a b : BitVec 8) (rsv : Bool),
      exec (.crdFlit dst src sunit x a b rsv) s =
      .next { (
        s.crdFlit x.ctl.toNat ⟨dst.val, src.val, sunit.toNat, x.kind.toNat, a.toNat, b.toNat⟩ rsv : State) with pending := s.pending }) ∧
    (∀ (r : Stop) (l : Load) (err : BitVec 2), exec (.meshLinkEccError r l err) s =
      .next { (
        s.linkError r.val l err.toNat : State) with pending := s.pending }) ∧
    (∀ (st : Stop) (id : BitVec 10), exec (.requestTimeout st id) s =
      .next { (
        s.requestTimeout st.val id.toNat : State) with pending := s.pending }) ∧
    (∀ (p : BitVec 4) (free : BitVec 3), exec (.pacerRelease p free) s =
      .next { (
        State.paceCycle p.toNat 3 (bitsOf free) s : State) with pending := s.pending }) ∧
    (∀ (p c : BitVec 4) (v : BitVec 64) (d : Dev), exec (.meshPcrWrite p c v d) s =
      .next { (
        if p = 15 then (s.logReg (prsAddr (MESH_PCR.RATE 15 c.toNat).addr)).reply 0 0
        else s.prsWrite d (MESH_PCR.RATE p.toNat c.toNat).addr 8 false (fun s => s.pcrWrite p.toNat c.toNat v.toNat) : State) with pending := s.pending }) ∧
    (∀ (st : Stop), exec (.stopDrained st) s = .next { (s.stopDrained st.val : State) with pending := s.pending }) ∧
    (∀ (st : Stop),
      exec (.stopDrainTimeout st) s = .next { (s.drainTimeout st.val : State) with pending := s.pending }) ∧
    (∀ (r : Stop), exec (.routerFault r) s = .next { (s.routerFault r.val : State) with pending := s.pending }) ∧
    (∀ (op : BitVec 4) (r : Stop) (d : Dev), exec (.markDead op r d) s =
      .next { (
        s.prsWrite d MESH_RECFG.OP.addr 4 false (fun s => s.markDead op.toNat r.val) : State) with pending := s.pending }) ∧
    (exec .recfgComputeDone s =
      .next { (
        if s.rd MESH_RECFG_STS.PHASE = 1 then s.wr MESH_RECFG_STS.PHASE 2 else s : State) with pending := s.pending }) ∧
    (exec .recfgInstallDone s = .next { (s.recfgInstall : State) with pending := s.pending }) ∧
    (exec .recfgDrainEmpty s = .next { (s.recfgEmpty : State) with pending := s.pending }) ∧
    (∀ (lost : List Load),
      exec (.recfgDrainTimeout lost) s = .next { (s.recfgIsolate lost : State) with pending := s.pending }) ∧
    (∀ (t : Tcd), exec (.linkSidebandReady t) s = .next { (s.sidebandReady t.val : State) with pending := s.pending }) ∧
    (∀ (t : Tcd) (r : BitVec 128), exec (.capabilityExchange t r) s =
      .next { (
        s.capExchange t.val r : State) with pending := s.pending }) ∧
    (∀ (t : Tcd) (lock : BitVec 16) (bad : List (BitVec 4 × BitVec 7)), exec (.trainingAttemptEnd t lock bad) s =
      .next { (
        s.attemptEnd t.val lock bad : State) with pending := s.pending }) ∧
    (∀ (t : Tcd),
      exec (.trainingAttemptTimeout t) s = .next { (s.attemptTimeout t.val : State) with pending := s.pending }) ∧
    (∀ (t : Tcd) (mask : BitVec 16) (width set : BitVec 2) (seq : BitVec 16),
      exec (.widthCheckMsg t mask width set seq) s =
      .next { (
        s.widthCheck t.val mask.toNat width.toNat set.toNat seq.toNat : State) with pending := s.pending }) ∧
    (∀ (t : Tcd) (c0 c1 c2 : BitVec 7), exec (.creditRestoreDone t c0 c1 c2) s =
      .next { (
        s.creditRestore t.val (c0.toNat, c1.toNat, c2.toNat) : State) with pending := s.pending }) ∧
    (∀ (t : Tcd), exec (.linkReset t) s = .next { (s.linkReset t.val : State) with pending := s.pending }) ∧
    (∀ (t : Tcd) (g : BitVec 4), exec (.groupClockLoss t g) s =
      .next { (
        s.clockLoss t.val g.toNat : State) with pending := s.pending }) ∧
    (∀ (t : Tcd) (g : BitVec 4) (w : BitVec 7), exec (.wireRepairThreshold t g w) s =
      .next { (
        s.wireBad t.val g.toNat w.toNat : State) with pending := s.pending }) ∧
    (∀ (t : Tcd) (toDie : Bool) (x : LinkSlot) (again : Bool), exec (.strideSlotReceive t toDie x again) s =
      .next { (
        if toDie then s.slotToDie t.val x.err else s.slotTake t.val x again : State) with pending := s.pending }) ∧
    (∀ (t : Tcd) (w : BitVec 128), exec (.linkReplayRequest t w) s =
      .next { (
        s.replayRequest t.val w : State) with pending := s.pending }) ∧
    (∀ (t : Tcd) (w : BitVec 128), exec (.linkCreditReturn t w) s =
      .next { (
        s.creditReturn t.val w : State) with pending := s.pending }) ∧
    (∀ (t : Tcd) (d : Dev), exec (.retrain t d) s =
      .next { (
        s.prsWrite d (STR_CMD.OP t.val).addr 4 false (fun s =>
        if s.linkState t.val = 2 then (s.strSts t.val OK).retrain t.val else s.strSts t.val ESTATE) : State) with pending := s.pending }) ∧
    (∀ (t : Tcd) (pattern : BitVec 4) (point : BitVec 2) (d : Dev), exec (.loopback t pattern point d) s =
      .next { (
        s.prsWrite d (STR_CMD.OP t.val).addr 4 false (fun s => s.loopback t.val pattern.toNat point.toNat) : State) with pending := s.pending }) ∧
    (∀ (t : Tcd) (d : Dev), exec (.lbStop t d) s =
      .next { (
        s.prsWrite d (STR_CMD.OP t.val).addr 4 false (fun s => s.lbStop t.val) : State) with pending := s.pending })

/-- Memory channel and parity engine events and commands complete: each request or event is taken by its freeze unit
or parity group, each command under its operation number, in every state in which the islands are not stopped. -/
def Obligations.ChannelAndParityEventsComplete : Prop :=
  ∀ s : State, s.stopped = false →
    (∀ (r : MemReq), exec (.mchReadArrive r) s =
      .next { (
        (s.chArrive { r with wr := false } ⟨0, .ok⟩) : State) with pending := s.pending }) ∧
    (∀ (r : MemReq) (e : DramErr), exec (.mchWriteArrive r e) s =
      .next { (
        (s.chArrive { r with wr := true } e) : State) with pending := s.pending }) ∧
    (∀ (ch : Chan) (line : LineAddr) (e : DramErr) (syn : BitVec 128), exec (.dramReadReturn ch line e syn) s =
      .next { (
        (s.readReturn ch.val line.toNat (s.eccOf ch.val e) syn.toNat) : State) with pending := s.pending }) ∧
    (∀ (ch : Chan) (line : LineAddr) (syn : BitVec 128), exec (.dramReadUncorrectable ch line syn) s =
      .next { (
        (match (s.chan ch.val).rq.find? (fun e => e.issued && !e.req.ofXcp && e.req.line == line) with
        | some e => s.uncorrectable ch.val line.toNat e.req.attr.enc.toNat syn.toNat
        | none => s) : State) with pending := s.pending }) ∧
    (∀ (ch : Chan), exec (.writeAgeExpire ch) s =
      .next { (
        (let x := s.chan ch.val
        if x.wq.isEmpty then s else s.setChan ch.val { x with drain := .level }) : State) with pending := s.pending }) ∧
    (∀ (ch : Chan) (sc : BitVec 1) (rk : BitVec 3), exec (.refreshDue ch sc rk) s =
      .next { (
        (s.refresh ch.val sc.toNat rk.toNat) : State) with pending := s.pending }) ∧
    (∀ (ch : Chan) (hot : Bool), exec (.mr4Poll ch hot) s =
      .next { (
        (s.wr (rfHot ch.val) hot.toNat) : State) with pending := s.pending }) ∧
    (∀ (ch : Chan) (bank : BitVec 9), exec (.rowDisturbRefresh ch bank) s =
      .next { (
        (s.disturb ch.val bank.toNat) : State) with pending := s.pending }) ∧
    (∀ (ch : Chan), exec (.actTableClear ch) s =
      .next { (
        (s.setChan ch.val { s.chan ch.val with acts := [] }) : State) with pending := s.pending }) ∧
    (∀ (ch : Chan) (p : ScrubAt) (e : DramErr) (syn : BitVec 128), exec (.patrolScrub ch p e syn) s =
      .next { (
        (s.scrub ch.val p (s.eccOf ch.val e) syn.toNat) : State) with pending := s.pending }) ∧
    (∀ (ch : Chan) (dcmd : BitVec 4) (line : LineAddr) (again : Bool), exec (.caParityAlert ch dcmd line again) s =
      .next { (
        (s.retryCmd ch.val (chCAPAR ch.val) dcmd.toNat line.toNat again) : State) with pending := s.pending }) ∧
    (∀ (ch : Chan) (line : LineAddr) (again : Bool), exec (.writeCrcFail ch line again) s =
      .next { (
        (s.retryCmd ch.val (chWCRC ch.val) 2 line.toNat again) : State) with pending := s.pending }) ∧
    (∀ (ch : Chan),
      exec (.phyLockLoss ch) s = .next { ((s.freeze ch.val ⟨3, 5, none, 0, 0⟩) : State) with pending := s.pending }) ∧
    (∀ (ch : Chan) (x : Retuned), exec (.dqsRetune ch x) s =
      .next { (
        (s.retune ch.val x.ok x.lines) : State) with pending := s.pending }) ∧
    (∀ (ch : Chan) (ready : BitVec 512), exec (.dramCommandIssue ch ready) s =
      .next { (
        (s.schedule ch.val ready) : State) with pending := s.pending }) ∧
    (∀ (ch : Chan), exec (.resume ch) s = .next { ((s.chStart ch.val .resume 1) : State) with pending := s.pending }) ∧
    (∀ (ch : Chan) (kind : BitVec 2) (sc : BitVec 1) (rk bg : BitVec 3) (ba : BitVec 2) (row : BitVec 17),
      exec (.repair ch kind sc rk bg ba row) s =
      .next { (
        s.chRepair ch.val kind.toNat sc.toNat rk.toNat bg.toNat ba.toNat row.toNat : State) with pending := s.pending }) ∧
    (∀ (ch : Chan), exec (.mchFence ch) s = .next { ((s.chFence ch.val) : State) with pending := s.pending }) ∧
    (∀ (ch : Chan), exec (.resumeDone ch) s =
      .next { (
        (if (s.chan ch.val).op = some .resume then s.chBack ch.val else s) : State) with pending := s.pending }) ∧
    (∀ (ch : Chan) (spare : Bool) (bad : List LineAddr), exec (.repairDone ch spare bad) s =
      .next { (
        (s.repairDone ch.val spare bad) : State) with pending := s.pending }) ∧
    (∀ (enc : BitVec 10),
      exec (.channelKeyLoad enc) s = .next { ((s.newKey enc.toNat) : State) with pending := s.pending }) ∧
    (∀ (ch : Chan),
      exec (.xcpDeltaArrive ch) s = .next { ((s.deltaArrive ch.val) : State) with pending := s.pending }) ∧
    (∀ (x : ParityRead), exec (.parityUpdateArrive x) s =
      .next { (
        (s.updateArrive x.ch.val (s.eccOf x.ch.val x.e)) : State) with pending := s.pending }) ∧
    (∀ (r : MemReq), exec (.xcpReadHandover r) s = .next { ((s.readHandover r) : State) with pending := s.pending }) ∧
    (∀ (r : MemReq), exec (.xcpWriteHandover r) s = .next { ((s.writeHandover r) : State) with pending := s.pending }) ∧
    (∀ (g : BitVec 1) (stripe : BitVec 40), exec (.xcpRebuildLock g stripe) s =
      .next { (
        (s.rebuildLock g.toNat stripe.toNat) : State) with pending := s.pending }) ∧
    (∀ (g : BitVec 1) (stripe : BitVec 40) (x : MemberFound), exec (.xcpMemberAnswer g stripe x) s =
      .next { (
        (s.memberAnswer g.toNat stripe.toNat (match x.m with
        | some ch => .chan ch.toNat
        | none => .delta) x.e x.syn.toNat) : State) with pending := s.pending }) ∧
    (∀ (x : ResyncRead), exec (.resyncStripe x) s =
      .next { (
        (s.resyncStripe x.g.toNat (x.m.map (fun ch => ch.toNat)) x.e) : State) with pending := s.pending }) ∧
    (∀ (m : BitVec 2), exec (.xcpInit m) s = .next { ((s.xcpCmd 1 m.toNat) : State) with pending := s.pending }) ∧
    (exec .xcpInitDone s = .next { (s.initDone : State) with pending := s.pending }) ∧
    (∀ (m : BitVec 2), exec (.xcpRebuild m) s = .next { ((s.xcpCmd 2 m.toNat) : State) with pending := s.pending }) ∧
    (∀ (m : BitVec 2), exec (.xcpMarkAll m) s = .next { ((s.xcpCmd 3 m.toNat) : State) with pending := s.pending }) ∧
    (∀ (g : BitVec 1) (stripe : BitVec 40), exec (.deltaLineUncorrectable g stripe) s =
      .next { (
        (s.deltaBad g.toNat stripe.toNat) : State) with pending := s.pending }) ∧
    (∀ (v : BitVec 32), exec (.xcpCtlWrite v) s = .next { ((s.xcpCtlWrite v.toNat) : State) with pending := s.pending })

/-- Calls of the SEP and requests of the PMC complete: each call is taken from the head of its mailbox under its code
of R326 or R462, in every state (an event of the islands: in every state in which they are not stopped). -/
def Obligations.FirmwareCallsComplete : Prop :=
  ∀ s : State,
    (∀ (q : BitVec 2),
      exec (.encCreate q) s = .next { ((s.sepRun q.toNat 1 State.encCreate) : State) with pending := s.pending }) ∧
    (∀ (q : BitVec 2), exec (.encAdd q) s =
      .next { (
        (s.ownCall q.toNat 2 3 State.encAddCheck) : State) with pending := s.pending }) ∧
    (∀ (q : BitVec 2),
      exec (.encSeal q) s = .next { ((s.sepRun q.toNat 3 State.encSeal) : State) with pending := s.pending }) ∧
    (∀ (q : BitVec 2), exec (.encRemove q) s =
      .next { (
        (s.ownCall q.toNat 4 2 State.encRemoveCheck) : State) with pending := s.pending }) ∧
    (∀ (q : BitVec 2), exec (.encDestroy q) s =
      .next { (
        (s.sepRun q.toNat 5 State.encDestroy) : State) with pending := s.pending }) ∧
    (∀ (q : BitVec 2), exec (.encAttest q) s =
      .next { (
        (match s.fwPeek (2 * q.toNat) with
        | none => s
        | some x =>
          if x.val % 256 ≠ 6 ∨ s.own.isSome = true ∨ s.fwRoom (2 * q.toNat + 1) 4 = false then s
          else
            match (s.fwTake (2 * q.toNat)).encAttest x.call with
            | none => s
            | some r => r.1.sepAnswer q.toNat x.call.tag x.world x.enc r.2.1 r.2.2) : State) with pending := s.pending }) ∧
    (∀ (q : BitVec 2),
      exec (.assign q) s = .next { ((s.sepRun q.toNat 7 State.assignCall) : State) with pending := s.pending }) ∧
    (∀ (q : BitVec 2),
      exec (.claim q) s = .next { ((s.sepRun q.toNat 8 State.claimCall) : State) with pending := s.pending }) ∧
    (∀ (q : BitVec 2),
      exec (.release q) s = .next { ((s.sepRun q.toNat 9 State.releaseCall) : State) with pending := s.pending }) ∧
    (∀ (q : BitVec 2),
      exec (.dbgSet q) s = .next { ((s.sepRun q.toNat 10 State.dbgSet) : State) with pending := s.pending }) ∧
    (∀ (d : Dom),
      exec (.claimTimeoutExpire d) s = .next { ((s.claimExpire d.val) : State) with pending := s.pending }) ∧
    (exec .ownershipCallResume s = .next { (s.ownResume : State) with pending := s.pending }) ∧
    (∀ (rid : BitVec 16),
      exec (.ideTlpFail rid) s = .next { ((s.ideFail rid.toNat) : State) with pending := s.pending }) ∧
    (∀ (q : BitVec 1),
      exec (.domOn q) s = .next { ((s.pmcRun q 1 (fun s c => s.domReq 1 c)) : State) with pending := s.pending }) ∧
    (∀ (q : BitVec 1), exec (.domOff q) s =
      .next { (
        (s.pmcRun q 2 (fun s c => s.domReq 2 c)) : State) with pending := s.pending }) ∧
    (∀ (q : BitVec 1), exec (.domGate q) s =
      .next { (
        (s.pmcRun q 3 (fun s c => s.domReq 3 c)) : State) with pending := s.pending }) ∧
    (∀ (d : Dom), exec (.domainPowered d) s = .next { ((s.domPowered d.val) : State) with pending := s.pending }) ∧
    (∀ (q : BitVec 1),
      exec (.clusPerf q) s = .next { ((s.pmcRun q 4 State.clusPerf) : State) with pending := s.pending }) ∧
    (∀ (q : BitVec 1),
      exec (.coreOffline q) s = .next { ((s.pmcRun q 5 State.coreOffline) : State) with pending := s.pending }) ∧
    (∀ (q : BitVec 1),
      exec (.coreOnline q) s = .next { ((s.pmcRun q 6 State.coreOnline) : State) with pending := s.pending }) ∧
    (∀ (q : BitVec 1), exec (.setLimit q) s =
      .next { (
        (s.pmcRun q 7 (fun s c => let r := s.setLimit c.secure c.arg (c.bad || c.target != 0); (r.1, some (r.2, 0)))) : State) with pending := s.pending }) ∧
    (∀ (q : BitVec 1),
      exec (.setRide q) s = .next { ((s.pmcRun q 8 State.setRide) : State) with pending := s.pending }) ∧
    (∀ (q : BitVec 1),
      exec (.pmcQuery q) s = .next { ((s.pmcRun q 9 State.pmcQuery) : State) with pending := s.pending }) ∧
    (∀ (busy : BitVec 72),
      exec (.pmcControlInterval busy) s = .next { ((s.pmcInterval busy) : State) with pending := s.pending }) ∧
    (∀ (k : BitVec 7),
      exec (.voltageRampDone k) s = .next { ((s.rampDone k.toNat) : State) with pending := s.pending }) ∧
    (∀ (c : Core), s.stopped = false →
      exec (.idle2Entry c) s = .next { (s.idle2 c.val : State) with pending := s.pending })

/-- Events of the TQE's functions, windows, rings and movers complete: each event is taken by the function, window,
ring, lane or mover it names, in every state in which the islands are not stopped. -/
def Obligations.TqeEventsComplete : Prop :=
  ∀ s : State, s.stopped = false →
    (∀ (f : Fn), exec (.bmeClear f) s = .next { ((s.bmeClear f.val) : State) with pending := s.pending }) ∧
    (∀ (f : Fn), exec (.bmeSet f) s = .next { ((s.bmeSet f.val) : State) with pending := s.pending }) ∧
    (∀ (f : Fn), exec (.flr f) s = .next { ((s.flr f.val) : State) with pending := s.pending }) ∧
    (∀ (f : Fn), exec (.flrComplete f) s = .next { ((s.flrDone f.val) : State) with pending := s.pending }) ∧
    (∀ (f : Fn), exec (.msixEnableSet f) s = .next { ((s.msixEnable f.val) : State) with pending := s.pending }) ∧
    (∀ (f : Fn) (v : Option (BitVec 11)), exec (.msixVectorUnmask f v) s =
      .next { (
        (s.msixUnmask f.val (v.map (fun v => v.toNat))) : State) with pending := s.pending }) ∧
    (∀ (m : Msg) (rid : BitVec 16), exec (.peerPiece m rid) s =
      .next { (
        (s.peerPiece m rid.toNat) : State) with pending := s.pending }) ∧
    (∀ (n : BitVec 16) (v : BitVec 64) (d : Dev), exec (.tqeWinLowWrite n v d) s =
      .next { (
        (s.barAccess 0 (s.winAddr n.toNat false) 8 true d (fun s => (s.winLow n.toNat v.toNat).reply 0 0)) : State) with pending := s.pending }) ∧
    (∀ (n : BitVec 16) (v : BitVec 64) (d : Dev), exec (.tqeWinHighWrite n v d) s =
      .next { (
        (s.barAccess 0 (s.winAddr n.toNat true) 8 true d (fun s => (s.winHigh n.toNat v.toNat).reply 0 0)) : State) with pending := s.pending }) ∧
    (∀ (d : Dev), exec (.tqeWinFenceRead d) s =
      .next { (
        (s.barAccess 0 (s.ep.bar0 + 0x20) 4 false d State.fenceRead) : State) with pending := s.pending }) ∧
    (exec .tqeWinFenceReturn s = .next { (s.fenceReturn : State) with pending := s.pending }) ∧
    (∀ (line : LineAddr), exec (.tqeCompletionTimeout line) s =
      .next { (
        (s.cplTimeout line.toNat) : State) with pending := s.pending }) ∧
    (∀ (octet : BitVec 17), exec (.doorbellReadComplete octet) s =
      .next { (
        (s.bellDone octet.toNat) : State) with pending := s.pending }) ∧
    (∀ (octet : BitVec 17), exec (.doorbellRetry octet) s =
      .next { (
        (s.bellRetry octet.toNat) : State) with pending := s.pending }) ∧
    (∀ (r : Ring), exec (.descriptorFetch r) s = .next { ((s.fetchDesc r.val) : State) with pending := s.pending }) ∧
    (exec .moverStart s = .next { (s.moverStart : State) with pending := s.pending }) ∧
    (∀ (mv : BitVec 5),
      exec (.copy mv) s = .next { ((s.opRun mv.toNat 1 State.opCopy) : State) with pending := s.pending }) ∧
    (∀ (mv : BitVec 5),
      exec (.fill mv) s = .next { ((s.opRun mv.toNat 2 State.opFill) : State) with pending := s.pending }) ∧
    (∀ (mv : BitVec 5),
      exec (.compare mv) s = .next { ((s.opRun mv.toNat 3 State.opCompare) : State) with pending := s.pending }) ∧
    (∀ (mv : BitVec 5),
      exec (.crc32c mv) s = .next { ((s.opRun mv.toNat 4 State.opCrc) : State) with pending := s.pending }) ∧
    (∀ (mv : BitVec 5),
      exec (.gcmEnc mv) s = .next { ((s.opRun mv.toNat 5 State.opGcmEnc) : State) with pending := s.pending }) ∧
    (∀ (mv : BitVec 5),
      exec (.gcmDec mv) s = .next { ((s.opRun mv.toNat 6 State.opGcmDec) : State) with pending := s.pending }) ∧
    (∀ (mv : BitVec 5), exec (.xtsEnc mv) s =
      .next { (
        (s.opRun mv.toNat 7 (State.opXts true)) : State) with pending := s.pending }) ∧
    (∀ (mv : BitVec 5), exec (.xtsDec mv) s =
      .next { (
        (s.opRun mv.toNat 8 (State.opXts false)) : State) with pending := s.pending }) ∧
    (∀ (mv : BitVec 5),
      exec (.peer mv) s = .next { ((s.opRun mv.toNat 9 State.opPeer) : State) with pending := s.pending }) ∧
    (∀ (mv : BitVec 5), exec (.nop mv) s =
      .next { (
        (s.opRun mv.toNat 0x0F (fun s _ _ _ => (s.job, (OK, 0)))) : State) with pending := s.pending }) ∧
    (∀ (r : Ring), exec (.descriptorCommit r) s = .next { ((s.commit r.val) : State) with pending := s.pending }) ∧
    (∀ (x : PtrCopies),
      exec (.ptrCopyMismatch x) s = .next { ((s.ptrMismatch x.r.val x.ctx) : State) with pending := s.pending }) ∧
    (∀ (mv : BitVec 5), exec (.moverFifoReset mv) s =
      .next { (
        (match s.runs.find? (fun p => p.2.any (fun x => x.mover == some mv.toNat && x.fin.isNone)) with
        | some (r, l) =>
          (match l.find? (fun x => x.mover == some mv.toNat && x.fin.isNone) with
          | some x => (s.modRun r x.idx (fun y => { y with fin := some (QRESET, 0) })).raise TQE_RSTS.fMVRESET
          | none => s)
        | none => s) : State) with pending := s.pending })

/-- Admin, key store and instance commands of the TQE complete: each command is taken from the head of its function's
admin queue under its own code, in every state (an event of the islands: in every state in which they are not
stopped). -/
def Obligations.TqeCommandsComplete : Prop :=
  ∀ s : State,
    (∀ (f : Fn) (v : BitVec 32) (d : Dev), s.stopped = false → exec (.tqeAdmInWrite f v d) s =
      .next { (
        (s.barAccess f.val (s.admAddr f.val 0) 4 true d (fun s => (s.admWord f.val v.toNat).reply 0 0)) : State) with pending := s.pending }) ∧
    (∀ (f : Fn) (v : BitVec 32) (d : Dev), s.stopped = false → exec (.tqeAdmEndWrite f v d) s =
      .next { (
        (s.barAccess f.val (s.admAddr f.val 8) 4 true d (fun s => (s.admSubmit f.val v.toNat d).reply 0 0)) : State) with pending := s.pending }) ∧
    (∀ (f : Fn), s.stopped = false → exec (.ringGrant f) s =
      .next { (
        (s.admRun f.val 1 (fun s c => s.ringGrant f.val c)) : State) with pending := s.pending }) ∧
    (∀ (f : Fn), s.stopped = false → exec (.ringSetup f) s =
      .next { (
        (s.admRun f.val 2 (fun s c => s.ringSetup f.val c)) : State) with pending := s.pending }) ∧
    (∀ (f : Fn), s.stopped = false → exec (.ringEnable f) s =
      .next { (
        (s.admRun f.val 3 (fun s c => s.ringEnable f.val c)) : State) with pending := s.pending }) ∧
    (∀ (f : Fn), s.stopped = false → exec (.ringDisable f) s =
      .next { (
        (s.admRunW f.val 4 (fun s c => s.ringDisable f.val c)) : State) with pending := s.pending }) ∧
    (∀ (f : Fn), s.stopped = false → exec (.ringReset f) s =
      .next { (
        (s.admRun f.val 5 (fun s c => s.ringReset f.val c)) : State) with pending := s.pending }) ∧
    (∀ (f : Fn), s.stopped = false → exec (.fnClass f) s =
      .next { (
        (s.admRun f.val 6 (fun s c => s.fnClass f.val c)) : State) with pending := s.pending }) ∧
    (∀ (f : Fn), s.stopped = false → exec (.ringQuery f) s =
      .next { (
        (s.admRun f.val 7 (fun s c => s.ringQuery f.val c)) : State) with pending := s.pending }) ∧
    (∀ (f : Fn) (hi : Bool) (lg half : BitVec 2) (d : Dev), s.stopped = false → exec (.admAnswerPop f hi lg half d) s =
      .next { (
        let addr := s.admAddr f.val (if hi then 0x18 else 0x10) + 4 * half.toNat
        (s.barAccess f.val addr (2 ^ lg.toNat) false d (fun s =>
          if lg.toNat < 2 ∨ (lg.toNat = 3 ∧ half.toNat ≠ 0) ∨ 2 ≤ half.toNat then (s.logRegBy (0x0F, f.val) addr).reply 0 0
          else s.admRead f.val hi lg.toNat half.toNat)) : State) with pending := s.pending }) ∧
    (∀ (f : Fn), s.stopped = false → exec (.admQueueReset f) s =
      .next { (
        let x := s.q f.val
        ((s.setQ f.val { x with part := [], partDrop := false, partNoTag := false, cmds := [], out := [] }).raise
          (admQRESET f.val)) : State) with pending := s.pending }) ∧
    (∀ (f : Fn), s.stopped = false → exec (.keyBind f) s =
      .next { (
        (s.admRun f.val 0x20 (fun s c => s.keyBind f.val c)) : State) with pending := s.pending }) ∧
    (∀ (f : Fn), s.stopped = false → exec (.keyPut f) s =
      .next { (
        (s.admRun f.val 0x21 (fun s c => s.keyPut f.val c)) : State) with pending := s.pending }) ∧
    (∀ (f : Fn), s.stopped = false → exec (.keyGen f) s =
      .next { (
        (s.admRun f.val 0x22 (fun s c => s.keyGen f.val c)) : State) with pending := s.pending }) ∧
    (∀ (f : Fn), s.stopped = false → exec (.keyUnwrap f) s =
      .next { (
        (s.admRunW f.val 0x23 (fun s c => s.keyUnwrap f.val c)) : State) with pending := s.pending }) ∧
    (∀ (f : Fn), s.stopped = false → exec (.keyWrap f) s =
      .next { (
        (s.admRunW f.val 0x24 (fun s c => s.keyWrap f.val c)) : State) with pending := s.pending }) ∧
    (s.stopped = false → exec .keyWrapEngineDone s = .next { (s.kwDone : State) with pending := s.pending }) ∧
    (∀ (f : Fn), s.stopped = false → exec (.keyErase f) s =
      .next { (
        (s.admRunW f.val 0x25 (fun s c => s.keyErase f.val c)) : State) with pending := s.pending }) ∧
    (∀ (f : Fn), s.stopped = false → exec (.keyQuery f) s =
      .next { (
        (s.admRun f.val 0x26 (fun s c => s.keyQuery f.val c)) : State) with pending := s.pending }) ∧
    (∀ (cause : BitVec 5), s.stopped = false → exec (.keyAlarm cause) s =
      .next { (
        (if cause = 0 then s else s.keyAlarm cause.toNat) : State) with pending := s.pending }) ∧
    (s.stopped = false → exec .keyAlarmRearm s =
      .next { (
        (if s.rd TQE_KALARM.STATE = 1 then s.wr TQE_KALARM.STATE 0 else s) : State) with pending := s.pending }) ∧
    (∀ (lane : BitVec 4), exec (.drbgReseed lane) s =
      .next { (
        let v := s.free
        (if s.stopped then s else { v.2 with drbg := Tbl.set s.drbg lane.toNat v.1.toNat }) : State) with pending := s.pending }) ∧
    (∀ (slot : BitVec 16), s.stopped = false → exec (.keySlotError slot) s =
      .next { (
        (s.slotError slot.toNat) : State) with pending := s.pending }) ∧
    (s.stopped = false → exec .keyAlarmWindowExpire s =
      .next { (
        ({ s with alarms := s.alarms.tail }.wr TQE_KALARM.COUNT (min s.alarms.tail.length 16)) : State) with pending := s.pending }) ∧
    (∀ (f : Fn) (pf : Bool) (d : Dev), s.stopped = false → exec (.mbSend f pf d) s =
      .next { (
        (s.mbAccess f.val pf 0x24 d (fun s => s.mbSend pf f.val)) : State) with pending := s.pending }) ∧
    (∀ (f : Fn) (pf : Bool) (d : Dev), s.stopped = false → exec (.mbInFullClear f pf d) s =
      .next { (
        (s.mbAccess f.val pf 0x20 d (fun s => s.mbTake pf f.val)) : State) with pending := s.pending }) ∧
    (∀ (f : Fn), s.stopped = false → exec (.instFreeze f) s =
      .next { (
        (s.admRunW f.val 0x30 (fun s c => s.instFreeze f.val c)) : State) with pending := s.pending }) ∧
    (∀ (f : Fn), s.stopped = false → exec (.instSave f) s =
      .next { (
        (s.admRunT f.val 0x31 (fun s c => s.instSave f.val c)) : State) with pending := s.pending }) ∧
    (∀ (f : Fn), s.stopped = false → exec (.instRestore f) s =
      .next { (
        (s.admRunT f.val 0x32 (fun s c => s.instRestore f.val c)) : State) with pending := s.pending }) ∧
    (∀ (f : Fn), s.stopped = false → exec (.instResume f) s =
      .next { (
        (s.admRun f.val 0x33 (fun s c => s.instResume f.val c)) : State) with pending := s.pending }) ∧
    (∀ (f : Fn), s.stopped = false → exec (.dirtyStart f) s =
      .next { (
        (s.admRun f.val 0x34 (fun s c => s.dirtyStart f.val c)) : State) with pending := s.pending }) ∧
    (∀ (f : Fn), s.stopped = false → exec (.dirtySync f) s =
      .next { (
        (s.admRun f.val 0x35 (fun s c => s.dirtySync f.val c false)) : State) with pending := s.pending }) ∧
    (∀ (f : Fn), s.stopped = false → exec (.dirtyStop f) s =
      .next { (
        (s.admRun f.val 0x36 (fun s c => s.dirtySync f.val c true)) : State) with pending := s.pending }) ∧
    (∀ (f : Fn), s.stopped = false → exec (.instQuery f) s =
      .next { (
        (s.admRun f.val 0x37 (fun s c => s.instQuery f.val c)) : State) with pending := s.pending })

/-- Interrupt sources, messages, deliveries and mailbox accesses complete: each event is taken by the source, the
controller or the core it is about, each access by its mailbox, in every state in which the islands are not stopped.
-/
def Obligations.InterruptAndMailboxCommandsComplete : Prop :=
  ∀ s : State, s.stopped = false →
    (∀ (n : BitVec 8) (level : Bool), exec (.wiredSourceLevel n level) s =
      .next { (
        (if (56 ≤ n.toNat ∧ n.toNat < 78) ∨ 192 ≤ n.toNat then s
        else
          let s := if n.toNat < 16 then s.wr (SB_CTL.IN n.toNat) level.toNat else s
          s.srcInput n.toNat level) : State) with pending := s.pending }) ∧
    (∀ (n : BitVec 8), exec (.wiredSourceEdge n) s =
      .next { (
        (if n.toNat < 16 ∧ s.on (PIR_SRC.TRIG n.toNat) then
          ((s.wr (PIR_SRC.LEVEL n.toNat) 1).wr (PIR_SRC.PEND n.toNat) 1).srcTry n.toNat false
        else s) : State) with pending := s.pending }) ∧
    (∀ (n : BitVec 8) (v : BitVec 64) (d : Dev), exec (.pirSrcDone n v d) s =
      .next { (
        (s.srcWrite n.toNat (v ||| 8).toNat d) : State) with pending := s.pending }) ∧
    (∀ (n : BitVec 8) (v : BitVec 64) (d : Dev), exec (.pirSrcWrite n v d) s =
      .next { (
        (s.srcWrite n.toNat v.toNat d) : State) with pending := s.pending }) ∧
    (∀ (m : Msg),
      exec (.msiMessage m) s = .next { ((s.msiArrive { m with opc := .wrPart }) : State) with pending := s.pending }) ∧
    (∀ (v : BitVec 32) (d : Dev), exec (.mttInvalidate v d) s =
      .next { (
        (s.mttInvalidate v.toNat d) : State) with pending := s.pending }) ∧
    (exec .postedDelivery s = .next { (s.postNext : State) with pending := s.pending }) ∧
    (∀ (c : Core) (vec : BitVec 8) (world : Bool), exec (.interruptArrive c vec world) s =
      .next { (
        (s.intArrive c.val vec.toNat world) : State) with pending := s.pending }) ∧
    (∀ (c : Core), exec (.interruptTake c) s = .next { ((s.intTake c.val) : State) with pending := s.pending }) ∧
    (∀ (m : BitVec 6) (v : BitVec 32) (d : Dev), exec (.mbxInWrite m v d) s =
      .next { (
        (s.mbWrite m.toNat v.toNat none d) : State) with pending := s.pending }) ∧
    (∀ (m : BitVec 6) (v : BitVec 64) (d : Dev), exec (.mbxEndWrite m v d) s =
      .next { (
        ((s.mbWrite m.toNat v.toNat (some (v.toNat / 2 ^ 32 % 4 + 1)) d).fwGo m.toNat) : State) with pending := s.pending }) ∧
    (∀ (m : BitVec 6) (v : BitVec 32) (d : Dev), exec (.mbxDbSetWrite m v d) s =
      .next { (
        (s.mbDbSet m.toNat v.toNat d) : State) with pending := s.pending }) ∧
    (∀ (m : BitVec 6) (lg half : BitVec 2) (d : Dev), exec (.mbxOutHiRead m lg half d) s =
      .next { (
        (s.mbOut m.toNat true lg.toNat half.toNat d) : State) with pending := s.pending }) ∧
    (∀ (m : BitVec 6) (v : BitVec 32) (d : Dev), exec (.mbxDbClear m v d) s =
      .next { (
        (s.mbDbClear m.toNat v.toNat d) : State) with pending := s.pending }) ∧
    (∀ (m : BitVec 6), exec (.mbxPtrMismatch m) s = .next { ((s.mbForce m.toNat) : State) with pending := s.pending }) ∧
    (∀ (m : BitVec 6), exec (.mbxAgeDrop m) s = .next { ((s.mbAge m.toNat) : State) with pending := s.pending })

/-- Supply, mains, cooling, counter, metering and error events complete: each event is taken by the PMC, the counter
bank, the split unit or ERR, in every state (an event of the islands: in every state in which they are not stopped).
-/
def Obligations.PowerAndErrorEventsComplete : Prop :=
  ∀ s : State,
    (exec .aonSupplyGood s = .next { (s.aonGood : State) with pending := s.pending }) ∧
    (exec .aonSupplyLoss s = .next { (s.aonLoss : State) with pending := s.pending }) ∧
    (exec .bootRequest s = .next { (s.bootReq.1 : State) with pending := s.pending }) ∧
    (∀ (d : Dev), s.stopped = false → exec (.handoffRun d) s =
      .next { (
        s.prsWrite d HUB_BOOT.RUN.addr 4 true (fun s => s.handoff) : State) with pending := s.pending }) ∧
    (∀ (ring : Bool), exec (.mainsLoss ring) s = .next { ((s.mainsLoss ring) : State) with pending := s.pending }) ∧
    (exec .mainsReturn s = .next { (s.mainsReturn : State) with pending := s.pending }) ∧
    (exec .pwrfailNRise s =
      .next { (
        (if s.sys.pwrfailN then s
        else { s with sys := { s.sys with pwrfailN := true }, pmc := { s.pmc with backAt := some s.now.toNat } }) : State) with pending := s.pending }) ∧
    (exec .batteryReserve s = .next { ((s.reserveFrame (s.rmcReport 3 0xFF [])) : State) with pending := s.pending }) ∧
    (∀ (flow : BitVec 16) (tin tout : BitVec 10), exec (.cduReport flow tin tout) s =
      .next { (
        (s.cduFrame (s.rmcReport 2 (s.rd RLY_POS.POS)
        (packBytes [(flow.toNat, 2), (tin.toNat, 2), (tout.toNat, 2)]))) : State) with pending := s.pending }) ∧
    (exec .cduStale s =
      .next { (
        (State.coolUpdate ({ (s.plateMove.wr PMC_THERM.FLOW s.pmc.floor).wr PMC_THERM.T_IN 180 with
        pmc := { s.pmc with tins := [] } }.raise PMC_STS.fCDU_STALE)) : State) with pending := s.pending }) ∧
    (∀ (k : BitVec 7) (tj : BitVec 8), exec (.junctionHot k tj) s =
      .next { (
        (if 72 ≤ k.toNat then s else s.junctionHot k.toNat tj.toNat) : State) with pending := s.pending }) ∧
    (∀ (k : BitVec 7), exec (.junctionFatal k) s =
      .next { (
        ((s.wr (PMC_CLUS.TJ k.toNat) 115).report { rec0 .fatal 0x0A k.toNat 0xC3 with quar := true }) : State) with pending := s.pending }) ∧
    (exec .heatForecast s = .next { (s.heatForecast : State) with pending := s.pending }) ∧
    (∀ (mw : BitVec 24), exec (.railReport mw) s =
      .next { (
        { s with pmc := { s.pmc with rails := mw.toNat } } : State) with pending := s.pending }) ∧
    (∀ (r : BitVec 7), exec (.regulatorTrip r) s = .next { ((s.regTrip r.toNat) : State) with pending := s.pending }) ∧
    (∀ (r : BitVec 7) (ma : BitVec 24), exec (.regulatorSample r ma) s =
      .next { (
        { s with pmc := { s.pmc with amps := Tbl.set s.pmc.amps r.toNat ma.toNat } } : State) with pending := s.pending }) ∧
    (∀ (x : Ctr), s.stopped = false →
      exec (.counterWrap x) s = .next { (s.ctrWrap x : State) with pending := s.pending }) ∧
    (∀ (u : List CoreUse), s.stopped = false → exec (.meteringInterval u) s =
      .next { (
        s.orWait (s.interval u) : State) with pending := s.pending }) ∧
    (∀ (v : BitVec 32) (d : Dev), s.stopped = false → exec (.splCiWrite v d) s =
      .next { (
        s.prsWrite d SPL_CI.CI.addr 4 false (fun s => s.splCi v.toNat) : State) with pending := s.pending }) ∧
    (∀ (g : BitVec 16) (d : Dev), s.stopped = false → exec (.splOpen g d) s =
      .next { (
        s.prsWrite d SPL_MCMD.OP.addr 4 false (fun s => s.splOpen g.toNat) : State) with pending := s.pending }) ∧
    (∀ (g : BitVec 16) (d : Dev), s.stopped = false → exec (.splClose g d) s =
      .next { (
        s.prsWrite d SPL_MCMD.OP.addr 4 false (fun s => s.splClose g.toNat) : State) with pending := s.pending }) ∧
    (∀ (g : BitVec 16) (d : Dev), s.stopped = false → exec (.splQuery g d) s =
      .next { (
        s.prsWrite d SPL_MCMD.OP.addr 4 false (fun s => s.splQuery g.toNat) : State) with pending := s.pending }) ∧
    (exec .errRecordTake s = .next { (s.errTake : State) with pending := s.pending }) ∧
    (∀ (id : BitVec 6),
      exec (.coalEntryExpire id) s = .next { ((s.coalExpire id.toNat) : State) with pending := s.pending }) ∧
    (∀ (lg half : BitVec 2), s.stopped = false → exec (.errFifoPop lg half) s =
      .next { (
        s.errOut lg.toNat half.toNat : State) with pending := s.pending }) ∧
    (∀ (v : BitVec 32), s.stopped = false → exec (.errRingCiWrite v) s =
      .next { (
        s.errCi v.toNat : State) with pending := s.pending }) ∧
    (exec .alarmTokenRefill s = .next { (s.alarmRefill : State) with pending := s.pending }) ∧
    (s.stopped = false → exec .errInternalError s =
      .next { (
        s.report { rec0 .fatal 0x0D 0 0xCA with quar := true } : State) with pending := s.pending }) ∧
    (s.stopped = false → exec .treeFatal s =
      .next { (
        s.report { rec0 .fatal 0x13 0 0xCB with quar := true } : State) with pending := s.pending })

/-- Relay port, discovery, time, ordered-set and ring commands complete: each event and frame is taken by the relay
port; a ring command of a frame is taken under its class and code, one without a frame from the head of mailbox 12, in
every state. -/
def Obligations.RelayCommandsComplete : Prop :=
  ∀ s : State,
    (exec .rlyBypassTimeout s = .next { (s.bypassTimeout : State) with pending := s.pending }) ∧
    (∀ (ok : Bool), exec (.rlyTestDone ok) s = .next { ((s.testDone ok) : State) with pending := s.pending }) ∧
    (exec .rlyPortFault s = .next { (s.portFault : State) with pending := s.pending }) ∧
    (∀ (a b : BitVec 8) (viol : Bool), exec (.ringFreeze a b viol) s =
      .next { (
        (s.setIn true a b viol (fun s =>
        if s.on RLY_CTL.FRZ_IN then (s.photo 1).rlySync
        else if s.pkgMode = 5 then s.rlyRaise RLY_STS.fFRZDUP
        else s)) : State) with pending := s.pending }) ∧
    (∀ (a b : BitVec 8) (viol : Bool), exec (.ringMainsLost a b viol) s =
      .next { (
        (s.setIn false a b viol (fun s => s.mainsLoss true)) : State) with pending := s.pending }) ∧
    (∀ (freeze : Bool),
      exec (.orderedSetRepeat freeze) s = .next { ((s.setRepeat freeze) : State) with pending := s.pending }) ∧
    (∀ (f : Frame), exec (.discover f) s = .next { ((s.discover f) : State) with pending := s.pending }) ∧
    (∀ (f : Frame), exec (.announce f) s = .next { ((s.frameIn f (fun s => s)) : State) with pending := s.pending }) ∧
    (∀ (f : Frame) (lat : BitVec 16), exec (.time f lat) s =
      .next { (
        (s.timeFrame f lat.toNat) : State) with pending := s.pending }) ∧
    (exec .timeHoldover s = .next { (s.holdover : State) with pending := s.pending }) ∧
    (∀ (f : Frame), exec (.ringFramePass f) s =
      .next { (
        (if f.cls = 2 ∧ f.code = 2 ∧ f.ans = false then s.cduFrame f
        else if f.cls = 2 ∧ f.code = 3 ∧ f.ans = false then s.reserveFrame f
        else s.frameOther f) : State) with pending := s.pending }) ∧
    (∀ (n : BitVec 8), exec (.ringLineBreak n) s =
      .next { (
        (if s.rd RLY_POS.STATE = 2 then (s.lineBreak n.toNat).rlySync else s) : State) with pending := s.pending }) ∧
    (∀ f : Option Frame, exec (.rlyIdent f) s =
      .next { (
        (match f with
        | some f => if f.cls.toNat = 3 ∧ f.code.toNat = 1 ∧ f.ans = false then s.frameIn f (fun s => s.rlyRing f
            (fun s pay => if payOk pay 0 then (s, OK, s.identPay) else (s, EINVAL, []))
            noAfter) else s
        | none => s.rlyMbx 3 1 (fun s pay => if payOk pay 0 then (s, OK, s.identPay) else (s, EINVAL, []))
            noAfter) : State) with pending := s.pending }) ∧
    (∀ f : Option Frame, exec (.rlyStatus f) s =
      .next { (
        (match f with
        | some f => if f.cls.toNat = 3 ∧ f.code.toNat = 2 ∧ f.ans = false then s.frameIn f (fun s => s.rlyRing f
            (fun s pay => if payOk pay 0 then (s, OK, s.statusPay) else (s, EINVAL, []))
            noAfter) else s
        | none => s.rlyMbx 3 2 (fun s pay => if payOk pay 0 then (s, OK, s.statusPay) else (s, EINVAL, []))
            noAfter) : State) with pending := s.pending }) ∧
    (∀ f : Option Frame, exec (.rlyBoot f) s =
      .next { (
        (match f with
        | some f => if f.cls.toNat = 4 ∧ f.code.toNat = 1 ∧ f.ans = false then s.frameIn f (fun s => s.rlyRing f
            (withPay 0 (fun s _ => s.bootReq))
            noAfter) else s
        | none => s.rlyMbx 4 1 (withPay 0 (fun s _ => s.bootReq))
            noAfter) : State) with pending := s.pending }) ∧
    (∀ f : Option Frame, exec (.rlyPowerDown f) s =
      .next { (
        (match f with
        | some f => if f.cls.toNat = 4 ∧ f.code.toNat = 2 ∧ f.ans = false then s.frameIn f (fun s => s.rlyRing f
            (withPay 1 (fun s v => s.powerDown (v != 0)))
            noAfter) else s
        | none => s.rlyMbx 4 2 (withPay 1 (fun s v => s.powerDown (v != 0)))
            noAfter) : State) with pending := s.pending }) ∧
    (∀ f : Option Frame, exec (.rlyReset f) s =
      .next { (
        (match f with
        | some f => if f.cls.toNat = 4 ∧ f.code.toNat = 3 ∧ f.ans = false then s.frameIn f (fun s => s.rlyRing f
            (withPay 1 (fun s v => (s, if v = 0 then s.warmReset.2 else OK)))
            (fun v s => if v = 0 then s.capEnd.warmReset.1 else s.capEnd.resetCold)) else s
        | none => s.rlyMbx 4 3 (withPay 1 (fun s v => (s, if v = 0 then s.warmReset.2 else OK)))
            (fun v s => if v = 0 then s.capEnd.warmReset.1 else s.capEnd.resetCold)) : State) with pending := s.pending }) ∧
    (∀ f : Option Frame, exec (.rlySetLimit f) s =
      .next { (
        (match f with
        | some f => if f.cls.toNat = 4 ∧ f.code.toNat = 4 ∧ f.ans = false then s.frameIn f (fun s => s.rlyRing f
            (withPay (0x7FF + 2 ^ 31) (fun s v => s.setLimit true v false))
            noAfter) else s
        | none => s.rlyMbx 4 4 (withPay (0x7FF + 2 ^ 31) (fun s v => s.setLimit true v false))
            noAfter) : State) with pending := s.pending }) ∧
    (∀ f : Option Frame, exec (.linkdly f) s =
      .next { (
        (match f with
        | some f => if f.cls.toNat = 4 ∧ f.code.toNat = 5 ∧ f.ans = false then s.frameIn f (fun s => s.rlyRing f
            (withPay 0xFFFF (fun s v => ((s.wr RLY_LINKDLY.DLY v).wr RLY_LINKDLY.SET 1, OK)))
            noAfter) else s
        | none => s.rlyMbx 4 5 (withPay 0xFFFF (fun s v => ((s.wr RLY_LINKDLY.DLY v).wr RLY_LINKDLY.SET 1, OK)))
            noAfter) : State) with pending := s.pending }) ∧
    (∀ f : Option Frame, exec (.leave f) s =
      .next { (
        (match f with
        | some f => if f.cls.toNat = 4 ∧ f.code.toNat = 6 ∧ f.ans = false then s.frameIn f (fun s => s.rlyRing f
            (withPay 0 (fun s _ => (s, OK)))
            (fun _ s => State.wr { s with rly := { s.rly with left := true } } RLY_POS.STATE 0)) else s
        | none => s.rlyMbx 4 6 (withPay 0 (fun s _ => (s, OK)))
            (fun _ s => State.wr { s with rly := { s.rly with left := true } } RLY_POS.STATE 0)) : State) with pending := s.pending }) ∧
    (∀ f : Option Frame, exec (.rlyMonitor f) s =
      .next { (
        (match f with
    | some f =>
      if f.cls = 5 ∧ f.code = 1 ∧ f.ans = false then s.frameIn f (fun s => s.monFrame f) else s
    | none => s.monMbx) : State) with pending := s.pending })

/-- Monitor lines, breakpoints, session events and photo-finish steps complete: each line reaches the monitor from the
UART as the command of its row, and each event has the effect its rule gives, in every state (an event of the islands:
in every state in which they are not stopped). -/
def Obligations.MonitorCommandsComplete : Prop :=
  ∀ s : State,
    (exec .monMode s = .next { ((s.monLine .uart .mode) : State) with pending := s.pending }) ∧
    (exec .monIdent s = .next { ((s.monLine .uart .ident) : State) with pending := s.pending }) ∧
    (exec .monStatus s = .next { ((s.monLine .uart .status) : State) with pending := s.pending }) ∧
    (∀ (answer : Option (Nat × Nat)), exec (.auth answer) s =
      .next { (
        (s.monLine .uart (.auth answer)) : State) with pending := s.pending }) ∧
    (exec .logout s = .next { ((s.monLine .uart .logout) : State) with pending := s.pending }) ∧
    (∀ (n : Nat), exec (.baud n) s = .next { ((s.monLine .uart (.baud n)) : State) with pending := s.pending }) ∧
    (∀ (n : Nat), exec (.log n) s = .next { ((s.monLine .uart (.log n)) : State) with pending := s.pending }) ∧
    (exec .monBoot s = .next { ((s.monLine .uart .boot) : State) with pending := s.pending }) ∧
    (∀ (keep : Nat),
      exec (.powerdown keep) s = .next { ((s.monLine .uart (.powerdown keep)) : State) with pending := s.pending }) ∧
    (∀ (kind : Nat),
      exec (.monReset kind) s = .next { ((s.monLine .uart (.reset kind)) : State) with pending := s.pending }) ∧
    (∀ (watts lock : Nat), exec (.limit watts lock) s =
      .next { (
        (s.monLine .uart (.limit watts lock)) : State) with pending := s.pending }) ∧
    (exec .dietest s = .next { ((s.monLine .uart .dietest) : State) with pending := s.pending }) ∧
    (exec .photo s = .next { ((s.monLine .uart .photo) : State) with pending := s.pending }) ∧
    (∀ (secs : List Nat) (start : Nat), exec (.cap secs start) s =
      .next { (
        (s.monLine .uart (.cap secs start)) : State) with pending := s.pending }) ∧
    (∀ (off : Nat), exec (.rd off) s = .next { ((s.monLine .uart (.rd off)) : State) with pending := s.pending }) ∧
    (∀ (off v : Nat),
      exec (.wr off v) s = .next { ((s.monLine .uart (.wr off v)) : State) with pending := s.pending }) ∧
    (∀ (core : Nat),
      exec (.perf core) s = .next { ((s.monLine .uart (.perf core)) : State) with pending := s.pending }) ∧
    (∀ (core : Nat),
      exec (.halt core) s = .next { ((s.monLine .uart (.halt core)) : State) with pending := s.pending }) ∧
    (∀ (core : Nat), exec (.go core) s = .next { ((s.monLine .uart (.go core)) : State) with pending := s.pending }) ∧
    (∀ (core : Nat),
      exec (.step core) s = .next { ((s.monLine .uart (.step core)) : State) with pending := s.pending }) ∧
    (∀ (core : Nat),
      exec (.regs core) s = .next { ((s.monLine .uart (.regs core)) : State) with pending := s.pending }) ∧
    (∀ (core reg v : Nat), exec (.setreg core reg v) s =
      .next { (
        (s.monLine .uart (.setreg core reg v)) : State) with pending := s.pending }) ∧
    (∀ (core slot : Nat) (va : Option Nat), exec (.brk core slot va) s =
      .next { (
        (s.monLine .uart (.brk core slot va)) : State) with pending := s.pending }) ∧
    (∀ (world enc pa len : Nat), exec (.memrd world enc pa len) s =
      .next { (
        (s.monLine .uart (.memrd world enc pa len)) : State) with pending := s.pending }) ∧
    (∀ (world enc pa v : Nat), exec (.memwr world enc pa v) s =
      .next { (
        (s.monLine .uart (.memwr world enc pa v)) : State) with pending := s.pending }) ∧
    (∀ (c : Core), s.stopped = false →
      exec (.breakpointHit c) s = .next { (s.brkHit c.val : State) with pending := s.pending }) ∧
    (exec .uartBreak s = .next { ((if s.pkgMode = 0 then s else s.uartBreak) : State) with pending := s.pending }) ∧
    (exec .monSessionTimeout s = .next { (s.monLogout : State) with pending := s.pending }) ∧
    (exec .monAuthLockoutEnd s = .next { ((s.setMon { s.mon with lockout := false }) : State) with pending := s.pending }) ∧
    (exec .photoPinTrigger s = .next { (s.pinTrigger : State) with pending := s.pending }) ∧
    (∀ (d : Dev), s.stopped = false → exec (.pfTrigWrite d) s =
      .next { (
        s.prsWrite d DBG_PF_CTL.TRIG.addr 4 true (fun s => s.photo 3) : State) with pending := s.pending }) ∧
    (exec .pfControllersReported s = .next { ((s.pfStop (fun _ => false)) : State) with pending := s.pending }) ∧
    (∀ (missing : BitVec 80), exec (.pfStopTimeout missing) s =
      .next { (
        (s.pfStop (fun c => hasBit missing c)) : State) with pending := s.pending }) ∧
    (exec .pfIslandsStopped s = .next { (s.pfDone : State) with pending := s.pending })

/-- Reset, power-good, boot and test-port events complete: each event has the effect its rule gives, in every state
(an event of the islands: in every state in which they are not stopped). -/
def Obligations.ResetEventsComplete : Prop :=
  ∀ s : State,
    (exec .flushDeadline s = .next { ((s.flushEnd.rstFlushed) : State) with pending := s.pending }) ∧
    (exec .coldResetPin s = .next { (s.coldPin : State) with pending := s.pending }) ∧
    (exec .rstNRise s = .next { (s.rstRise : State) with pending := s.pending }) ∧
    (exec .pgMainRise s = .next { (s.pgMainRise : State) with pending := s.pending }) ∧
    (exec .pgMainTimeout s =
      .next { (
        (if s.sys.ph = .rails ∧ s.sys.pgMain = false then s.bootRefused 5 else s) : State) with pending := s.pending }) ∧
    (∀ (k : BitVec 2), exec (.pgAuxRise k) s = .next { ((s.pgAuxRise k.toNat) : State) with pending := s.pending }) ∧
    (∀ (k : BitVec 2), s.stopped = false → exec (.pgAuxTimeout k) s =
      .next { (
        s.pgAuxTimeout k.toNat : State) with pending := s.pending }) ∧
    (∀ (k : BitVec 3), exec (.powerGoodFall k) s = .next { ((s.pgFall k.toNat) : State) with pending := s.pending }) ∧
    (∀ (t : BitVec 4) (d : Dev), s.stopped = false → exec (.hubRstDie t d) s =
      .next { (
        s.prsWrite d HUB_RST.OP.addr 4 true (fun s => s.rstStart false t.toNat) : State) with pending := s.pending }) ∧
    (∀ (d : Dev), s.stopped = false → exec (.hubRstTqe d) s =
      .next { (
        s.prsWrite d HUB_RST.OP.addr 4 true (fun s => s.rstStart true 0) : State) with pending := s.pending }) ∧
    (s.stopped = false → exec .dieResetDone s = .next { (s.rstDone : State) with pending := s.pending }) ∧
    (∀ (k : BitVec 4) (v : BitVec 64) (d : Dev), s.stopped = false → exec (.cxlwinWrite k v d) s =
      .next { (
        s.prsWrite d (HUB_CXLWIN.EN k.toNat).addr 8 true (fun s => s.cxlWrite k.toNat v.toNat) : State) with pending := s.pending }) ∧
    (∀ (ir : BitVec 2), exec (.tapInstruction ir) s =
      .next { (
        (if s.pkgMode = 0 then s else s.tapLoad ir.toNat) : State) with pending := s.pending }) ∧
    (∀ (pass : BitVec 16) (hbm : BitVec 64) (map : BitVec 32) (x : DimmSpd),
      exec (.memoryTrainingDone pass hbm map x) s =
      .next { (
        (s.trainDone pass hbm map.toNat x.gib.toNat x.rfm) : State) with pending := s.pending }) ∧
    (∀ (fail : BitVec 8) (ver : BitVec 64) (cfg : BootCfg), exec (.bootChainVerified fail ver cfg) s =
      .next { (
        (s.chainDone fail.toNat ver.toNat cfg) : State) with pending := s.pending })
end

