-- ==== Sys2Proof/Laws/Tables.lean ====
section
/-!
SUPPORT. The laws of sparse tables: what is read after a write, and that every operation keeps the keys rising.
-/
namespace Sys2Proof.Machine

variable {α : Type}

@[simp] theorem Tbl.get?_nil (k : Nat) : Tbl.get? ([] : Tbl α) k = none := rfl

@[simp] theorem Tbl.get?_set_same (t : Tbl α) (k : Nat) (v : α) : Tbl.get? (Tbl.set t k v) k = some v := by
  induction t with
  | nil => simp [Tbl.set, Tbl.get?]
  | cons e t ih =>
    obtain ⟨a, w⟩ := e
    by_cases h : k = a
    · simp [Tbl.set, Tbl.get?, h]
    · by_cases h2 : k < a <;> simp [Tbl.set, Tbl.get?, h, h2, ih]

theorem Tbl.get?_set_other (t : Tbl α) {k j : Nat} (v : α) (h : j ≠ k) :
    Tbl.get? (Tbl.set t k v) j = Tbl.get? t j := by
  induction t with
  | nil => simp [Tbl.set, Tbl.get?, h]
  | cons e t ih =>
    obtain ⟨a, w⟩ := e
    by_cases h1 : k = a
    · subst h1; simp [Tbl.set, Tbl.get?, h]
    · by_cases h2 : k < a
      · simp [Tbl.set, Tbl.get?, h1, h2, h]
      · by_cases h3 : j = a <;> simp [Tbl.set, Tbl.get?, h1, h2, h3, ih]

@[simp] theorem Tbl.get?_erase_same (t : Tbl α) (k : Nat) : Tbl.get? (Tbl.erase t k) k = none := by
  induction t with
  | nil => rfl
  | cons e t ih =>
    obtain ⟨a, w⟩ := e
    by_cases h : k = a
    · subst h; simpa [Tbl.erase] using ih
    · simp [Tbl.erase, Tbl.get?, h, ih]

theorem Tbl.get?_erase_other (t : Tbl α) {k j : Nat} (h : j ≠ k) :
    Tbl.get? (Tbl.erase t k) j = Tbl.get? t j := by
  induction t with
  | nil => rfl
  | cons e t ih =>
    obtain ⟨a, w⟩ := e
    by_cases h1 : k = a
    · subst h1; simp [Tbl.erase, Tbl.get?, h, ih]
    · by_cases h2 : j = a <;> simp [Tbl.erase, Tbl.get?, h1, h2, ih]

@[simp] theorem Tbl.getD_set_same (t : Tbl α) (k : Nat) (v d : α) : Tbl.getD (Tbl.set t k v) k d = v := by
  simp [Tbl.getD]

theorem Tbl.getD_set_other (t : Tbl α) {k j : Nat} (v d : α) (h : j ≠ k) :
    Tbl.getD (Tbl.set t k v) j d = Tbl.getD t j d := by
  simp [Tbl.getD, Tbl.get?_set_other t v h]

/-- Reading back what was put under a key. -/
@[simp] theorem Tbl.getD_put_same [DecidableEq α] (t : Tbl α) (k : Nat) (d v : α) : Tbl.getD (Tbl.put t k d v) k d = v := by
  unfold Tbl.put
  split
  · simp_all [Tbl.getD]
  · simp

/-- A put leaves every other key alone. -/
theorem Tbl.getD_put_other [DecidableEq α] (t : Tbl α) {k j : Nat} (d v e : α) (h : j ≠ k) :
    Tbl.getD (Tbl.put t k d v) j e = Tbl.getD t j e := by
  unfold Tbl.put
  split
  · simp [Tbl.getD, Tbl.get?_erase_other t h]
  · exact Tbl.getD_set_other t v e h

/-! ### The canonical form -/

theorem Tbl.wfFrom_mono {b c : Nat} {t : Tbl α} (hb : c ≤ b) (h : Tbl.wfFrom b t = true) : Tbl.wfFrom c t = true := by
  cases t with
  | nil => rfl
  | cons e t =>
    simp only [Tbl.wfFrom, Bool.and_eq_true, decide_eq_true_eq] at h ⊢
    exact ⟨Nat.le_trans hb h.1, h.2⟩

theorem Tbl.wfFrom_set {t : Tbl α} {k : Nat} (v : α) : ∀ {b : Nat}, b ≤ k → Tbl.wfFrom b t = true →
    Tbl.wfFrom b (Tbl.set t k v) = true := by
  induction t with
  | nil => intro b hb _; simp [Tbl.set, Tbl.wfFrom, hb]
  | cons e t ih =>
    obtain ⟨a, w⟩ := e
    intro b hb h
    simp only [Tbl.wfFrom, Bool.and_eq_true, decide_eq_true_eq] at h
    by_cases h1 : k = a
    · subst h1; simp [Tbl.set, Tbl.wfFrom, h.1, h.2]
    · by_cases h2 : k < a
      · have : k + 1 ≤ a := h2
        simp [Tbl.set, Tbl.wfFrom, h1, h2, hb, this, h.2]
      · have h3 : a + 1 ≤ k := by omega
        simp [Tbl.set, Tbl.wfFrom, h1, h2, h.1, ih h3 h.2]

theorem Tbl.wfFrom_erase {t : Tbl α} {k : Nat} : ∀ {b : Nat}, Tbl.wfFrom b t = true →
    Tbl.wfFrom b (Tbl.erase t k) = true := by
  induction t with
  | nil => intro b h; exact h
  | cons e t ih =>
    obtain ⟨a, w⟩ := e
    intro b h
    simp only [Tbl.wfFrom, Bool.and_eq_true, decide_eq_true_eq] at h
    by_cases h1 : k = a
    · simp only [Tbl.erase, h1, if_true]
      subst h1
      exact ih (Tbl.wfFrom_mono (by omega) h.2)
    · simp [Tbl.erase, Tbl.wfFrom, h1, h.1, ih h.2]

/-- A put keeps the keys rising. -/
theorem Tbl.wf_put [DecidableEq α] {t : Tbl α} (k : Nat) (d v : α) (h : t.wf = true) : (Tbl.put t k d v).wf = true := by
  unfold Tbl.put
  split
  · exact Tbl.wfFrom_erase h
  · exact Tbl.wfFrom_set v (Nat.zero_le k) h

/-- Leaving entries out keeps the keys rising. -/
theorem Tbl.wfFrom_filter {t : Tbl α} (p : Nat × α → Bool) : ∀ {b : Nat}, Tbl.wfFrom b t = true →
    Tbl.wfFrom b (t.filter p) = true := by
  induction t with
  | nil => intro b h; exact h
  | cons e t ih =>
    obtain ⟨a, w⟩ := e
    intro b h
    simp only [Tbl.wfFrom, Bool.and_eq_true, decide_eq_true_eq] at h
    by_cases hp : p (a, w)
    · simp [List.filter, hp, Tbl.wfFrom, h.1, ih h.2]
    · simp only [List.filter, hp]
      exact ih (Tbl.wfFrom_mono (by omega) h.2)

end Sys2Proof.Machine
end

