-- ==== Sys2Proof/Laws/Memory.lean ====
section
/-!
SUPPORT. The laws of memory: a line reads back as it was written, other lines are left alone, and the memory keeps its
canonical form.
-/
namespace Sys2Proof.Machine

@[simp] theorem State.cell_putCell_same (s : State) (l : Nat) (c : MemLine) : (s.putCell l c).cell l = c := by
  simp [State.cell, State.putCell]

theorem State.cell_putCell_other (s : State) {l k : Nat} (c : MemLine) (h : k ≠ l) : (s.putCell l c).cell k = s.cell k :=
  Tbl.getD_put_other s.mem memUnwritten c memUnwritten h

/-- No line of a list put into memory reads as unwritten where it is listed. -/
theorem Memory.all_put {t : Tbl MemLine} (l : Nat) (c : MemLine)
    (h : t.all (fun e => decide (e.2 ≠ memUnwritten)) = true) :
    (Tbl.put t l memUnwritten c).all (fun e => decide (e.2 ≠ memUnwritten)) = true := by
  unfold Tbl.put
  split
  · induction t with
    | nil => rfl
    | cons e t ih =>
      obtain ⟨a, w⟩ := e
      simp only [List.all_cons, Bool.and_eq_true] at h
      by_cases h1 : l = a
      · simp only [Tbl.erase, h1, if_true]; subst h1; exact ih h.2
      · simp only [Tbl.erase, h1, if_false, List.all_cons, Bool.and_eq_true]; exact ⟨h.1, ih h.2⟩
  · rename_i hc
    induction t with
    | nil => simp [Tbl.set, hc]
    | cons e t ih =>
      obtain ⟨a, w⟩ := e
      simp only [List.all_cons, Bool.and_eq_true] at h
      by_cases h1 : l = a
      · simp only [Tbl.set, h1, if_true, List.all_cons, Bool.and_eq_true]; exact ⟨by simp [hc], h.2⟩
      · by_cases h2 : l < a
        · simp only [Tbl.set, h1, h2, if_true, if_false, List.all_cons, Bool.and_eq_true]
          exact ⟨by simp [hc], h.1, h.2⟩
        · simp only [Tbl.set, h1, h2, if_false, List.all_cons, Bool.and_eq_true]; exact ⟨h.1, ih h.2⟩

/-- The one write of a line keeps the canonical form. -/
theorem State.putCell_wf (s : State) (l : Nat) (c : MemLine) (h : Memory.wf s.mem = true) :
    Memory.wf (s.putCell l c).mem = true := by
  simp only [Memory.wf, Bool.and_eq_true] at h ⊢
  exact ⟨Tbl.wf_put l memUnwritten c h.1, Memory.all_put l c h.2⟩

/-- Losing lines, as a memory that loses its power does, keeps the canonical form. -/
theorem Memory.wf_filter {t : Tbl MemLine} (p : Nat × MemLine → Bool) (h : Memory.wf t = true) :
    Memory.wf (t.filter p) = true := by
  simp only [Memory.wf, Bool.and_eq_true] at h ⊢
  refine ⟨Tbl.wfFrom_filter p h.1, ?_⟩
  rw [List.all_eq_true] at h ⊢
  intro e he
  exact h.2 e (List.mem_of_mem_filter he)

/-- Memory is in canonical form at reset. -/
theorem State.reset_memory_wf : Memory.wf State.reset.mem = true := by decide

/-- Everything the operations over memory do goes through `putCell`. -/
theorem State.memWriteKey_wf (s : State) (l : Nat) (d : LineData) (p : Bool) (k : Nat) (h : Memory.wf s.mem = true) :
    Memory.wf (s.memWriteKey l d p k).mem = true := State.putCell_wf s l _ h

theorem State.memWrite_wf (s : State) (l : Nat) (d : LineData) (p : Bool) (e : Nat) (h : Memory.wf s.mem = true) :
    Memory.wf (s.memWrite l d p e).mem = true := State.putCell_wf s l _ h

theorem State.setMot_wf (s : State) (g k : Nat) (w : Bool) (e : Nat) (h : Memory.wf s.mem = true) :
    Memory.wf (s.setMot g k w e).mem = true := by
  unfold State.setMot
  split
  · exact h
  · exact State.memWrite_wf s _ _ _ _ h

end Sys2Proof.Machine
end

