-- ==== Sys2Proof/Laws/Registers.lean ====
section
/-!
SUPPORT. The laws of the register file: a field reads back as written, other fields are left alone, a flag's event sets it
and counts.
-/
namespace Sys2Proof.Machine

@[simp] theorem State.rd_wr_same (s : State) (f : Fld) (v : Nat) : (s.wr f v).rd f = v % 2 ^ f.w := by
  simp [State.rd, State.wr]

theorem State.rd_wr_other (s : State) {f g : Fld} (v : Nat) (h : g.key ≠ f.key) : (s.wr f v).rd g = s.rd g :=
  Tbl.getD_put_other s.regs f.rst (v % 2 ^ f.w) g.rst h

/-- After its event a flag of one bit reads 1 (R13). -/
theorem State.rd_raise_bit (s : State) (g : Flag) (hw : g.bit.w = 1) (hk : g.bit.key ≠ g.cnt.key) :
    (s.raise g).rd g.bit = 1 := by
  unfold State.raise
  rw [State.rd_wr_other _ _ hk, State.rd_wr_same, hw]
  rfl

/-- An event's count grows by one up to all ones (R14). -/
theorem State.rd_raise_cnt (s : State) (g : Flag) :
    (s.raise g).rd g.cnt = min (s.rd g.cnt + 1) 0xFFFF % 2 ^ g.cnt.w := by
  unfold State.raise
  rw [State.rd_wr_same]

/-- An event of a flag leaves every other field alone. -/
theorem State.rd_raise_other (s : State) {g : Flag} {f : Fld} (hb : f.key ≠ g.bit.key) (hc : f.key ≠ g.cnt.key) :
    (s.raise g).rd f = s.rd f := by
  unfold State.raise
  rw [State.rd_wr_other _ _ hc, State.rd_wr_other _ _ hb]

end Sys2Proof.Machine
end

