-- ==== Sys2Proof/Laws/State.lean ====
section
/-!
SUPPORT. What each named update leaves alone: one lemma for each field.
-/
namespace Sys2Proof.Machine

@[simp] theorem State.wr_pending (s : State) (f : Fld) (v : Nat) : (s.wr f v).pending = s.pending := rfl
@[simp] theorem State.wr_mem (s : State) (f : Fld) (v : Nat) : (s.wr f v).mem = s.mem := rfl
@[simp] theorem State.wr_freeCtr (s : State) (f : Fld) (v : Nat) : (s.wr f v).freeCtr = s.freeCtr := rfl
@[simp] theorem State.wr_now (s : State) (f : Fld) (v : Nat) : (s.wr f v).now = s.now := rfl
@[simp] theorem State.wr_tb (s : State) (f : Fld) (v : Nat) : (s.wr f v).tb = s.tb := rfl
@[simp] theorem State.wr_ddrUsable (s : State) (f : Fld) (v : Nat) : (s.wr f v).ddrUsable = s.ddrUsable := rfl
@[simp] theorem State.wr_errIn (s : State) (f : Fld) (v : Nat) : (s.wr f v).errIn = s.errIn := rfl
@[simp] theorem State.wr_mesh (s : State) (f : Fld) (v : Nat) : (s.wr f v).mesh = s.mesh := rfl
@[simp] theorem State.wr_up (s : State) (f : Fld) (v : Nat) : (s.wr f v).up = s.up := rfl
@[simp] theorem State.wr_homes (s : State) (f : Fld) (v : Nat) : (s.wr f v).homes = s.homes := rfl
@[simp] theorem State.wr_dir (s : State) (f : Fld) (v : Nat) : (s.wr f v).dir = s.dir := rfl
@[simp] theorem State.wr_hmc (s : State) (f : Fld) (v : Nat) : (s.wr f v).hmc = s.hmc := rfl
@[simp] theorem State.wr_lfsr (s : State) (f : Fld) (v : Nat) : (s.wr f v).lfsr = s.lfsr := rfl
@[simp] theorem State.wr_hsweep (s : State) (f : Fld) (v : Nat) : (s.wr f v).hsweep = s.hsweep := rfl
@[simp] theorem State.wr_l3 (s : State) (f : Fld) (v : Nat) : (s.wr f v).l3 = s.l3 := rfl
@[simp] theorem State.wr_evp (s : State) (f : Fld) (v : Nat) : (s.wr f v).evp = s.evp := rfl
@[simp] theorem State.wr_outReq (s : State) (f : Fld) (v : Nat) : (s.wr f v).outReq = s.outReq := rfl
@[simp] theorem State.wr_agentTmo (s : State) (f : Fld) (v : Nat) : (s.wr f v).agentTmo = s.agentTmo := rfl
@[simp] theorem State.wr_encs (s : State) (f : Fld) (v : Nat) : (s.wr f v).encs = s.encs := rfl
@[simp] theorem State.wr_own (s : State) (f : Fld) (v : Nat) : (s.wr f v).own = s.own := rfl
@[simp] theorem State.wr_ownDone (s : State) (f : Fld) (v : Nat) : (s.wr f v).ownDone = s.ownDone := rfl
@[simp] theorem State.wr_ide (s : State) (f : Fld) (v : Nat) : (s.wr f v).ide = s.ide := rfl
@[simp] theorem State.wr_bmeExt (s : State) (f : Fld) (v : Nat) : (s.wr f v).bmeExt = s.bmeExt := rfl
@[simp] theorem State.wr_sepVer (s : State) (f : Fld) (v : Nat) : (s.wr f v).sepVer = s.sepVer := rfl
@[simp] theorem State.wr_keyTab (s : State) (f : Fld) (v : Nat) : (s.wr f v).keyTab = s.keyTab := rfl
@[simp] theorem State.wr_chans (s : State) (f : Fld) (v : Nat) : (s.wr f v).chans = s.chans := rfl
@[simp] theorem State.wr_parity (s : State) (f : Fld) (v : Nat) : (s.wr f v).parity = s.parity := rfl
@[simp] theorem State.wr_xcp (s : State) (f : Fld) (v : Nat) : (s.wr f v).xcp = s.xcp := rfl
@[simp] theorem State.wr_cores (s : State) (f : Fld) (v : Nat) : (s.wr f v).cores = s.cores := rfl
@[simp] theorem State.wr_opSeq (s : State) (f : Fld) (v : Nat) : (s.wr f v).opSeq = s.opSeq := rfl
@[simp] theorem State.wr_bcasts (s : State) (f : Fld) (v : Nat) : (s.wr f v).bcasts = s.bcasts := rfl
@[simp] theorem State.wr_tcdInv (s : State) (f : Fld) (v : Nat) : (s.wr f v).tcdInv = s.tcdInv := rfl
@[simp] theorem State.wr_invq (s : State) (f : Fld) (v : Nat) : (s.wr f v).invq = s.invq := rfl
@[simp] theorem State.wr_vmpv (s : State) (f : Fld) (v : Nat) : (s.wr f v).vmpv = s.vmpv := rfl
@[simp] theorem State.wr_ints (s : State) (f : Fld) (v : Nat) : (s.wr f v).ints = s.ints := rfl
@[simp] theorem State.wr_posts (s : State) (f : Fld) (v : Nat) : (s.wr f v).posts = s.posts := rfl
@[simp] theorem State.wr_mtt (s : State) (f : Fld) (v : Nat) : (s.wr f v).mtt = s.mtt := rfl
@[simp] theorem State.wr_mbx (s : State) (f : Fld) (v : Nat) : (s.wr f v).mbx = s.mbx := rfl
@[simp] theorem State.wr_assigns (s : State) (f : Fld) (v : Nat) : (s.wr f v).assigns = s.assigns := rfl
@[simp] theorem State.wr_wakes (s : State) (f : Fld) (v : Nat) : (s.wr f v).wakes = s.wakes := rfl
@[simp] theorem State.wr_ans (s : State) (f : Fld) (v : Nat) : (s.wr f v).ans = s.ans := rfl
@[simp] theorem State.wr_watch (s : State) (f : Fld) (v : Nat) : (s.wr f v).watch = s.watch := rfl
@[simp] theorem State.wr_strays (s : State) (f : Fld) (v : Nat) : (s.wr f v).strays = s.strays := rfl
@[simp] theorem State.wr_pieces (s : State) (f : Fld) (v : Nat) : (s.wr f v).pieces = s.pieces := rfl
@[simp] theorem State.wr_pieceSeq (s : State) (f : Fld) (v : Nat) : (s.wr f v).pieceSeq = s.pieceSeq := rfl
@[simp] theorem State.wr_fence (s : State) (f : Fld) (v : Nat) : (s.wr f v).fence = s.fence := rfl
@[simp] theorem State.wr_winStage (s : State) (f : Fld) (v : Nat) : (s.wr f v).winStage = s.winStage := rfl
@[simp] theorem State.wr_rings (s : State) (f : Fld) (v : Nat) : (s.wr f v).rings = s.rings := rfl
@[simp] theorem State.wr_runs (s : State) (f : Fld) (v : Nat) : (s.wr f v).runs = s.runs := rfl
@[simp] theorem State.wr_ctxCache (s : State) (f : Fld) (v : Nat) : (s.wr f v).ctxCache = s.ctxCache := rfl
@[simp] theorem State.wr_rrRing (s : State) (f : Fld) (v : Nat) : (s.wr f v).rrRing = s.rrRing := rfl
@[simp] theorem State.wr_rrLane (s : State) (f : Fld) (v : Nat) : (s.wr f v).rrLane = s.rrLane := rfl
@[simp] theorem State.wr_classes (s : State) (f : Fld) (v : Nat) : (s.wr f v).classes = s.classes := rfl
@[simp] theorem State.wr_slots (s : State) (f : Fld) (v : Nat) : (s.wr f v).slots = s.slots := rfl
@[simp] theorem State.wr_kwq (s : State) (f : Fld) (v : Nat) : (s.wr f v).kwq = s.kwq := rfl
@[simp] theorem State.wr_alarms (s : State) (f : Fld) (v : Nat) : (s.wr f v).alarms = s.alarms := rfl
@[simp] theorem State.wr_drbg (s : State) (f : Fld) (v : Nat) : (s.wr f v).drbg = s.drbg := rfl
@[simp] theorem State.wr_admq (s : State) (f : Fld) (v : Nat) : (s.wr f v).admq = s.admq := rfl
@[simp] theorem State.wr_inst (s : State) (f : Fld) (v : Nat) : (s.wr f v).inst = s.inst := rfl
@[simp] theorem State.wr_meterTqe (s : State) (f : Fld) (v : Nat) : (s.wr f v).meterTqe = s.meterTqe := rfl
@[simp] theorem State.wr_dirty (s : State) (f : Fld) (v : Nat) : (s.wr f v).dirty = s.dirty := rfl
@[simp] theorem State.wr_fns (s : State) (f : Fld) (v : Nat) : (s.wr f v).fns = s.fns := rfl
@[simp] theorem State.wr_ep (s : State) (f : Fld) (v : Nat) : (s.wr f v).ep = s.ep := rfl
@[simp] theorem State.wr_ports (s : State) (f : Fld) (v : Nat) : (s.wr f v).ports = s.ports := rfl
@[simp] theorem State.wr_links (s : State) (f : Fld) (v : Nat) : (s.wr f v).links = s.links := rfl
@[simp] theorem State.wr_err (s : State) (f : Fld) (v : Nat) : (s.wr f v).err = s.err := rfl
@[simp] theorem State.wr_pmc (s : State) (f : Fld) (v : Nat) : (s.wr f v).pmc = s.pmc := rfl
@[simp] theorem State.wr_rly (s : State) (f : Fld) (v : Nat) : (s.wr f v).rly = s.rly := rfl
@[simp] theorem State.wr_mon (s : State) (f : Fld) (v : Nat) : (s.wr f v).mon = s.mon := rfl
@[simp] theorem State.wr_sys (s : State) (f : Fld) (v : Nat) : (s.wr f v).sys = s.sys := rfl
@[simp] theorem State.wr_pf (s : State) (f : Fld) (v : Nat) : (s.wr f v).pf = s.pf := rfl
@[simp] theorem State.wr_spl (s : State) (f : Fld) (v : Nat) : (s.wr f v).spl = s.spl := rfl
@[simp] theorem State.wr_pdt (s : State) (f : Fld) (v : Nat) : (s.wr f v).pdt = s.pdt := rfl
@[simp] theorem State.wr_motc (s : State) (f : Fld) (v : Nat) : (s.wr f v).motc = s.motc := rfl
@[simp] theorem State.wr_arrs (s : State) (f : Fld) (v : Nat) : (s.wr f v).arrs = s.arrs := rfl
@[simp] theorem State.wr_keySeq (s : State) (f : Fld) (v : Nat) : (s.wr f v).keySeq = s.keySeq := rfl
@[simp] theorem State.wr_l3rr (s : State) (f : Fld) (v : Nat) : (s.wr f v).l3rr = s.l3rr := rfl
@[simp] theorem State.wr_ctxWait (s : State) (f : Fld) (v : Nat) : (s.wr f v).ctxWait = s.ctxWait := rfl
@[simp] theorem State.wr_ctxLast (s : State) (f : Fld) (v : Nat) : (s.wr f v).ctxLast = s.ctxLast := rfl
@[simp] theorem State.wr_portQ (s : State) (f : Fld) (v : Nat) : (s.wr f v).portQ = s.portQ := rfl
@[simp] theorem State.wr_portOut (s : State) (f : Fld) (v : Nat) : (s.wr f v).portOut = s.portOut := rfl
@[simp] theorem State.wr_posted (s : State) (f : Fld) (v : Nat) : (s.wr f v).posted = s.posted := rfl

@[simp] theorem State.raise_pending (s : State) (g : Flag) : (s.raise g).pending = s.pending := rfl
@[simp] theorem State.raise_mem (s : State) (g : Flag) : (s.raise g).mem = s.mem := rfl
@[simp] theorem State.raise_freeCtr (s : State) (g : Flag) : (s.raise g).freeCtr = s.freeCtr := rfl
@[simp] theorem State.raise_now (s : State) (g : Flag) : (s.raise g).now = s.now := rfl
@[simp] theorem State.raise_tb (s : State) (g : Flag) : (s.raise g).tb = s.tb := rfl
@[simp] theorem State.raise_ddrUsable (s : State) (g : Flag) : (s.raise g).ddrUsable = s.ddrUsable := rfl
@[simp] theorem State.raise_errIn (s : State) (g : Flag) : (s.raise g).errIn = s.errIn := rfl
@[simp] theorem State.raise_mesh (s : State) (g : Flag) : (s.raise g).mesh = s.mesh := rfl
@[simp] theorem State.raise_up (s : State) (g : Flag) : (s.raise g).up = s.up := rfl
@[simp] theorem State.raise_homes (s : State) (g : Flag) : (s.raise g).homes = s.homes := rfl
@[simp] theorem State.raise_dir (s : State) (g : Flag) : (s.raise g).dir = s.dir := rfl
@[simp] theorem State.raise_hmc (s : State) (g : Flag) : (s.raise g).hmc = s.hmc := rfl
@[simp] theorem State.raise_lfsr (s : State) (g : Flag) : (s.raise g).lfsr = s.lfsr := rfl
@[simp] theorem State.raise_hsweep (s : State) (g : Flag) : (s.raise g).hsweep = s.hsweep := rfl
@[simp] theorem State.raise_l3 (s : State) (g : Flag) : (s.raise g).l3 = s.l3 := rfl
@[simp] theorem State.raise_evp (s : State) (g : Flag) : (s.raise g).evp = s.evp := rfl
@[simp] theorem State.raise_outReq (s : State) (g : Flag) : (s.raise g).outReq = s.outReq := rfl
@[simp] theorem State.raise_agentTmo (s : State) (g : Flag) : (s.raise g).agentTmo = s.agentTmo := rfl
@[simp] theorem State.raise_encs (s : State) (g : Flag) : (s.raise g).encs = s.encs := rfl
@[simp] theorem State.raise_own (s : State) (g : Flag) : (s.raise g).own = s.own := rfl
@[simp] theorem State.raise_ownDone (s : State) (g : Flag) : (s.raise g).ownDone = s.ownDone := rfl
@[simp] theorem State.raise_ide (s : State) (g : Flag) : (s.raise g).ide = s.ide := rfl
@[simp] theorem State.raise_bmeExt (s : State) (g : Flag) : (s.raise g).bmeExt = s.bmeExt := rfl
@[simp] theorem State.raise_sepVer (s : State) (g : Flag) : (s.raise g).sepVer = s.sepVer := rfl
@[simp] theorem State.raise_keyTab (s : State) (g : Flag) : (s.raise g).keyTab = s.keyTab := rfl
@[simp] theorem State.raise_chans (s : State) (g : Flag) : (s.raise g).chans = s.chans := rfl
@[simp] theorem State.raise_parity (s : State) (g : Flag) : (s.raise g).parity = s.parity := rfl
@[simp] theorem State.raise_xcp (s : State) (g : Flag) : (s.raise g).xcp = s.xcp := rfl
@[simp] theorem State.raise_cores (s : State) (g : Flag) : (s.raise g).cores = s.cores := rfl
@[simp] theorem State.raise_opSeq (s : State) (g : Flag) : (s.raise g).opSeq = s.opSeq := rfl
@[simp] theorem State.raise_bcasts (s : State) (g : Flag) : (s.raise g).bcasts = s.bcasts := rfl
@[simp] theorem State.raise_tcdInv (s : State) (g : Flag) : (s.raise g).tcdInv = s.tcdInv := rfl
@[simp] theorem State.raise_invq (s : State) (g : Flag) : (s.raise g).invq = s.invq := rfl
@[simp] theorem State.raise_vmpv (s : State) (g : Flag) : (s.raise g).vmpv = s.vmpv := rfl
@[simp] theorem State.raise_ints (s : State) (g : Flag) : (s.raise g).ints = s.ints := rfl
@[simp] theorem State.raise_posts (s : State) (g : Flag) : (s.raise g).posts = s.posts := rfl
@[simp] theorem State.raise_mtt (s : State) (g : Flag) : (s.raise g).mtt = s.mtt := rfl
@[simp] theorem State.raise_mbx (s : State) (g : Flag) : (s.raise g).mbx = s.mbx := rfl
@[simp] theorem State.raise_assigns (s : State) (g : Flag) : (s.raise g).assigns = s.assigns := rfl
@[simp] theorem State.raise_wakes (s : State) (g : Flag) : (s.raise g).wakes = s.wakes := rfl
@[simp] theorem State.raise_ans (s : State) (g : Flag) : (s.raise g).ans = s.ans := rfl
@[simp] theorem State.raise_watch (s : State) (g : Flag) : (s.raise g).watch = s.watch := rfl
@[simp] theorem State.raise_strays (s : State) (g : Flag) : (s.raise g).strays = s.strays := rfl
@[simp] theorem State.raise_pieces (s : State) (g : Flag) : (s.raise g).pieces = s.pieces := rfl
@[simp] theorem State.raise_pieceSeq (s : State) (g : Flag) : (s.raise g).pieceSeq = s.pieceSeq := rfl
@[simp] theorem State.raise_fence (s : State) (g : Flag) : (s.raise g).fence = s.fence := rfl
@[simp] theorem State.raise_winStage (s : State) (g : Flag) : (s.raise g).winStage = s.winStage := rfl
@[simp] theorem State.raise_rings (s : State) (g : Flag) : (s.raise g).rings = s.rings := rfl
@[simp] theorem State.raise_runs (s : State) (g : Flag) : (s.raise g).runs = s.runs := rfl
@[simp] theorem State.raise_ctxCache (s : State) (g : Flag) : (s.raise g).ctxCache = s.ctxCache := rfl
@[simp] theorem State.raise_rrRing (s : State) (g : Flag) : (s.raise g).rrRing = s.rrRing := rfl
@[simp] theorem State.raise_rrLane (s : State) (g : Flag) : (s.raise g).rrLane = s.rrLane := rfl
@[simp] theorem State.raise_classes (s : State) (g : Flag) : (s.raise g).classes = s.classes := rfl
@[simp] theorem State.raise_slots (s : State) (g : Flag) : (s.raise g).slots = s.slots := rfl
@[simp] theorem State.raise_kwq (s : State) (g : Flag) : (s.raise g).kwq = s.kwq := rfl
@[simp] theorem State.raise_alarms (s : State) (g : Flag) : (s.raise g).alarms = s.alarms := rfl
@[simp] theorem State.raise_drbg (s : State) (g : Flag) : (s.raise g).drbg = s.drbg := rfl
@[simp] theorem State.raise_admq (s : State) (g : Flag) : (s.raise g).admq = s.admq := rfl
@[simp] theorem State.raise_inst (s : State) (g : Flag) : (s.raise g).inst = s.inst := rfl
@[simp] theorem State.raise_meterTqe (s : State) (g : Flag) : (s.raise g).meterTqe = s.meterTqe := rfl
@[simp] theorem State.raise_dirty (s : State) (g : Flag) : (s.raise g).dirty = s.dirty := rfl
@[simp] theorem State.raise_fns (s : State) (g : Flag) : (s.raise g).fns = s.fns := rfl
@[simp] theorem State.raise_ep (s : State) (g : Flag) : (s.raise g).ep = s.ep := rfl
@[simp] theorem State.raise_ports (s : State) (g : Flag) : (s.raise g).ports = s.ports := rfl
@[simp] theorem State.raise_links (s : State) (g : Flag) : (s.raise g).links = s.links := rfl
@[simp] theorem State.raise_err (s : State) (g : Flag) : (s.raise g).err = s.err := rfl
@[simp] theorem State.raise_pmc (s : State) (g : Flag) : (s.raise g).pmc = s.pmc := rfl
@[simp] theorem State.raise_rly (s : State) (g : Flag) : (s.raise g).rly = s.rly := rfl
@[simp] theorem State.raise_mon (s : State) (g : Flag) : (s.raise g).mon = s.mon := rfl
@[simp] theorem State.raise_sys (s : State) (g : Flag) : (s.raise g).sys = s.sys := rfl
@[simp] theorem State.raise_pf (s : State) (g : Flag) : (s.raise g).pf = s.pf := rfl
@[simp] theorem State.raise_spl (s : State) (g : Flag) : (s.raise g).spl = s.spl := rfl
@[simp] theorem State.raise_pdt (s : State) (g : Flag) : (s.raise g).pdt = s.pdt := rfl
@[simp] theorem State.raise_motc (s : State) (g : Flag) : (s.raise g).motc = s.motc := rfl
@[simp] theorem State.raise_arrs (s : State) (g : Flag) : (s.raise g).arrs = s.arrs := rfl
@[simp] theorem State.raise_keySeq (s : State) (g : Flag) : (s.raise g).keySeq = s.keySeq := rfl
@[simp] theorem State.raise_l3rr (s : State) (g : Flag) : (s.raise g).l3rr = s.l3rr := rfl
@[simp] theorem State.raise_ctxWait (s : State) (g : Flag) : (s.raise g).ctxWait = s.ctxWait := rfl
@[simp] theorem State.raise_ctxLast (s : State) (g : Flag) : (s.raise g).ctxLast = s.ctxLast := rfl
@[simp] theorem State.raise_portQ (s : State) (g : Flag) : (s.raise g).portQ = s.portQ := rfl
@[simp] theorem State.raise_portOut (s : State) (g : Flag) : (s.raise g).portOut = s.portOut := rfl
@[simp] theorem State.raise_posted (s : State) (g : Flag) : (s.raise g).posted = s.posted := rfl

@[simp] theorem State.setMode_pending (s : State) (m : Nat) : (s.setMode m).pending = s.pending := rfl
@[simp] theorem State.setMode_mem (s : State) (m : Nat) : (s.setMode m).mem = s.mem := rfl
@[simp] theorem State.setMode_freeCtr (s : State) (m : Nat) : (s.setMode m).freeCtr = s.freeCtr := rfl
@[simp] theorem State.setMode_now (s : State) (m : Nat) : (s.setMode m).now = s.now := rfl
@[simp] theorem State.setMode_tb (s : State) (m : Nat) : (s.setMode m).tb = s.tb := rfl
@[simp] theorem State.setMode_ddrUsable (s : State) (m : Nat) : (s.setMode m).ddrUsable = s.ddrUsable := rfl
@[simp] theorem State.setMode_errIn (s : State) (m : Nat) : (s.setMode m).errIn = s.errIn := rfl
@[simp] theorem State.setMode_mesh (s : State) (m : Nat) : (s.setMode m).mesh = s.mesh := rfl
@[simp] theorem State.setMode_up (s : State) (m : Nat) : (s.setMode m).up = s.up := rfl
@[simp] theorem State.setMode_homes (s : State) (m : Nat) : (s.setMode m).homes = s.homes := rfl
@[simp] theorem State.setMode_dir (s : State) (m : Nat) : (s.setMode m).dir = s.dir := rfl
@[simp] theorem State.setMode_hmc (s : State) (m : Nat) : (s.setMode m).hmc = s.hmc := rfl
@[simp] theorem State.setMode_lfsr (s : State) (m : Nat) : (s.setMode m).lfsr = s.lfsr := rfl
@[simp] theorem State.setMode_hsweep (s : State) (m : Nat) : (s.setMode m).hsweep = s.hsweep := rfl
@[simp] theorem State.setMode_l3 (s : State) (m : Nat) : (s.setMode m).l3 = s.l3 := rfl
@[simp] theorem State.setMode_evp (s : State) (m : Nat) : (s.setMode m).evp = s.evp := rfl
@[simp] theorem State.setMode_outReq (s : State) (m : Nat) : (s.setMode m).outReq = s.outReq := rfl
@[simp] theorem State.setMode_agentTmo (s : State) (m : Nat) : (s.setMode m).agentTmo = s.agentTmo := rfl
@[simp] theorem State.setMode_encs (s : State) (m : Nat) : (s.setMode m).encs = s.encs := rfl
@[simp] theorem State.setMode_own (s : State) (m : Nat) : (s.setMode m).own = s.own := rfl
@[simp] theorem State.setMode_ownDone (s : State) (m : Nat) : (s.setMode m).ownDone = s.ownDone := rfl
@[simp] theorem State.setMode_ide (s : State) (m : Nat) : (s.setMode m).ide = s.ide := rfl
@[simp] theorem State.setMode_bmeExt (s : State) (m : Nat) : (s.setMode m).bmeExt = s.bmeExt := rfl
@[simp] theorem State.setMode_sepVer (s : State) (m : Nat) : (s.setMode m).sepVer = s.sepVer := rfl
@[simp] theorem State.setMode_keyTab (s : State) (m : Nat) : (s.setMode m).keyTab = s.keyTab := rfl
@[simp] theorem State.setMode_chans (s : State) (m : Nat) : (s.setMode m).chans = s.chans := rfl
@[simp] theorem State.setMode_parity (s : State) (m : Nat) : (s.setMode m).parity = s.parity := rfl
@[simp] theorem State.setMode_xcp (s : State) (m : Nat) : (s.setMode m).xcp = s.xcp := rfl
@[simp] theorem State.setMode_cores (s : State) (m : Nat) : (s.setMode m).cores = s.cores := rfl
@[simp] theorem State.setMode_opSeq (s : State) (m : Nat) : (s.setMode m).opSeq = s.opSeq := rfl
@[simp] theorem State.setMode_bcasts (s : State) (m : Nat) : (s.setMode m).bcasts = s.bcasts := rfl
@[simp] theorem State.setMode_tcdInv (s : State) (m : Nat) : (s.setMode m).tcdInv = s.tcdInv := rfl
@[simp] theorem State.setMode_invq (s : State) (m : Nat) : (s.setMode m).invq = s.invq := rfl
@[simp] theorem State.setMode_vmpv (s : State) (m : Nat) : (s.setMode m).vmpv = s.vmpv := rfl
@[simp] theorem State.setMode_ints (s : State) (m : Nat) : (s.setMode m).ints = s.ints := rfl
@[simp] theorem State.setMode_posts (s : State) (m : Nat) : (s.setMode m).posts = s.posts := rfl
@[simp] theorem State.setMode_mtt (s : State) (m : Nat) : (s.setMode m).mtt = s.mtt := rfl
@[simp] theorem State.setMode_mbx (s : State) (m : Nat) : (s.setMode m).mbx = s.mbx := rfl
@[simp] theorem State.setMode_assigns (s : State) (m : Nat) : (s.setMode m).assigns = s.assigns := rfl
@[simp] theorem State.setMode_wakes (s : State) (m : Nat) : (s.setMode m).wakes = s.wakes := rfl
@[simp] theorem State.setMode_ans (s : State) (m : Nat) : (s.setMode m).ans = s.ans := rfl
@[simp] theorem State.setMode_watch (s : State) (m : Nat) : (s.setMode m).watch = s.watch := rfl
@[simp] theorem State.setMode_strays (s : State) (m : Nat) : (s.setMode m).strays = s.strays := rfl
@[simp] theorem State.setMode_pieces (s : State) (m : Nat) : (s.setMode m).pieces = s.pieces := rfl
@[simp] theorem State.setMode_pieceSeq (s : State) (m : Nat) : (s.setMode m).pieceSeq = s.pieceSeq := rfl
@[simp] theorem State.setMode_fence (s : State) (m : Nat) : (s.setMode m).fence = s.fence := rfl
@[simp] theorem State.setMode_winStage (s : State) (m : Nat) : (s.setMode m).winStage = s.winStage := rfl
@[simp] theorem State.setMode_rings (s : State) (m : Nat) : (s.setMode m).rings = s.rings := rfl
@[simp] theorem State.setMode_runs (s : State) (m : Nat) : (s.setMode m).runs = s.runs := rfl
@[simp] theorem State.setMode_ctxCache (s : State) (m : Nat) : (s.setMode m).ctxCache = s.ctxCache := rfl
@[simp] theorem State.setMode_rrRing (s : State) (m : Nat) : (s.setMode m).rrRing = s.rrRing := rfl
@[simp] theorem State.setMode_rrLane (s : State) (m : Nat) : (s.setMode m).rrLane = s.rrLane := rfl
@[simp] theorem State.setMode_classes (s : State) (m : Nat) : (s.setMode m).classes = s.classes := rfl
@[simp] theorem State.setMode_slots (s : State) (m : Nat) : (s.setMode m).slots = s.slots := rfl
@[simp] theorem State.setMode_kwq (s : State) (m : Nat) : (s.setMode m).kwq = s.kwq := rfl
@[simp] theorem State.setMode_alarms (s : State) (m : Nat) : (s.setMode m).alarms = s.alarms := rfl
@[simp] theorem State.setMode_drbg (s : State) (m : Nat) : (s.setMode m).drbg = s.drbg := rfl
@[simp] theorem State.setMode_admq (s : State) (m : Nat) : (s.setMode m).admq = s.admq := rfl
@[simp] theorem State.setMode_inst (s : State) (m : Nat) : (s.setMode m).inst = s.inst := rfl
@[simp] theorem State.setMode_meterTqe (s : State) (m : Nat) : (s.setMode m).meterTqe = s.meterTqe := rfl
@[simp] theorem State.setMode_dirty (s : State) (m : Nat) : (s.setMode m).dirty = s.dirty := rfl
@[simp] theorem State.setMode_fns (s : State) (m : Nat) : (s.setMode m).fns = s.fns := rfl
@[simp] theorem State.setMode_ep (s : State) (m : Nat) : (s.setMode m).ep = s.ep := rfl
@[simp] theorem State.setMode_ports (s : State) (m : Nat) : (s.setMode m).ports = s.ports := rfl
@[simp] theorem State.setMode_links (s : State) (m : Nat) : (s.setMode m).links = s.links := rfl
@[simp] theorem State.setMode_err (s : State) (m : Nat) : (s.setMode m).err = s.err := rfl
@[simp] theorem State.setMode_pmc (s : State) (m : Nat) : (s.setMode m).pmc = s.pmc := rfl
@[simp] theorem State.setMode_rly (s : State) (m : Nat) : (s.setMode m).rly = s.rly := rfl
@[simp] theorem State.setMode_mon (s : State) (m : Nat) : (s.setMode m).mon = s.mon := rfl
@[simp] theorem State.setMode_sys (s : State) (m : Nat) : (s.setMode m).sys = s.sys := rfl
@[simp] theorem State.setMode_pf (s : State) (m : Nat) : (s.setMode m).pf = s.pf := rfl
@[simp] theorem State.setMode_spl (s : State) (m : Nat) : (s.setMode m).spl = s.spl := rfl
@[simp] theorem State.setMode_pdt (s : State) (m : Nat) : (s.setMode m).pdt = s.pdt := rfl
@[simp] theorem State.setMode_motc (s : State) (m : Nat) : (s.setMode m).motc = s.motc := rfl
@[simp] theorem State.setMode_arrs (s : State) (m : Nat) : (s.setMode m).arrs = s.arrs := rfl
@[simp] theorem State.setMode_keySeq (s : State) (m : Nat) : (s.setMode m).keySeq = s.keySeq := rfl
@[simp] theorem State.setMode_l3rr (s : State) (m : Nat) : (s.setMode m).l3rr = s.l3rr := rfl
@[simp] theorem State.setMode_ctxWait (s : State) (m : Nat) : (s.setMode m).ctxWait = s.ctxWait := rfl
@[simp] theorem State.setMode_ctxLast (s : State) (m : Nat) : (s.setMode m).ctxLast = s.ctxLast := rfl
@[simp] theorem State.setMode_portQ (s : State) (m : Nat) : (s.setMode m).portQ = s.portQ := rfl
@[simp] theorem State.setMode_portOut (s : State) (m : Nat) : (s.setMode m).portOut = s.portOut := rfl
@[simp] theorem State.setMode_posted (s : State) (m : Nat) : (s.setMode m).posted = s.posted := rfl

@[simp] theorem State.report_pending (s : State) (r : ErrRec) : (s.report r).pending = s.pending := rfl
@[simp] theorem State.report_regs (s : State) (r : ErrRec) : (s.report r).regs = s.regs := rfl
@[simp] theorem State.report_mem (s : State) (r : ErrRec) : (s.report r).mem = s.mem := rfl
@[simp] theorem State.report_freeCtr (s : State) (r : ErrRec) : (s.report r).freeCtr = s.freeCtr := rfl
@[simp] theorem State.report_now (s : State) (r : ErrRec) : (s.report r).now = s.now := rfl
@[simp] theorem State.report_tb (s : State) (r : ErrRec) : (s.report r).tb = s.tb := rfl
@[simp] theorem State.report_ddrUsable (s : State) (r : ErrRec) : (s.report r).ddrUsable = s.ddrUsable := rfl
@[simp] theorem State.report_mesh (s : State) (r : ErrRec) : (s.report r).mesh = s.mesh := rfl
@[simp] theorem State.report_up (s : State) (r : ErrRec) : (s.report r).up = s.up := rfl
@[simp] theorem State.report_homes (s : State) (r : ErrRec) : (s.report r).homes = s.homes := rfl
@[simp] theorem State.report_dir (s : State) (r : ErrRec) : (s.report r).dir = s.dir := rfl
@[simp] theorem State.report_hmc (s : State) (r : ErrRec) : (s.report r).hmc = s.hmc := rfl
@[simp] theorem State.report_lfsr (s : State) (r : ErrRec) : (s.report r).lfsr = s.lfsr := rfl
@[simp] theorem State.report_hsweep (s : State) (r : ErrRec) : (s.report r).hsweep = s.hsweep := rfl
@[simp] theorem State.report_l3 (s : State) (r : ErrRec) : (s.report r).l3 = s.l3 := rfl
@[simp] theorem State.report_evp (s : State) (r : ErrRec) : (s.report r).evp = s.evp := rfl
@[simp] theorem State.report_outReq (s : State) (r : ErrRec) : (s.report r).outReq = s.outReq := rfl
@[simp] theorem State.report_agentTmo (s : State) (r : ErrRec) : (s.report r).agentTmo = s.agentTmo := rfl
@[simp] theorem State.report_encs (s : State) (r : ErrRec) : (s.report r).encs = s.encs := rfl
@[simp] theorem State.report_own (s : State) (r : ErrRec) : (s.report r).own = s.own := rfl
@[simp] theorem State.report_ownDone (s : State) (r : ErrRec) : (s.report r).ownDone = s.ownDone := rfl
@[simp] theorem State.report_ide (s : State) (r : ErrRec) : (s.report r).ide = s.ide := rfl
@[simp] theorem State.report_bmeExt (s : State) (r : ErrRec) : (s.report r).bmeExt = s.bmeExt := rfl
@[simp] theorem State.report_sepVer (s : State) (r : ErrRec) : (s.report r).sepVer = s.sepVer := rfl
@[simp] theorem State.report_keyTab (s : State) (r : ErrRec) : (s.report r).keyTab = s.keyTab := rfl
@[simp] theorem State.report_chans (s : State) (r : ErrRec) : (s.report r).chans = s.chans := rfl
@[simp] theorem State.report_parity (s : State) (r : ErrRec) : (s.report r).parity = s.parity := rfl
@[simp] theorem State.report_xcp (s : State) (r : ErrRec) : (s.report r).xcp = s.xcp := rfl
@[simp] theorem State.report_cores (s : State) (r : ErrRec) : (s.report r).cores = s.cores := rfl
@[simp] theorem State.report_opSeq (s : State) (r : ErrRec) : (s.report r).opSeq = s.opSeq := rfl
@[simp] theorem State.report_bcasts (s : State) (r : ErrRec) : (s.report r).bcasts = s.bcasts := rfl
@[simp] theorem State.report_tcdInv (s : State) (r : ErrRec) : (s.report r).tcdInv = s.tcdInv := rfl
@[simp] theorem State.report_invq (s : State) (r : ErrRec) : (s.report r).invq = s.invq := rfl
@[simp] theorem State.report_vmpv (s : State) (r : ErrRec) : (s.report r).vmpv = s.vmpv := rfl
@[simp] theorem State.report_ints (s : State) (r : ErrRec) : (s.report r).ints = s.ints := rfl
@[simp] theorem State.report_posts (s : State) (r : ErrRec) : (s.report r).posts = s.posts := rfl
@[simp] theorem State.report_mtt (s : State) (r : ErrRec) : (s.report r).mtt = s.mtt := rfl
@[simp] theorem State.report_mbx (s : State) (r : ErrRec) : (s.report r).mbx = s.mbx := rfl
@[simp] theorem State.report_assigns (s : State) (r : ErrRec) : (s.report r).assigns = s.assigns := rfl
@[simp] theorem State.report_wakes (s : State) (r : ErrRec) : (s.report r).wakes = s.wakes := rfl
@[simp] theorem State.report_ans (s : State) (r : ErrRec) : (s.report r).ans = s.ans := rfl
@[simp] theorem State.report_watch (s : State) (r : ErrRec) : (s.report r).watch = s.watch := rfl
@[simp] theorem State.report_strays (s : State) (r : ErrRec) : (s.report r).strays = s.strays := rfl
@[simp] theorem State.report_pieces (s : State) (r : ErrRec) : (s.report r).pieces = s.pieces := rfl
@[simp] theorem State.report_pieceSeq (s : State) (r : ErrRec) : (s.report r).pieceSeq = s.pieceSeq := rfl
@[simp] theorem State.report_fence (s : State) (r : ErrRec) : (s.report r).fence = s.fence := rfl
@[simp] theorem State.report_winStage (s : State) (r : ErrRec) : (s.report r).winStage = s.winStage := rfl
@[simp] theorem State.report_rings (s : State) (r : ErrRec) : (s.report r).rings = s.rings := rfl
@[simp] theorem State.report_runs (s : State) (r : ErrRec) : (s.report r).runs = s.runs := rfl
@[simp] theorem State.report_ctxCache (s : State) (r : ErrRec) : (s.report r).ctxCache = s.ctxCache := rfl
@[simp] theorem State.report_rrRing (s : State) (r : ErrRec) : (s.report r).rrRing = s.rrRing := rfl
@[simp] theorem State.report_rrLane (s : State) (r : ErrRec) : (s.report r).rrLane = s.rrLane := rfl
@[simp] theorem State.report_classes (s : State) (r : ErrRec) : (s.report r).classes = s.classes := rfl
@[simp] theorem State.report_slots (s : State) (r : ErrRec) : (s.report r).slots = s.slots := rfl
@[simp] theorem State.report_kwq (s : State) (r : ErrRec) : (s.report r).kwq = s.kwq := rfl
@[simp] theorem State.report_alarms (s : State) (r : ErrRec) : (s.report r).alarms = s.alarms := rfl
@[simp] theorem State.report_drbg (s : State) (r : ErrRec) : (s.report r).drbg = s.drbg := rfl
@[simp] theorem State.report_admq (s : State) (r : ErrRec) : (s.report r).admq = s.admq := rfl
@[simp] theorem State.report_inst (s : State) (r : ErrRec) : (s.report r).inst = s.inst := rfl
@[simp] theorem State.report_meterTqe (s : State) (r : ErrRec) : (s.report r).meterTqe = s.meterTqe := rfl
@[simp] theorem State.report_dirty (s : State) (r : ErrRec) : (s.report r).dirty = s.dirty := rfl
@[simp] theorem State.report_fns (s : State) (r : ErrRec) : (s.report r).fns = s.fns := rfl
@[simp] theorem State.report_ep (s : State) (r : ErrRec) : (s.report r).ep = s.ep := rfl
@[simp] theorem State.report_ports (s : State) (r : ErrRec) : (s.report r).ports = s.ports := rfl
@[simp] theorem State.report_links (s : State) (r : ErrRec) : (s.report r).links = s.links := rfl
@[simp] theorem State.report_err (s : State) (r : ErrRec) : (s.report r).err = s.err := rfl
@[simp] theorem State.report_pmc (s : State) (r : ErrRec) : (s.report r).pmc = s.pmc := rfl
@[simp] theorem State.report_rly (s : State) (r : ErrRec) : (s.report r).rly = s.rly := rfl
@[simp] theorem State.report_mon (s : State) (r : ErrRec) : (s.report r).mon = s.mon := rfl
@[simp] theorem State.report_sys (s : State) (r : ErrRec) : (s.report r).sys = s.sys := rfl
@[simp] theorem State.report_pf (s : State) (r : ErrRec) : (s.report r).pf = s.pf := rfl
@[simp] theorem State.report_spl (s : State) (r : ErrRec) : (s.report r).spl = s.spl := rfl
@[simp] theorem State.report_pdt (s : State) (r : ErrRec) : (s.report r).pdt = s.pdt := rfl
@[simp] theorem State.report_motc (s : State) (r : ErrRec) : (s.report r).motc = s.motc := rfl
@[simp] theorem State.report_arrs (s : State) (r : ErrRec) : (s.report r).arrs = s.arrs := rfl
@[simp] theorem State.report_keySeq (s : State) (r : ErrRec) : (s.report r).keySeq = s.keySeq := rfl
@[simp] theorem State.report_l3rr (s : State) (r : ErrRec) : (s.report r).l3rr = s.l3rr := rfl
@[simp] theorem State.report_ctxWait (s : State) (r : ErrRec) : (s.report r).ctxWait = s.ctxWait := rfl
@[simp] theorem State.report_ctxLast (s : State) (r : ErrRec) : (s.report r).ctxLast = s.ctxLast := rfl
@[simp] theorem State.report_portQ (s : State) (r : ErrRec) : (s.report r).portQ = s.portQ := rfl
@[simp] theorem State.report_portOut (s : State) (r : ErrRec) : (s.report r).portOut = s.portOut := rfl
@[simp] theorem State.report_posted (s : State) (r : ErrRec) : (s.report r).posted = s.posted := rfl

@[simp] theorem State.reply_pending (s : State) (v d : Nat) : (s.reply v d).pending = s.pending := rfl
@[simp] theorem State.reply_regs (s : State) (v d : Nat) : (s.reply v d).regs = s.regs := rfl
@[simp] theorem State.reply_mem (s : State) (v d : Nat) : (s.reply v d).mem = s.mem := rfl
@[simp] theorem State.reply_freeCtr (s : State) (v d : Nat) : (s.reply v d).freeCtr = s.freeCtr := rfl
@[simp] theorem State.reply_now (s : State) (v d : Nat) : (s.reply v d).now = s.now := rfl
@[simp] theorem State.reply_tb (s : State) (v d : Nat) : (s.reply v d).tb = s.tb := rfl
@[simp] theorem State.reply_ddrUsable (s : State) (v d : Nat) : (s.reply v d).ddrUsable = s.ddrUsable := rfl
@[simp] theorem State.reply_errIn (s : State) (v d : Nat) : (s.reply v d).errIn = s.errIn := rfl
@[simp] theorem State.reply_mesh (s : State) (v d : Nat) : (s.reply v d).mesh = s.mesh := rfl
@[simp] theorem State.reply_up (s : State) (v d : Nat) : (s.reply v d).up = s.up := rfl
@[simp] theorem State.reply_homes (s : State) (v d : Nat) : (s.reply v d).homes = s.homes := rfl
@[simp] theorem State.reply_dir (s : State) (v d : Nat) : (s.reply v d).dir = s.dir := rfl
@[simp] theorem State.reply_hmc (s : State) (v d : Nat) : (s.reply v d).hmc = s.hmc := rfl
@[simp] theorem State.reply_lfsr (s : State) (v d : Nat) : (s.reply v d).lfsr = s.lfsr := rfl
@[simp] theorem State.reply_hsweep (s : State) (v d : Nat) : (s.reply v d).hsweep = s.hsweep := rfl
@[simp] theorem State.reply_l3 (s : State) (v d : Nat) : (s.reply v d).l3 = s.l3 := rfl
@[simp] theorem State.reply_evp (s : State) (v d : Nat) : (s.reply v d).evp = s.evp := rfl
@[simp] theorem State.reply_outReq (s : State) (v d : Nat) : (s.reply v d).outReq = s.outReq := rfl
@[simp] theorem State.reply_agentTmo (s : State) (v d : Nat) : (s.reply v d).agentTmo = s.agentTmo := rfl
@[simp] theorem State.reply_encs (s : State) (v d : Nat) : (s.reply v d).encs = s.encs := rfl
@[simp] theorem State.reply_own (s : State) (v d : Nat) : (s.reply v d).own = s.own := rfl
@[simp] theorem State.reply_ownDone (s : State) (v d : Nat) : (s.reply v d).ownDone = s.ownDone := rfl
@[simp] theorem State.reply_ide (s : State) (v d : Nat) : (s.reply v d).ide = s.ide := rfl
@[simp] theorem State.reply_bmeExt (s : State) (v d : Nat) : (s.reply v d).bmeExt = s.bmeExt := rfl
@[simp] theorem State.reply_sepVer (s : State) (v d : Nat) : (s.reply v d).sepVer = s.sepVer := rfl
@[simp] theorem State.reply_keyTab (s : State) (v d : Nat) : (s.reply v d).keyTab = s.keyTab := rfl
@[simp] theorem State.reply_chans (s : State) (v d : Nat) : (s.reply v d).chans = s.chans := rfl
@[simp] theorem State.reply_parity (s : State) (v d : Nat) : (s.reply v d).parity = s.parity := rfl
@[simp] theorem State.reply_xcp (s : State) (v d : Nat) : (s.reply v d).xcp = s.xcp := rfl
@[simp] theorem State.reply_cores (s : State) (v d : Nat) : (s.reply v d).cores = s.cores := rfl
@[simp] theorem State.reply_opSeq (s : State) (v d : Nat) : (s.reply v d).opSeq = s.opSeq := rfl
@[simp] theorem State.reply_bcasts (s : State) (v d : Nat) : (s.reply v d).bcasts = s.bcasts := rfl
@[simp] theorem State.reply_tcdInv (s : State) (v d : Nat) : (s.reply v d).tcdInv = s.tcdInv := rfl
@[simp] theorem State.reply_invq (s : State) (v d : Nat) : (s.reply v d).invq = s.invq := rfl
@[simp] theorem State.reply_vmpv (s : State) (v d : Nat) : (s.reply v d).vmpv = s.vmpv := rfl
@[simp] theorem State.reply_ints (s : State) (v d : Nat) : (s.reply v d).ints = s.ints := rfl
@[simp] theorem State.reply_posts (s : State) (v d : Nat) : (s.reply v d).posts = s.posts := rfl
@[simp] theorem State.reply_mtt (s : State) (v d : Nat) : (s.reply v d).mtt = s.mtt := rfl
@[simp] theorem State.reply_mbx (s : State) (v d : Nat) : (s.reply v d).mbx = s.mbx := rfl
@[simp] theorem State.reply_assigns (s : State) (v d : Nat) : (s.reply v d).assigns = s.assigns := rfl
@[simp] theorem State.reply_wakes (s : State) (v d : Nat) : (s.reply v d).wakes = s.wakes := rfl
@[simp] theorem State.reply_watch (s : State) (v d : Nat) : (s.reply v d).watch = s.watch := rfl
@[simp] theorem State.reply_strays (s : State) (v d : Nat) : (s.reply v d).strays = s.strays := rfl
@[simp] theorem State.reply_pieces (s : State) (v d : Nat) : (s.reply v d).pieces = s.pieces := rfl
@[simp] theorem State.reply_pieceSeq (s : State) (v d : Nat) : (s.reply v d).pieceSeq = s.pieceSeq := rfl
@[simp] theorem State.reply_fence (s : State) (v d : Nat) : (s.reply v d).fence = s.fence := rfl
@[simp] theorem State.reply_winStage (s : State) (v d : Nat) : (s.reply v d).winStage = s.winStage := rfl
@[simp] theorem State.reply_rings (s : State) (v d : Nat) : (s.reply v d).rings = s.rings := rfl
@[simp] theorem State.reply_runs (s : State) (v d : Nat) : (s.reply v d).runs = s.runs := rfl
@[simp] theorem State.reply_ctxCache (s : State) (v d : Nat) : (s.reply v d).ctxCache = s.ctxCache := rfl
@[simp] theorem State.reply_rrRing (s : State) (v d : Nat) : (s.reply v d).rrRing = s.rrRing := rfl
@[simp] theorem State.reply_rrLane (s : State) (v d : Nat) : (s.reply v d).rrLane = s.rrLane := rfl
@[simp] theorem State.reply_classes (s : State) (v d : Nat) : (s.reply v d).classes = s.classes := rfl
@[simp] theorem State.reply_slots (s : State) (v d : Nat) : (s.reply v d).slots = s.slots := rfl
@[simp] theorem State.reply_kwq (s : State) (v d : Nat) : (s.reply v d).kwq = s.kwq := rfl
@[simp] theorem State.reply_alarms (s : State) (v d : Nat) : (s.reply v d).alarms = s.alarms := rfl
@[simp] theorem State.reply_drbg (s : State) (v d : Nat) : (s.reply v d).drbg = s.drbg := rfl
@[simp] theorem State.reply_admq (s : State) (v d : Nat) : (s.reply v d).admq = s.admq := rfl
@[simp] theorem State.reply_inst (s : State) (v d : Nat) : (s.reply v d).inst = s.inst := rfl
@[simp] theorem State.reply_meterTqe (s : State) (v d : Nat) : (s.reply v d).meterTqe = s.meterTqe := rfl
@[simp] theorem State.reply_dirty (s : State) (v d : Nat) : (s.reply v d).dirty = s.dirty := rfl
@[simp] theorem State.reply_fns (s : State) (v d : Nat) : (s.reply v d).fns = s.fns := rfl
@[simp] theorem State.reply_ep (s : State) (v d : Nat) : (s.reply v d).ep = s.ep := rfl
@[simp] theorem State.reply_ports (s : State) (v d : Nat) : (s.reply v d).ports = s.ports := rfl
@[simp] theorem State.reply_links (s : State) (v d : Nat) : (s.reply v d).links = s.links := rfl
@[simp] theorem State.reply_err (s : State) (v d : Nat) : (s.reply v d).err = s.err := rfl
@[simp] theorem State.reply_pmc (s : State) (v d : Nat) : (s.reply v d).pmc = s.pmc := rfl
@[simp] theorem State.reply_rly (s : State) (v d : Nat) : (s.reply v d).rly = s.rly := rfl
@[simp] theorem State.reply_mon (s : State) (v d : Nat) : (s.reply v d).mon = s.mon := rfl
@[simp] theorem State.reply_sys (s : State) (v d : Nat) : (s.reply v d).sys = s.sys := rfl
@[simp] theorem State.reply_pf (s : State) (v d : Nat) : (s.reply v d).pf = s.pf := rfl
@[simp] theorem State.reply_spl (s : State) (v d : Nat) : (s.reply v d).spl = s.spl := rfl
@[simp] theorem State.reply_pdt (s : State) (v d : Nat) : (s.reply v d).pdt = s.pdt := rfl
@[simp] theorem State.reply_motc (s : State) (v d : Nat) : (s.reply v d).motc = s.motc := rfl
@[simp] theorem State.reply_arrs (s : State) (v d : Nat) : (s.reply v d).arrs = s.arrs := rfl
@[simp] theorem State.reply_keySeq (s : State) (v d : Nat) : (s.reply v d).keySeq = s.keySeq := rfl
@[simp] theorem State.reply_l3rr (s : State) (v d : Nat) : (s.reply v d).l3rr = s.l3rr := rfl
@[simp] theorem State.reply_ctxWait (s : State) (v d : Nat) : (s.reply v d).ctxWait = s.ctxWait := rfl
@[simp] theorem State.reply_ctxLast (s : State) (v d : Nat) : (s.reply v d).ctxLast = s.ctxLast := rfl
@[simp] theorem State.reply_portQ (s : State) (v d : Nat) : (s.reply v d).portQ = s.portQ := rfl
@[simp] theorem State.reply_portOut (s : State) (v d : Nat) : (s.reply v d).portOut = s.portOut := rfl
@[simp] theorem State.reply_posted (s : State) (v d : Nat) : (s.reply v d).posted = s.posted := rfl

@[simp] theorem State.putCell_pending (s : State) (l : Nat) (c : MemLine) : (s.putCell l c).pending = s.pending := rfl
@[simp] theorem State.putCell_regs (s : State) (l : Nat) (c : MemLine) : (s.putCell l c).regs = s.regs := rfl
@[simp] theorem State.putCell_freeCtr (s : State) (l : Nat) (c : MemLine) : (s.putCell l c).freeCtr = s.freeCtr := rfl
@[simp] theorem State.putCell_now (s : State) (l : Nat) (c : MemLine) : (s.putCell l c).now = s.now := rfl
@[simp] theorem State.putCell_tb (s : State) (l : Nat) (c : MemLine) : (s.putCell l c).tb = s.tb := rfl
@[simp] theorem State.putCell_ddrUsable (s : State) (l : Nat) (c : MemLine) : (s.putCell l c).ddrUsable = s.ddrUsable := rfl
@[simp] theorem State.putCell_errIn (s : State) (l : Nat) (c : MemLine) : (s.putCell l c).errIn = s.errIn := rfl
@[simp] theorem State.putCell_mesh (s : State) (l : Nat) (c : MemLine) : (s.putCell l c).mesh = s.mesh := rfl
@[simp] theorem State.putCell_up (s : State) (l : Nat) (c : MemLine) : (s.putCell l c).up = s.up := rfl
@[simp] theorem State.putCell_homes (s : State) (l : Nat) (c : MemLine) : (s.putCell l c).homes = s.homes := rfl
@[simp] theorem State.putCell_dir (s : State) (l : Nat) (c : MemLine) : (s.putCell l c).dir = s.dir := rfl
@[simp] theorem State.putCell_hmc (s : State) (l : Nat) (c : MemLine) : (s.putCell l c).hmc = s.hmc := rfl
@[simp] theorem State.putCell_lfsr (s : State) (l : Nat) (c : MemLine) : (s.putCell l c).lfsr = s.lfsr := rfl
@[simp] theorem State.putCell_hsweep (s : State) (l : Nat) (c : MemLine) : (s.putCell l c).hsweep = s.hsweep := rfl
@[simp] theorem State.putCell_l3 (s : State) (l : Nat) (c : MemLine) : (s.putCell l c).l3 = s.l3 := rfl
@[simp] theorem State.putCell_evp (s : State) (l : Nat) (c : MemLine) : (s.putCell l c).evp = s.evp := rfl
@[simp] theorem State.putCell_outReq (s : State) (l : Nat) (c : MemLine) : (s.putCell l c).outReq = s.outReq := rfl
@[simp] theorem State.putCell_agentTmo (s : State) (l : Nat) (c : MemLine) : (s.putCell l c).agentTmo = s.agentTmo := rfl
@[simp] theorem State.putCell_encs (s : State) (l : Nat) (c : MemLine) : (s.putCell l c).encs = s.encs := rfl
@[simp] theorem State.putCell_own (s : State) (l : Nat) (c : MemLine) : (s.putCell l c).own = s.own := rfl
@[simp] theorem State.putCell_ownDone (s : State) (l : Nat) (c : MemLine) : (s.putCell l c).ownDone = s.ownDone := rfl
@[simp] theorem State.putCell_ide (s : State) (l : Nat) (c : MemLine) : (s.putCell l c).ide = s.ide := rfl
@[simp] theorem State.putCell_bmeExt (s : State) (l : Nat) (c : MemLine) : (s.putCell l c).bmeExt = s.bmeExt := rfl
@[simp] theorem State.putCell_sepVer (s : State) (l : Nat) (c : MemLine) : (s.putCell l c).sepVer = s.sepVer := rfl
@[simp] theorem State.putCell_keyTab (s : State) (l : Nat) (c : MemLine) : (s.putCell l c).keyTab = s.keyTab := rfl
@[simp] theorem State.putCell_chans (s : State) (l : Nat) (c : MemLine) : (s.putCell l c).chans = s.chans := rfl
@[simp] theorem State.putCell_parity (s : State) (l : Nat) (c : MemLine) : (s.putCell l c).parity = s.parity := rfl
@[simp] theorem State.putCell_xcp (s : State) (l : Nat) (c : MemLine) : (s.putCell l c).xcp = s.xcp := rfl
@[simp] theorem State.putCell_cores (s : State) (l : Nat) (c : MemLine) : (s.putCell l c).cores = s.cores := rfl
@[simp] theorem State.putCell_opSeq (s : State) (l : Nat) (c : MemLine) : (s.putCell l c).opSeq = s.opSeq := rfl
@[simp] theorem State.putCell_bcasts (s : State) (l : Nat) (c : MemLine) : (s.putCell l c).bcasts = s.bcasts := rfl
@[simp] theorem State.putCell_tcdInv (s : State) (l : Nat) (c : MemLine) : (s.putCell l c).tcdInv = s.tcdInv := rfl
@[simp] theorem State.putCell_invq (s : State) (l : Nat) (c : MemLine) : (s.putCell l c).invq = s.invq := rfl
@[simp] theorem State.putCell_vmpv (s : State) (l : Nat) (c : MemLine) : (s.putCell l c).vmpv = s.vmpv := rfl
@[simp] theorem State.putCell_ints (s : State) (l : Nat) (c : MemLine) : (s.putCell l c).ints = s.ints := rfl
@[simp] theorem State.putCell_posts (s : State) (l : Nat) (c : MemLine) : (s.putCell l c).posts = s.posts := rfl
@[simp] theorem State.putCell_mtt (s : State) (l : Nat) (c : MemLine) : (s.putCell l c).mtt = s.mtt := rfl
@[simp] theorem State.putCell_mbx (s : State) (l : Nat) (c : MemLine) : (s.putCell l c).mbx = s.mbx := rfl
@[simp] theorem State.putCell_assigns (s : State) (l : Nat) (c : MemLine) : (s.putCell l c).assigns = s.assigns := rfl
@[simp] theorem State.putCell_wakes (s : State) (l : Nat) (c : MemLine) : (s.putCell l c).wakes = s.wakes := rfl
@[simp] theorem State.putCell_ans (s : State) (l : Nat) (c : MemLine) : (s.putCell l c).ans = s.ans := rfl
@[simp] theorem State.putCell_watch (s : State) (l : Nat) (c : MemLine) : (s.putCell l c).watch = s.watch := rfl
@[simp] theorem State.putCell_strays (s : State) (l : Nat) (c : MemLine) : (s.putCell l c).strays = s.strays := rfl
@[simp] theorem State.putCell_pieces (s : State) (l : Nat) (c : MemLine) : (s.putCell l c).pieces = s.pieces := rfl
@[simp] theorem State.putCell_pieceSeq (s : State) (l : Nat) (c : MemLine) : (s.putCell l c).pieceSeq = s.pieceSeq := rfl
@[simp] theorem State.putCell_fence (s : State) (l : Nat) (c : MemLine) : (s.putCell l c).fence = s.fence := rfl
@[simp] theorem State.putCell_winStage (s : State) (l : Nat) (c : MemLine) : (s.putCell l c).winStage = s.winStage := rfl
@[simp] theorem State.putCell_rings (s : State) (l : Nat) (c : MemLine) : (s.putCell l c).rings = s.rings := rfl
@[simp] theorem State.putCell_runs (s : State) (l : Nat) (c : MemLine) : (s.putCell l c).runs = s.runs := rfl
@[simp] theorem State.putCell_ctxCache (s : State) (l : Nat) (c : MemLine) : (s.putCell l c).ctxCache = s.ctxCache := rfl
@[simp] theorem State.putCell_rrRing (s : State) (l : Nat) (c : MemLine) : (s.putCell l c).rrRing = s.rrRing := rfl
@[simp] theorem State.putCell_rrLane (s : State) (l : Nat) (c : MemLine) : (s.putCell l c).rrLane = s.rrLane := rfl
@[simp] theorem State.putCell_classes (s : State) (l : Nat) (c : MemLine) : (s.putCell l c).classes = s.classes := rfl
@[simp] theorem State.putCell_slots (s : State) (l : Nat) (c : MemLine) : (s.putCell l c).slots = s.slots := rfl
@[simp] theorem State.putCell_kwq (s : State) (l : Nat) (c : MemLine) : (s.putCell l c).kwq = s.kwq := rfl
@[simp] theorem State.putCell_alarms (s : State) (l : Nat) (c : MemLine) : (s.putCell l c).alarms = s.alarms := rfl
@[simp] theorem State.putCell_drbg (s : State) (l : Nat) (c : MemLine) : (s.putCell l c).drbg = s.drbg := rfl
@[simp] theorem State.putCell_admq (s : State) (l : Nat) (c : MemLine) : (s.putCell l c).admq = s.admq := rfl
@[simp] theorem State.putCell_inst (s : State) (l : Nat) (c : MemLine) : (s.putCell l c).inst = s.inst := rfl
@[simp] theorem State.putCell_meterTqe (s : State) (l : Nat) (c : MemLine) : (s.putCell l c).meterTqe = s.meterTqe := rfl
@[simp] theorem State.putCell_dirty (s : State) (l : Nat) (c : MemLine) : (s.putCell l c).dirty = s.dirty := rfl
@[simp] theorem State.putCell_fns (s : State) (l : Nat) (c : MemLine) : (s.putCell l c).fns = s.fns := rfl
@[simp] theorem State.putCell_ep (s : State) (l : Nat) (c : MemLine) : (s.putCell l c).ep = s.ep := rfl
@[simp] theorem State.putCell_ports (s : State) (l : Nat) (c : MemLine) : (s.putCell l c).ports = s.ports := rfl
@[simp] theorem State.putCell_links (s : State) (l : Nat) (c : MemLine) : (s.putCell l c).links = s.links := rfl
@[simp] theorem State.putCell_err (s : State) (l : Nat) (c : MemLine) : (s.putCell l c).err = s.err := rfl
@[simp] theorem State.putCell_pmc (s : State) (l : Nat) (c : MemLine) : (s.putCell l c).pmc = s.pmc := rfl
@[simp] theorem State.putCell_rly (s : State) (l : Nat) (c : MemLine) : (s.putCell l c).rly = s.rly := rfl
@[simp] theorem State.putCell_mon (s : State) (l : Nat) (c : MemLine) : (s.putCell l c).mon = s.mon := rfl
@[simp] theorem State.putCell_sys (s : State) (l : Nat) (c : MemLine) : (s.putCell l c).sys = s.sys := rfl
@[simp] theorem State.putCell_pf (s : State) (l : Nat) (c : MemLine) : (s.putCell l c).pf = s.pf := rfl
@[simp] theorem State.putCell_spl (s : State) (l : Nat) (c : MemLine) : (s.putCell l c).spl = s.spl := rfl
@[simp] theorem State.putCell_pdt (s : State) (l : Nat) (c : MemLine) : (s.putCell l c).pdt = s.pdt := rfl
@[simp] theorem State.putCell_motc (s : State) (l : Nat) (c : MemLine) : (s.putCell l c).motc = s.motc := rfl
@[simp] theorem State.putCell_arrs (s : State) (l : Nat) (c : MemLine) : (s.putCell l c).arrs = s.arrs := rfl
@[simp] theorem State.putCell_keySeq (s : State) (l : Nat) (c : MemLine) : (s.putCell l c).keySeq = s.keySeq := rfl
@[simp] theorem State.putCell_l3rr (s : State) (l : Nat) (c : MemLine) : (s.putCell l c).l3rr = s.l3rr := rfl
@[simp] theorem State.putCell_ctxWait (s : State) (l : Nat) (c : MemLine) : (s.putCell l c).ctxWait = s.ctxWait := rfl
@[simp] theorem State.putCell_ctxLast (s : State) (l : Nat) (c : MemLine) : (s.putCell l c).ctxLast = s.ctxLast := rfl
@[simp] theorem State.putCell_portQ (s : State) (l : Nat) (c : MemLine) : (s.putCell l c).portQ = s.portQ := rfl
@[simp] theorem State.putCell_portOut (s : State) (l : Nat) (c : MemLine) : (s.putCell l c).portOut = s.portOut := rfl
@[simp] theorem State.putCell_posted (s : State) (l : Nat) (c : MemLine) : (s.putCell l c).posted = s.posted := rfl

@[simp] theorem State.setMon_pending (s : State) (m : MonSt) : (s.setMon m).pending = s.pending := rfl
@[simp] theorem State.setMon_regs (s : State) (m : MonSt) : (s.setMon m).regs = s.regs := rfl
@[simp] theorem State.setMon_mem (s : State) (m : MonSt) : (s.setMon m).mem = s.mem := rfl
@[simp] theorem State.setMon_freeCtr (s : State) (m : MonSt) : (s.setMon m).freeCtr = s.freeCtr := rfl
@[simp] theorem State.setMon_now (s : State) (m : MonSt) : (s.setMon m).now = s.now := rfl
@[simp] theorem State.setMon_tb (s : State) (m : MonSt) : (s.setMon m).tb = s.tb := rfl
@[simp] theorem State.setMon_ddrUsable (s : State) (m : MonSt) : (s.setMon m).ddrUsable = s.ddrUsable := rfl
@[simp] theorem State.setMon_errIn (s : State) (m : MonSt) : (s.setMon m).errIn = s.errIn := rfl
@[simp] theorem State.setMon_mesh (s : State) (m : MonSt) : (s.setMon m).mesh = s.mesh := rfl
@[simp] theorem State.setMon_up (s : State) (m : MonSt) : (s.setMon m).up = s.up := rfl
@[simp] theorem State.setMon_homes (s : State) (m : MonSt) : (s.setMon m).homes = s.homes := rfl
@[simp] theorem State.setMon_dir (s : State) (m : MonSt) : (s.setMon m).dir = s.dir := rfl
@[simp] theorem State.setMon_hmc (s : State) (m : MonSt) : (s.setMon m).hmc = s.hmc := rfl
@[simp] theorem State.setMon_lfsr (s : State) (m : MonSt) : (s.setMon m).lfsr = s.lfsr := rfl
@[simp] theorem State.setMon_hsweep (s : State) (m : MonSt) : (s.setMon m).hsweep = s.hsweep := rfl
@[simp] theorem State.setMon_l3 (s : State) (m : MonSt) : (s.setMon m).l3 = s.l3 := rfl
@[simp] theorem State.setMon_evp (s : State) (m : MonSt) : (s.setMon m).evp = s.evp := rfl
@[simp] theorem State.setMon_outReq (s : State) (m : MonSt) : (s.setMon m).outReq = s.outReq := rfl
@[simp] theorem State.setMon_agentTmo (s : State) (m : MonSt) : (s.setMon m).agentTmo = s.agentTmo := rfl
@[simp] theorem State.setMon_encs (s : State) (m : MonSt) : (s.setMon m).encs = s.encs := rfl
@[simp] theorem State.setMon_own (s : State) (m : MonSt) : (s.setMon m).own = s.own := rfl
@[simp] theorem State.setMon_ownDone (s : State) (m : MonSt) : (s.setMon m).ownDone = s.ownDone := rfl
@[simp] theorem State.setMon_ide (s : State) (m : MonSt) : (s.setMon m).ide = s.ide := rfl
@[simp] theorem State.setMon_bmeExt (s : State) (m : MonSt) : (s.setMon m).bmeExt = s.bmeExt := rfl
@[simp] theorem State.setMon_sepVer (s : State) (m : MonSt) : (s.setMon m).sepVer = s.sepVer := rfl
@[simp] theorem State.setMon_keyTab (s : State) (m : MonSt) : (s.setMon m).keyTab = s.keyTab := rfl
@[simp] theorem State.setMon_chans (s : State) (m : MonSt) : (s.setMon m).chans = s.chans := rfl
@[simp] theorem State.setMon_parity (s : State) (m : MonSt) : (s.setMon m).parity = s.parity := rfl
@[simp] theorem State.setMon_xcp (s : State) (m : MonSt) : (s.setMon m).xcp = s.xcp := rfl
@[simp] theorem State.setMon_cores (s : State) (m : MonSt) : (s.setMon m).cores = s.cores := rfl
@[simp] theorem State.setMon_opSeq (s : State) (m : MonSt) : (s.setMon m).opSeq = s.opSeq := rfl
@[simp] theorem State.setMon_bcasts (s : State) (m : MonSt) : (s.setMon m).bcasts = s.bcasts := rfl
@[simp] theorem State.setMon_tcdInv (s : State) (m : MonSt) : (s.setMon m).tcdInv = s.tcdInv := rfl
@[simp] theorem State.setMon_invq (s : State) (m : MonSt) : (s.setMon m).invq = s.invq := rfl
@[simp] theorem State.setMon_vmpv (s : State) (m : MonSt) : (s.setMon m).vmpv = s.vmpv := rfl
@[simp] theorem State.setMon_ints (s : State) (m : MonSt) : (s.setMon m).ints = s.ints := rfl
@[simp] theorem State.setMon_posts (s : State) (m : MonSt) : (s.setMon m).posts = s.posts := rfl
@[simp] theorem State.setMon_mtt (s : State) (m : MonSt) : (s.setMon m).mtt = s.mtt := rfl
@[simp] theorem State.setMon_mbx (s : State) (m : MonSt) : (s.setMon m).mbx = s.mbx := rfl
@[simp] theorem State.setMon_assigns (s : State) (m : MonSt) : (s.setMon m).assigns = s.assigns := rfl
@[simp] theorem State.setMon_wakes (s : State) (m : MonSt) : (s.setMon m).wakes = s.wakes := rfl
@[simp] theorem State.setMon_ans (s : State) (m : MonSt) : (s.setMon m).ans = s.ans := rfl
@[simp] theorem State.setMon_watch (s : State) (m : MonSt) : (s.setMon m).watch = s.watch := rfl
@[simp] theorem State.setMon_strays (s : State) (m : MonSt) : (s.setMon m).strays = s.strays := rfl
@[simp] theorem State.setMon_pieces (s : State) (m : MonSt) : (s.setMon m).pieces = s.pieces := rfl
@[simp] theorem State.setMon_pieceSeq (s : State) (m : MonSt) : (s.setMon m).pieceSeq = s.pieceSeq := rfl
@[simp] theorem State.setMon_fence (s : State) (m : MonSt) : (s.setMon m).fence = s.fence := rfl
@[simp] theorem State.setMon_winStage (s : State) (m : MonSt) : (s.setMon m).winStage = s.winStage := rfl
@[simp] theorem State.setMon_rings (s : State) (m : MonSt) : (s.setMon m).rings = s.rings := rfl
@[simp] theorem State.setMon_runs (s : State) (m : MonSt) : (s.setMon m).runs = s.runs := rfl
@[simp] theorem State.setMon_ctxCache (s : State) (m : MonSt) : (s.setMon m).ctxCache = s.ctxCache := rfl
@[simp] theorem State.setMon_rrRing (s : State) (m : MonSt) : (s.setMon m).rrRing = s.rrRing := rfl
@[simp] theorem State.setMon_rrLane (s : State) (m : MonSt) : (s.setMon m).rrLane = s.rrLane := rfl
@[simp] theorem State.setMon_classes (s : State) (m : MonSt) : (s.setMon m).classes = s.classes := rfl
@[simp] theorem State.setMon_slots (s : State) (m : MonSt) : (s.setMon m).slots = s.slots := rfl
@[simp] theorem State.setMon_kwq (s : State) (m : MonSt) : (s.setMon m).kwq = s.kwq := rfl
@[simp] theorem State.setMon_alarms (s : State) (m : MonSt) : (s.setMon m).alarms = s.alarms := rfl
@[simp] theorem State.setMon_drbg (s : State) (m : MonSt) : (s.setMon m).drbg = s.drbg := rfl
@[simp] theorem State.setMon_admq (s : State) (m : MonSt) : (s.setMon m).admq = s.admq := rfl
@[simp] theorem State.setMon_inst (s : State) (m : MonSt) : (s.setMon m).inst = s.inst := rfl
@[simp] theorem State.setMon_meterTqe (s : State) (m : MonSt) : (s.setMon m).meterTqe = s.meterTqe := rfl
@[simp] theorem State.setMon_dirty (s : State) (m : MonSt) : (s.setMon m).dirty = s.dirty := rfl
@[simp] theorem State.setMon_fns (s : State) (m : MonSt) : (s.setMon m).fns = s.fns := rfl
@[simp] theorem State.setMon_ep (s : State) (m : MonSt) : (s.setMon m).ep = s.ep := rfl
@[simp] theorem State.setMon_ports (s : State) (m : MonSt) : (s.setMon m).ports = s.ports := rfl
@[simp] theorem State.setMon_links (s : State) (m : MonSt) : (s.setMon m).links = s.links := rfl
@[simp] theorem State.setMon_err (s : State) (m : MonSt) : (s.setMon m).err = s.err := rfl
@[simp] theorem State.setMon_pmc (s : State) (m : MonSt) : (s.setMon m).pmc = s.pmc := rfl
@[simp] theorem State.setMon_rly (s : State) (m : MonSt) : (s.setMon m).rly = s.rly := rfl
@[simp] theorem State.setMon_sys (s : State) (m : MonSt) : (s.setMon m).sys = s.sys := rfl
@[simp] theorem State.setMon_pf (s : State) (m : MonSt) : (s.setMon m).pf = s.pf := rfl
@[simp] theorem State.setMon_spl (s : State) (m : MonSt) : (s.setMon m).spl = s.spl := rfl
@[simp] theorem State.setMon_pdt (s : State) (m : MonSt) : (s.setMon m).pdt = s.pdt := rfl
@[simp] theorem State.setMon_motc (s : State) (m : MonSt) : (s.setMon m).motc = s.motc := rfl
@[simp] theorem State.setMon_arrs (s : State) (m : MonSt) : (s.setMon m).arrs = s.arrs := rfl
@[simp] theorem State.setMon_keySeq (s : State) (m : MonSt) : (s.setMon m).keySeq = s.keySeq := rfl
@[simp] theorem State.setMon_l3rr (s : State) (m : MonSt) : (s.setMon m).l3rr = s.l3rr := rfl
@[simp] theorem State.setMon_ctxWait (s : State) (m : MonSt) : (s.setMon m).ctxWait = s.ctxWait := rfl
@[simp] theorem State.setMon_ctxLast (s : State) (m : MonSt) : (s.setMon m).ctxLast = s.ctxLast := rfl
@[simp] theorem State.setMon_portQ (s : State) (m : MonSt) : (s.setMon m).portQ = s.portQ := rfl
@[simp] theorem State.setMon_portOut (s : State) (m : MonSt) : (s.setMon m).portOut = s.portOut := rfl
@[simp] theorem State.setMon_posted (s : State) (m : MonSt) : (s.setMon m).posted = s.posted := rfl

@[simp] theorem State.setErr_pending (s : State) (e : ErrSt) : (s.setErr e).pending = s.pending := rfl
@[simp] theorem State.setErr_regs (s : State) (e : ErrSt) : (s.setErr e).regs = s.regs := rfl
@[simp] theorem State.setErr_mem (s : State) (e : ErrSt) : (s.setErr e).mem = s.mem := rfl
@[simp] theorem State.setErr_freeCtr (s : State) (e : ErrSt) : (s.setErr e).freeCtr = s.freeCtr := rfl
@[simp] theorem State.setErr_now (s : State) (e : ErrSt) : (s.setErr e).now = s.now := rfl
@[simp] theorem State.setErr_tb (s : State) (e : ErrSt) : (s.setErr e).tb = s.tb := rfl
@[simp] theorem State.setErr_ddrUsable (s : State) (e : ErrSt) : (s.setErr e).ddrUsable = s.ddrUsable := rfl
@[simp] theorem State.setErr_errIn (s : State) (e : ErrSt) : (s.setErr e).errIn = s.errIn := rfl
@[simp] theorem State.setErr_mesh (s : State) (e : ErrSt) : (s.setErr e).mesh = s.mesh := rfl
@[simp] theorem State.setErr_up (s : State) (e : ErrSt) : (s.setErr e).up = s.up := rfl
@[simp] theorem State.setErr_homes (s : State) (e : ErrSt) : (s.setErr e).homes = s.homes := rfl
@[simp] theorem State.setErr_dir (s : State) (e : ErrSt) : (s.setErr e).dir = s.dir := rfl
@[simp] theorem State.setErr_hmc (s : State) (e : ErrSt) : (s.setErr e).hmc = s.hmc := rfl
@[simp] theorem State.setErr_lfsr (s : State) (e : ErrSt) : (s.setErr e).lfsr = s.lfsr := rfl
@[simp] theorem State.setErr_hsweep (s : State) (e : ErrSt) : (s.setErr e).hsweep = s.hsweep := rfl
@[simp] theorem State.setErr_l3 (s : State) (e : ErrSt) : (s.setErr e).l3 = s.l3 := rfl
@[simp] theorem State.setErr_evp (s : State) (e : ErrSt) : (s.setErr e).evp = s.evp := rfl
@[simp] theorem State.setErr_outReq (s : State) (e : ErrSt) : (s.setErr e).outReq = s.outReq := rfl
@[simp] theorem State.setErr_agentTmo (s : State) (e : ErrSt) : (s.setErr e).agentTmo = s.agentTmo := rfl
@[simp] theorem State.setErr_encs (s : State) (e : ErrSt) : (s.setErr e).encs = s.encs := rfl
@[simp] theorem State.setErr_own (s : State) (e : ErrSt) : (s.setErr e).own = s.own := rfl
@[simp] theorem State.setErr_ownDone (s : State) (e : ErrSt) : (s.setErr e).ownDone = s.ownDone := rfl
@[simp] theorem State.setErr_ide (s : State) (e : ErrSt) : (s.setErr e).ide = s.ide := rfl
@[simp] theorem State.setErr_bmeExt (s : State) (e : ErrSt) : (s.setErr e).bmeExt = s.bmeExt := rfl
@[simp] theorem State.setErr_sepVer (s : State) (e : ErrSt) : (s.setErr e).sepVer = s.sepVer := rfl
@[simp] theorem State.setErr_keyTab (s : State) (e : ErrSt) : (s.setErr e).keyTab = s.keyTab := rfl
@[simp] theorem State.setErr_chans (s : State) (e : ErrSt) : (s.setErr e).chans = s.chans := rfl
@[simp] theorem State.setErr_parity (s : State) (e : ErrSt) : (s.setErr e).parity = s.parity := rfl
@[simp] theorem State.setErr_xcp (s : State) (e : ErrSt) : (s.setErr e).xcp = s.xcp := rfl
@[simp] theorem State.setErr_cores (s : State) (e : ErrSt) : (s.setErr e).cores = s.cores := rfl
@[simp] theorem State.setErr_opSeq (s : State) (e : ErrSt) : (s.setErr e).opSeq = s.opSeq := rfl
@[simp] theorem State.setErr_bcasts (s : State) (e : ErrSt) : (s.setErr e).bcasts = s.bcasts := rfl
@[simp] theorem State.setErr_tcdInv (s : State) (e : ErrSt) : (s.setErr e).tcdInv = s.tcdInv := rfl
@[simp] theorem State.setErr_invq (s : State) (e : ErrSt) : (s.setErr e).invq = s.invq := rfl
@[simp] theorem State.setErr_vmpv (s : State) (e : ErrSt) : (s.setErr e).vmpv = s.vmpv := rfl
@[simp] theorem State.setErr_ints (s : State) (e : ErrSt) : (s.setErr e).ints = s.ints := rfl
@[simp] theorem State.setErr_posts (s : State) (e : ErrSt) : (s.setErr e).posts = s.posts := rfl
@[simp] theorem State.setErr_mtt (s : State) (e : ErrSt) : (s.setErr e).mtt = s.mtt := rfl
@[simp] theorem State.setErr_mbx (s : State) (e : ErrSt) : (s.setErr e).mbx = s.mbx := rfl
@[simp] theorem State.setErr_assigns (s : State) (e : ErrSt) : (s.setErr e).assigns = s.assigns := rfl
@[simp] theorem State.setErr_wakes (s : State) (e : ErrSt) : (s.setErr e).wakes = s.wakes := rfl
@[simp] theorem State.setErr_ans (s : State) (e : ErrSt) : (s.setErr e).ans = s.ans := rfl
@[simp] theorem State.setErr_watch (s : State) (e : ErrSt) : (s.setErr e).watch = s.watch := rfl
@[simp] theorem State.setErr_strays (s : State) (e : ErrSt) : (s.setErr e).strays = s.strays := rfl
@[simp] theorem State.setErr_pieces (s : State) (e : ErrSt) : (s.setErr e).pieces = s.pieces := rfl
@[simp] theorem State.setErr_pieceSeq (s : State) (e : ErrSt) : (s.setErr e).pieceSeq = s.pieceSeq := rfl
@[simp] theorem State.setErr_fence (s : State) (e : ErrSt) : (s.setErr e).fence = s.fence := rfl
@[simp] theorem State.setErr_winStage (s : State) (e : ErrSt) : (s.setErr e).winStage = s.winStage := rfl
@[simp] theorem State.setErr_rings (s : State) (e : ErrSt) : (s.setErr e).rings = s.rings := rfl
@[simp] theorem State.setErr_runs (s : State) (e : ErrSt) : (s.setErr e).runs = s.runs := rfl
@[simp] theorem State.setErr_ctxCache (s : State) (e : ErrSt) : (s.setErr e).ctxCache = s.ctxCache := rfl
@[simp] theorem State.setErr_rrRing (s : State) (e : ErrSt) : (s.setErr e).rrRing = s.rrRing := rfl
@[simp] theorem State.setErr_rrLane (s : State) (e : ErrSt) : (s.setErr e).rrLane = s.rrLane := rfl
@[simp] theorem State.setErr_classes (s : State) (e : ErrSt) : (s.setErr e).classes = s.classes := rfl
@[simp] theorem State.setErr_slots (s : State) (e : ErrSt) : (s.setErr e).slots = s.slots := rfl
@[simp] theorem State.setErr_kwq (s : State) (e : ErrSt) : (s.setErr e).kwq = s.kwq := rfl
@[simp] theorem State.setErr_alarms (s : State) (e : ErrSt) : (s.setErr e).alarms = s.alarms := rfl
@[simp] theorem State.setErr_drbg (s : State) (e : ErrSt) : (s.setErr e).drbg = s.drbg := rfl
@[simp] theorem State.setErr_admq (s : State) (e : ErrSt) : (s.setErr e).admq = s.admq := rfl
@[simp] theorem State.setErr_inst (s : State) (e : ErrSt) : (s.setErr e).inst = s.inst := rfl
@[simp] theorem State.setErr_meterTqe (s : State) (e : ErrSt) : (s.setErr e).meterTqe = s.meterTqe := rfl
@[simp] theorem State.setErr_dirty (s : State) (e : ErrSt) : (s.setErr e).dirty = s.dirty := rfl
@[simp] theorem State.setErr_fns (s : State) (e : ErrSt) : (s.setErr e).fns = s.fns := rfl
@[simp] theorem State.setErr_ep (s : State) (e : ErrSt) : (s.setErr e).ep = s.ep := rfl
@[simp] theorem State.setErr_ports (s : State) (e : ErrSt) : (s.setErr e).ports = s.ports := rfl
@[simp] theorem State.setErr_links (s : State) (e : ErrSt) : (s.setErr e).links = s.links := rfl
@[simp] theorem State.setErr_pmc (s : State) (e : ErrSt) : (s.setErr e).pmc = s.pmc := rfl
@[simp] theorem State.setErr_rly (s : State) (e : ErrSt) : (s.setErr e).rly = s.rly := rfl
@[simp] theorem State.setErr_mon (s : State) (e : ErrSt) : (s.setErr e).mon = s.mon := rfl
@[simp] theorem State.setErr_sys (s : State) (e : ErrSt) : (s.setErr e).sys = s.sys := rfl
@[simp] theorem State.setErr_pf (s : State) (e : ErrSt) : (s.setErr e).pf = s.pf := rfl
@[simp] theorem State.setErr_spl (s : State) (e : ErrSt) : (s.setErr e).spl = s.spl := rfl
@[simp] theorem State.setErr_pdt (s : State) (e : ErrSt) : (s.setErr e).pdt = s.pdt := rfl
@[simp] theorem State.setErr_motc (s : State) (e : ErrSt) : (s.setErr e).motc = s.motc := rfl
@[simp] theorem State.setErr_arrs (s : State) (e : ErrSt) : (s.setErr e).arrs = s.arrs := rfl
@[simp] theorem State.setErr_keySeq (s : State) (e : ErrSt) : (s.setErr e).keySeq = s.keySeq := rfl
@[simp] theorem State.setErr_l3rr (s : State) (e : ErrSt) : (s.setErr e).l3rr = s.l3rr := rfl
@[simp] theorem State.setErr_ctxWait (s : State) (e : ErrSt) : (s.setErr e).ctxWait = s.ctxWait := rfl
@[simp] theorem State.setErr_ctxLast (s : State) (e : ErrSt) : (s.setErr e).ctxLast = s.ctxLast := rfl
@[simp] theorem State.setErr_portQ (s : State) (e : ErrSt) : (s.setErr e).portQ = s.portQ := rfl
@[simp] theorem State.setErr_portOut (s : State) (e : ErrSt) : (s.setErr e).portOut = s.portOut := rfl
@[simp] theorem State.setErr_posted (s : State) (e : ErrSt) : (s.setErr e).posted = s.posted := rfl

/-- What a command's effect becomes: the same state with the queue as it was. -/
theorem State.done_eq (s t : State) : s.done t = .next { t with pending := s.pending } := rfl

end Sys2Proof.Machine
end

