-- ==== Sys2Proof/Laws/Step.lean ====
section
/-!
SUPPORT. What a step can do, said once: a row answers a next state with the queue's rest, and a row of the islands that a
photo-finish stops does nothing while they are stopped.
-/
namespace Sys2Proof.Machine

/-- While the islands run, such a row has its effect. -/
theorem State.ifRuns_run {s : State} (h : s.stopped = false) (k : State → State) :
    s.ifRuns k = .next { k s with pending := s.pending } := by simp [State.ifRuns, State.done, h]

/-- While the islands are stopped, such a row does nothing. -/
theorem State.ifRuns_stopped {s : State} (h : s.stopped = true) (k : State → State) : s.ifRuns k = .next s := by
  simp [State.ifRuns, State.done, h]

/-- Every command answers a next state whose queue is the queue it found. -/
theorem exec_next (i : Instr) (s : State) : ∃ t : State, exec i s = .next { t with pending := s.pending } := by
  cases i <;> exact ⟨_, rfl⟩

/-- With a command in front, a step is that command on the state with the queue's rest. -/
theorem step_cons {s : State} {c : Instr} {rest : List Instr} (h : s.pending = c :: rest) :
    step s = exec c { s with pending := rest } := by simp [step, h]

/-- With an empty queue a step is one cycle. -/
theorem step_nil {s : State} (h : s.pending = []) : step s = s.done s.tick := by simp [step, h]

end Sys2Proof.Machine
end

