-- ==== Sys2Proof/Tests/Slice0.lean ====
section
/-!
SUPPORT. The model's own tests: ill-formed commands that the checks refuse, worked examples of the spec, and for each
statement with hypotheses a state and operands that meet them.
-/
namespace Sys2Proof.Tests
open Sys2Proof Sys2Proof.Machine

set_option Elab.async false

/-! ### Helpers -/

def attr0 : Attr := ⟨false, 0, 0, 0, 0⟩
def attrS : Attr := ⟨true, 0, 0, 0, 0⟩
def dev0 : Dev := ⟨60, attr0⟩
def devS : Dev := ⟨60, attrS⟩

/-- The reset state in a package mode. -/
def inMode (m : Nat) : State := State.reset.wr HUB_PKG_MODE.PKG_MODE m
def running : State := inMode 3

def msg (opc : Opc) (line : LineAddr) (a : Attr) : Msg :=
  ⟨opc, 1, 0, 60, 60, 5, line, a, 0, false, false, 6, 0, 0xFFFFFFFFFFFFFFFF#64, 7#512, 0⟩

def frame (cls : BitVec 3) (code : BitVec 5) (dst src : BitVec 8) (payload : List (BitVec 8)) : Frame :=
  ⟨cls, code, dst, src, 0, 1, 0, false, false, 0, 9, payload, 0, false⟩

/-- A property of the state that an outcome answers. -/
def after (o : Host.Outcome State Fault Refusal) (p : State → Bool) : Bool := match o with
  | .next t => p t
  | _ => false

/-! ### Ill-formed commands are refused by the checks -/

theorem test_wf_register_place : (Instr.registerWrite (.mem 0x1000) 3 0 dev0).wf = false := by decide +kernel
theorem test_wf_register_place_ok : (Instr.registerWrite (.mem 0xFFE0000000000) 3 0 dev0).wf = true := by decide +kernel
theorem test_wf_training_bits : (Instr.trainingAttemptEnd 0 0 [(3, 5), (3, 5)]).wf = false := by decide +kernel
theorem test_wf_numbers : ([.regulatorTrip 92, .regulatorSample 92 0, .voltageRampDone 72, .junctionHot 72 0,
    .junctionFatal 72] : List Instr).all (fun c => c.wf == false) = true := by decide +kernel
theorem test_wf_metering : (Instr.meteringInterval [⟨1, 2, 0, 0⟩, ⟨1, 2, 3, 4⟩]).wf = false := by decide +kernel
theorem test_wf_frame_class : ([.discover (frame 1 1 0xFF 0 []), .announce (frame 0 1 0xFF 0 []), .time (frame 0 1 0xFF 0 []) 0,
    .rlyIdent (some (frame 3 2 1 0 [])), .rlyStatus (some (frame 3 1 1 0 [])), .rlyBoot (some (frame 4 2 1 0 [])),
    .rlyPowerDown (some (frame 4 1 1 0 [])), .rlyReset (some (frame 4 4 1 0 [])), .rlySetLimit (some (frame 4 3 1 0 [])),
    .linkdly (some (frame 4 6 1 0 [])), .leave (some (frame 4 5 1 0 [])), .rlyMonitor (some (frame 4 1 1 0 []))] :
    List Instr).all (fun c => c.wf == false) = true := by decide +kernel
theorem test_wf_frame_length : (Instr.ringFramePass (frame 0 1 0xFF 0 (List.replicate 241 0))).wf = false := by decide +kernel
theorem test_wf_frame_tag : (Instr.ringFramePass { frame 0 1 0xFF 0 [] with mac := 1 }).wf = false := by decide +kernel
theorem test_wf_frame_status : (Instr.ringFramePass { frame 0 1 0xFF 0 [] with sts := 1 }).wf = false := by decide +kernel
theorem test_wf_frame_answer : (Instr.leave (some { frame 4 6 1 0 [] with ans := true })).wf = false := by decide +kernel
theorem test_wf_line_number (n : Nat) (h : n = 16 ^ 236) : ([.auth (some (n, 0)), .auth (some (0, n)), .baud n, .log n,
    .powerdown n, .monReset n, .limit n 0, .limit 0 n, .cap [n] 0, .cap [] n, .rd n, .wr n 0, .wr 0 n, .perf n, .halt n,
    .go n, .step n, .regs n, .setreg n 0 0, .setreg 0 n 0, .setreg 0 0 n, .brk n 0 none, .brk 0 n none, .brk 0 0 (some n),
    .memrd n 0 0 0, .memrd 0 n 0 0, .memrd 0 0 n 0, .memrd 0 0 0 n, .memwr n 0 0 0, .memwr 0 n 0 0, .memwr 0 0 n 0,
    .memwr 0 0 0 n] : List Instr).all (fun c => c.wf == false) = true := by subst h; decide +kernel
theorem test_wf_slot : (Instr.strideSlotReceive 0 false ⟨0, List.replicate 6 (msg .rdOnce 0 attr0), 0, none⟩ false).wf = false := by
  decide +kernel
theorem test_cdu_report : after (exec (.cduReport 150 120 160) ((State.reset.wr RLY_POS.STATE 2).wr RLY_POS.POS 5)) (fun t =>
    t.rd PMC_THERM.FLOW == 150 && t.rd PMC_THERM.T_IN == 120 && t.rd PMC_THERM.T_OUT == 160 &&
    (t.rmcReport 2 5 []).seq == 2) = true := by decide +kernel
theorem test_wf_cap_list : (Instr.cap (List.replicate 111 0) 0).wf = false := by decide +kernel
theorem test_wf_boot_config (c : BootCfg) (h : c.fields = [(4, 0), (4, 1)]) (k : BitVec 8) (v : BitVec 64) :
    (Instr.bootChainVerified k v c).wf = false := by simp [Instr.wf, BootCfg.wf, h, noTwice]

/-! ### Worked examples of the spec -/

/-- R26: 0x0000_0005 is newer than 0xFFFF_FFF0 as 32-bit numbers, 0x7FFF_FFF0 is older. -/
theorem test_serial_example : serialNewer 32 5 0xFFFFFFF0 = true ∧ serialOlder 32 0x7FFFFFF0 0xFFFFFFF0 = true := by
  decide +kernel

/-- R133: 0x9C40 with the allowed ways 8 to 11 gives way 10. -/
theorem test_victim_example : pickWay 0x9C40 [8, 9, 10, 11] = some 10 := by decide +kernel

/-- R85: PA[6] and PA[31] are the lowest bits of groups 0 and 5; each flips bit 0 of the home. -/
theorem test_home_hash : homeOf 1 = 1 ∧ homeOf (2 ^ 25) = 1 ∧ homeOf (2 ^ 25 + 1) = 0 ∧ homeOf 0x1F = 0x1F := by decide +kernel

/-- The check value of CRC32C over the digits 1 to 9. -/
theorem test_crc32c : crc32c [0x31, 0x32, 0x33, 0x34, 0x35, 0x36, 0x37, 0x38, 0x39] = 0xE3069283 := by decide +kernel

/-- A ring port of an ACTIVE package at position p, EPOCH 9. -/
def ringAt (p : Nat) : State :=
  ((State.reset.wr RLY_POS.STATE 2).wr RLY_POS.POS p).wr RLY_POS.EPOCH 9

/-- The example of R533: T is 7.2 s and LINKDLY 608/64 ns; with a repeat latency of 2,000/64 ns TIME leaves with CORR 2,608. -/
theorem test_time_example :
    after (exec (.time (frame 1 1 0xFF 0 (bytesOf 7200000000 8 ++ bytesOf 0 8)) 2000) ((ringAt 1).wr RLY_LINKDLY.DLY 608))
      (fun t => t.rly.out == [.frame { frame 1 1 0xFF 0 (bytesOf 7200000000 8 ++ bytesOf 2608 4 ++ bytesOf 0 4) with hops := 1 }])
      = true := by decide +kernel

/-! ### Each statement's hypotheses are met somewhere -/

theorem witness_step : (∃ c rest, { running with pending := [.timebaseBell] }.pending = c :: rest) ∧ running.pending = [] :=
  ⟨⟨_, _, rfl⟩, by decide +kernel⟩

theorem witness_queue : ∃ s t : State, s.queueOk ∧ step s = .next t ∧ s.pending ≠ [] :=
  ⟨{ running with pending := [.timebaseBell] }, _, by simp [State.queueOk, Instr.wf], rfl, by simp⟩

theorem witness_frozen : ({ inMode 6 with pending := [.rdshared (msg .rdShared 0 attr0), .fenceRetire 3] }.stopped = true ∧
    ∀ c ∈ { inMode 6 with pending := [.rdshared (msg .rdShared 0 attr0), .fenceRetire 3] }.pending, c.outsideAon = true) ∧
    (inMode 0).stopped = true ∧ (inMode 5).stopped = true := by decide +kernel

/-- A field of each type, of four bits at bit 4. -/
def fieldOf (ty : FTy) (ok : List (Nat × Nat)) : FieldD := ⟨4, 4, ty, 0, ok⟩

theorem witness_fields : ([FTy.rw, .ro, .wo, .w1c, .w1s, .rwl, .cnt].all fun ty =>
      decide (0 < (fieldOf ty []).w) && decide ((fieldOf ty []).lo + (fieldOf ty []).w ≤ 64)) = true ∧
    (fieldOf .rw [(0, 3)]).allows 3 = true ∧ (fieldOf .rw [(0, 3)]).allows 4 = false ∧ (fieldOf .rwl []).allows 15 = true ∧
    (∃ g : Fld, g.key ≠ ((fieldOf .rw []).at 0x1000).key) := by
  exact ⟨by decide +kernel, by decide +kernel, by decide +kernel, by decide +kernel, ⟨0, 1, 0⟩, by decide +kernel⟩

theorem witness_flag : (MESH_STS.fCLAMP).bit.w = 1 ∧ (MESH_STS.fCLAMP).cnt.w = 16 ∧
    (MESH_STS.fCLAMP).bit.key ≠ (MESH_STS.fCLAMP).cnt.key ∧ running.rd (MESH_STS.fCLAMP).cnt < 65536 := by decide +kernel

theorem witness_serial : (0 < 16 ∧ 5 < 2 ^ 16 ∧ 0xFFF0 < 2 ^ 16) ∧ serialNewer 16 5 0xFFF0 = true ∧
    (0xFFF0 + 2 ^ 15) % 2 ^ 16 = 0x7FF0 := by decide

/-- The numbers of the mesh's epoch, its laps and its bell. -/
theorem witness_laps : [MESH_EPOCH.EPOCH.key, MESH_EPOCH.LAP.key, MESH_GEN_LAP.EPOCH_LAP_SAT.key, (MESH_STS.fEPOCH_BELL).bit.key,
      (MESH_STS.fEPOCH_BELL).cnt.key].Nodup ∧ 1 ≤ MESH_EPOCH.EPOCH.w ∧ MESH_EPOCH.LAP.w = 16 ∧ MESH_GEN_LAP.EPOCH_LAP_SAT.w = 1 ∧
    running.rd MESH_EPOCH.EPOCH = 0 ∧ running.rd MESH_EPOCH.LAP = 0 ∧ running.rd MESH_GEN_LAP.EPOCH_LAP_SAT = 0 := by decide +kernel

/-- The bell's clauses: below its threshold, at the step to it, and at the wrap. -/
theorem witness_bell : (MESH_STS.fEPOCH_BELL).bit.w = 1 ∧ (MESH_STS.fEPOCH_BELL).cnt.w = 16 ∧
    (running.wr MESH_EPOCH.EPOCH 0xDFFF).rd MESH_EPOCH.EPOCH < 7 * 2 ^ 16 / 8 ∧
    (running.wr MESH_EPOCH.EPOCH 0xFFFF).rd MESH_EPOCH.EPOCH = 2 ^ MESH_EPOCH.EPOCH.w - 1 ∧
    running.rd (MESH_STS.fEPOCH_BELL).cnt < 65536 := by decide +kernel

theorem witness_timebase : running.now.toNat < 0xE000000000000000 ∧ running.tb.lap ≠ 0xFFFF ∧
    { running with tb := { running.tb with lap := 0xFFFF } }.tb.lap = 0xFFFF := by decide +kernel

theorem witness_home_hash : (39 : Nat) < 46 := by decide

theorem witness_lfsr : (0 < 5 ∧ 5 < 2 ^ 32) ∧ (7 < 2 ^ 32 ∧ lfsrStep 7 = lfsrStep 7) := by decide

/-- One way of the HMC, with a clean line in it. -/
def hmcWay (line : Nat) : HmcWay := ⟨line, false, false, 0, false, .ok⟩
/-- Slice 0 with valid lines in ways 8 to 11 of set 0. -/
def fullWays : State := { running with hmc := [8, 9, 10, 11].map (fun w => (hmcKey 0 0 w, hmcWay w)) }

theorem witness_victim : running.freeWays 0 0 0 = [] ∧
    (8 ∈ running.freeWays 0 0 0x0F00 ∧ running.hmcWay 0 0 8 = none ∧
      ∀ x ∈ running.freeWays 0 0 0x0F00, x < 8 → running.hmcWay 0 0 x ≠ none) ∧
    (fullWays.freeWays 0 0 0x0F00 ≠ [] ∧ ∀ w ∈ fullWays.freeWays 0 0 0x0F00, fullWays.hmcWay 0 0 w ≠ none) := by
  decide +kernel

/-- Die 0 with line 4, which cores 0 and 3 hold. -/
def l3Held : State := running.l3Put 0 4 ⟨.m, 9, false, 0x000009, none, attr0⟩

theorem witness_l2 : l3Held.stopped = false ∧ l3Held.l3At (dieOf 3) 4 = some ⟨.m, 9, false, 0x000009, none, attr0⟩ ∧
    ((1 ≠ dieOf 3 ∨ 5 ≠ 4) ∧ 5 < 2 ^ 46) ∧ (0 < 24 ∧ 0 ≠ 3 % 24) := by decide +kernel

theorem witness_memory : isCxlLine (0x8000000000000 / 64) = true ∧ (5 : Nat) ≠ 4 ∧ Memory.wf running.mem = true := by
  decide +kernel

/-- Segment 0 holds granules 16 to 31; the table lies in granule 1, with one entry of each kind. -/
def owned : State :=
  let s := (((running.wr (OWN_SEG.V 0) 1).wr (OWN_SEG.LEN 0) 16).wr (OWN_SEG.BASE 0) 16).wr OWN_TBASE.BASE 1
  (((s.setMot 17 1 true 0).setMot 18 1 false 5).setMot 19 2 false 5).wr OWN_CTL.EN 1

theorem witness_ownership : running.rd OWN_CTL.EN = 0 ∧ owned.rd OWN_CTL.EN ≠ 0 ∧ (owned.mot (16 * 32768)).kind = .open_ ∧
    ((owned.mot (17 * 32768)).kind = .owned ∧ (owned.mot (17 * 32768)).enc = 0) ∧ (owned.mot (18 * 32768)).kind = .owned ∧
    (owned.mot (19 * 32768)).kind = .locked ∧ (owned.mot 0).kind = .bad ∧ owned.motIndex (0 / 32768) = none := by decide +kernel

/-- The same with a populated DDR region. -/
def ownedDdr : State := { owned with ddrUsable := 2 ^ 34 }

theorem witness_refused : ownedDdr.populated (0x90000 * 64) = true ∧ ownedDdr.ownPass 0x90000 false 0 = false := by decide +kernel

theorem witness_debug : ((running.wr DBG_POLICY.INV_N 1).dbgAllowed true false 0) = true := by decide +kernel

/-- CLAIM of domain 3 by the Secure world. -/
def claim3 : SepCall := ⟨[8, 3, 0, 0, 0, 0, 0, 0], 64, false, true, 0⟩
/-- Die 3 on, with none of its cores. -/
def die3On : State := running.wr (PMC_DOM.STATE 3) 2

theorem witness_claim : claim3.world = true ∧ claim3.enc = 0 ∧ claim3.bad 1 = false ∧ claim3.w 1 < 22 ∧
    die3On.rd SEP_CLAIMS.CLAIMED < 2 ^ 22 ∧ die3On.domOn (claim3.w 1) = true ∧ die3On.claimed (claim3.w 1) = false := by
  decide +kernel

theorem witness_claimed_domain :
    let s := die3On.wr SEP_CLAIMS.CLAIMED 8
    ([2, 3].all fun code => s.domCheck code ⟨8, 0, 3, 0, false, 0⟩ == OK) = true ∧
    ([2, 3].all fun code => s.domCheck code ⟨10, 0, 3, 0, false, 0⟩ == OK) = true ∧
    s.claimed 3 = true ∧ (⟨8, 0, 3, 0, false, 0⟩ : PmcCall).secure = false ∧ (⟨10, 0, 3, 0, false, 0⟩ : PmcCall).secure = true := by
  decide +kernel

theorem witness_translation : running.rd (TT_CTL.EN 5) = 0 ∧ running.rd (VM_CTL.S2EN 5) = 0 := by decide +kernel

theorem witness_leaf : (0x40 : Nat).testBit 1 = false ∧ (0x63 : Nat).testBit 1 = true ∧ (0x63 : Nat).testBit 6 = true ∧
    leafCheck 0x63 0 .u = none ∧ leafCheck 0x63 1 .u = none ∧ leafCheck 0x62 1 .u = some 0x05 := by decide

theorem witness_core : (287 : Nat) < 288 ∧ (286 : Nat) ≠ 287 ∧
    64 * (2 ^ 32 + 287 * 0x10000) ≤ (TT_CTL.EN 287).key ∧ (TT_CTL.EN 287).key < 64 * (2 ^ 32 + (287 + 1) * 0x10000) ∧
    (TT_CTL.EN 287).key ≠ (WCTL.WORLD 287).key := by decide +kernel

/-- Class 2 of point 0 paced: full, and at the floor. -/
def paced : State := (running.wr (MESH_PCR.EN 0 2) 1).wr (MESH_PCR.BURST 0 2) 8
def pacedLow : State := paced.setLevel 0 2 (-4194304)

theorem witness_pacer : paced.rd (MESH_PCR.EN 0 2) ≠ 0 ∧ -4194304 ≤ paced.level 0 2 - 1024 * ((2 : Nat) : Int) ∧
    pacedLow.rd (MESH_PCR.EN 0 2) ≠ 0 ∧ pacedLow.level 0 2 - 1024 * ((2 : Nat) : Int) < -4194304 ∧
    ((1 : Nat), (2 : Nat)) ≠ (0, 2) := by decide +kernel

theorem witness_reconfiguration : ([1, 2, 3, 4].all fun p =>
    let s := running.wr MESH_RECFG_STS.PHASE p
    s.stopped == false && s.rd MESH_RECFG_STS.PHASE == p && s.mesh.toMark == []) = true ∧
    { running with mesh := { running.mesh with toMark := [9] } }.mesh.toMark = [9] := by decide +kernel

theorem witness_link : ((running.wr (STR_STATE.STATE 4) 2).stopped = false ∧ dev0.attr.enc = 0 ∧
      (running.wr (STR_STATE.STATE 4) 2).linkState 4 = 2 ∧ running.linkState 4 ≠ 2 ∧ running.linkState 4 ≠ 5) ∧
    ((inMode 7).stopped = false ∧ (inMode 7).pkgMode = 7 ∧ (inMode 7).linkState 4 = 0 ∧
      ((inMode 7).wr (STR_STATE.STATE 4) 5).linkState 4 = 5) ∧
    ((2 : BitVec 4).toNat ≤ 2 ∧ (1 : BitVec 2).toNat ≤ 1) := by decide +kernel

/-- Two reads in channel 0: one of a higher QOS, one old. -/
def rdEnt (line : LineAddr) (qos : BitVec 2) (seq at_ : Nat) : RdEnt :=
  ⟨⟨false, 0, line, { attr0 with qos := qos }, .home 0, 0, 0, false⟩, seq, at_, false, false⟩
def twoReads : State :=
  { (running.wr (rdAge 0) 1) with now := 1000, chans := [(0, { ChanSt.init with rq := [rdEnt 0 0 7 0, rdEnt 1 3 8 990] })] }
/-- The same with a member read of the parity engine. -/
def memberRead : State := twoReads.setChan 0 { twoReads.chan 0 with
  rq := (twoReads.chan 0).rq ++ [⟨xcpReq false 0 0 3 0, 9, 995, false, false⟩] }

theorem witness_scheduler : (twoReads.pickRead 0 0).isSome = false ∧
    (twoReads.pickRead 0 (BitVec.allOnes 512)).map (fun e : RdEnt => e.seq) = some 7 ∧
    (({ twoReads with now := 50 }).pickRead 0 (BitVec.allOnes 512)).map (fun e : RdEnt => e.seq) = some 8 ∧
    (memberRead.pickRead 0 (BitVec.allOnes 512)).map (fun e : RdEnt => (e.seq, e.req.ofXcp)) = some (9, true) := by decide +kernel

/-- Group 0 in NORMAL, with a parity line of stripe 3 and an update for it. -/
def parity3 : State :=
  let s := (running.wr XCP_CTL.MODE 2).wr XCP_STATE.STATE0 GNORMAL
  { s with parity := [(parKey 0 3, ⟨5 ^^^ 9, false⟩)], xcp := { s.xcp with updates := [⟨0, 3, 3, 5 ^^^ 6, true, none⟩] } }

theorem witness_delta : parity3.stopped = false ∧
    parity3.xcp.updates.find? (fun d => d.chan == 3 && d.sent) = some ⟨0, 3, 3, 5 ^^^ 6, true, none⟩ ∧
    parity3.grpParity 0 = true ∧ parity3.parityLost 0 3 = false ∧ parity3.chActive 3 = true ∧ parity3.wqRoom 3 3 = true ∧
    (parity3.parityLine 0 3).data = (5 : LineData) ^^^ 9 ∧ (5 : Nat) ≠ parKey 0 3 := by decide +kernel

theorem witness_mailbox : (63 : Nat) < 64 ∧ (running.mb 63).opn = none ∧ (running.mb 63).ents.length < 32 ∧
    (1 ≤ 4 ∧ 4 ≤ 4) ∧ 0xFFFFFFFF < 2 ^ 32 := by decide +kernel

/-- Core 5 with one interrupt in a bank, in a world, with stage 2 on or off. -/
def interrupted (b : Nat) (world s2 : Nat) (l : Lvl) : State :=
  let k : Bank := ⟨2 ^ 40, 0, 0⟩
  State.modCore ((running.wr (WCTL.WORLD 5) world).wr (VM_CTL.S2EN 5) s2) 5
    (fun x => { x with
      lvl := l, bankN := if b = 0 then k else x.bankN, bankS := if b = 1 then k else x.bankS, bankV := if b = 2 then k else x.bankV })

theorem witness_interrupts : ((interrupted 1 0 0 .s).core 5).bankS.deliverable = some 40 ∧
    (((interrupted 0 0 1 .u).core 5).bankS.deliverable = none ∧ (interrupted 0 0 1 .u).rd (WCTL.WORLD 5) = 0 ∧
      ((interrupted 0 0 1 .u).core 5).bankN.deliverable = some 40) ∧
    (((interrupted 2 1 1 .s).core 5).bankS.deliverable = none ∧ (interrupted 2 1 1 .s).rd (WCTL.WORLD 5) ≠ 0 ∧
      ((interrupted 2 0 1 .s).core 5).bankN.deliverable = none ∧ ((interrupted 2 1 1 .s).core 5).bankV.deliverable = some 40) := by
  decide +kernel

theorem witness_counters :
    let f := cntFld (bankHome 0) 0
    let g := ovfFlag (bankHome 0) 0
    f.key ≠ g.bit.key ∧ f.key ≠ g.cnt.key ∧ g.bit.key ≠ g.cnt.key ∧ g.bit.w = 1 ∧ running.rd f < 2 ^ f.w ∧
    running.rd f + 1 < 2 ^ f.w ∧ 2 ^ f.w ≤ running.rd f + 2 ^ f.w ∧ running.stopped = false := by decide +kernel

/-- Two records in the error FIFO. -/
def errHeld : State :=
  { running with err := { running.err with fifo := [rec0 .corr 4 0 1, rec0 .corr 5 0 2] } }

theorem witness_fifo : (running.stopped = false ∧ running.err.fifo = []) ∧
    (errHeld.stopped = false ∧ errHeld.err.fifo = [rec0 .corr 4 0 1, rec0 .corr 5 0 2] ∧ errHeld.err.fifoLoss = none) ∧
    (((3 : BitVec 2) = 3 ∧ (0 : BitVec 2) = 0) ∧ ((2 : BitVec 2) = 2 ∧ (1 : BitVec 2) = 1)) := by decide +kernel

theorem witness_photo : (4 < 5 ∧ running.pkgMode ∈ [2, 3, 4, 6] ∧ running.pf = none ∧ (running.wr RLY_CTL.FRZ_OUT 0).rd RLY_CTL.FRZ_OUT = 0) ∧
    ((inMode 5).pkgMode = 5 ∧ { running with pf := some ⟨[], true⟩ }.pf.isSome = true ∧
      { running with pf := some ⟨[], true⟩ }.pf.any (fun p : PfSt => !p.stopped) = false) ∧
    ({ running with pf := some ⟨[], false⟩ }.pf.any (fun p : PfSt => !p.stopped) = true ∧
      running.rd DBG_PF_TIME.TIME = running.now.toNat) ∧
    ((inMode 7).pkgMode ∈ [0, 1, 7] ∧ (inMode 7).pf = none) := by decide +kernel

theorem witness_photo_steps : ([⟨[3], false⟩, ⟨[], true⟩] : List PfSt).all (fun p =>
    let s := { running with pf := some p }
    decide (s.pkgMode < 8) && s.pf == some p && s.mon.lines == [] && s.mon.mbOut == [] && s.pkgMode != 5) = true := by
  decide +kernel

theorem witness_limit : (699 < 2048 ∧ 1 < 2) ∧ ((running.wr PMC_LIMIT.LOCK 1).rd PMC_LIMIT.LOCK ≠ 0 ∧
    running.rd PMC_LIMIT.LOCK = 0) ∧ (699 < 700 ∧ 1100 < 1101) ∧ (inMode 4).pkgMode = 4 ∧ running.pkgMode ≠ 4 := by
  decide +kernel

/-- RIDE, with PWRFAIL_N high again. -/
def mainsLost : State :=
  { inMode 4 with pmc := { running.pmc with lost := true }, sys := { running.sys with pwrfailN := true } }

theorem witness_modes : ((inMode 1).pkgMode = 1 ∧ (inMode 1).sys.extest = false ∧ running.pkgMode ≠ 1) ∧
    (devS.attr.enc = 0 ∧ devS.attr.world = true ∧ (inMode 2).stopped = false ∧ (inMode 2).pkgMode = 2) ∧
    (running.pkgMode = 3 ∧ running.pmc.lost = false) ∧
    (2 ≤ running.pkgMode ∧ 2 ≤ (inMode 2).pkgMode ∧ (inMode 2).pkgMode ≠ 3 ∧ mainsLost.pkgMode = 4 ∧
      mainsLost.pmc.lost = true ∧ mainsLost.sys.pwrfailN = true) := by decide +kernel

/-- A ring of three packages in ACTIVE and a DISCOVER of the RMC. -/
def ring3 : List State := [ringAt 0, ringAt 5, ringAt 0]
def discover0 : Frame := frame 0 1 0xFF 0 [1, 0, 0, 0, 0]

theorem witness_discovery : ring3.length ≤ 64 ∧ (∀ s ∈ ring3, s.rd RLY_POS.STATE = 2 ∧ s.rd RLY_CTL.AUTH = 0) ∧
    discover0.badCrc = false ∧ discover0.src = 0 ∧ discover0.dst = 0xFF ∧ discover0.hops = 0 ∧
    5 ≤ discover0.payload.length ∧ discover0.payload[4]? = some 0 := by decide +kernel

/-- The same ring, numbered: the packages take positions 1, 2 and 3, and the frame comes back with COUNT 3. -/
theorem test_discovery : (discoverRing ring3 discover0).1.map (fun s => (s.rd RLY_POS.POS, s.rd RLY_POS.COUNT)) =
      [(1, 0), (2, 1), (3, 2)] ∧
    (discoverRing ring3 discover0).2.map (fun f => f.payload) = some [1, 0, 0, 0, 3] := by decide +kernel

theorem witness_frames :
    let f := frame 2 1 0 2 []
    ((ringAt 1).rd RLY_POS.STATE = 2 ∧ f.badCrc = false ∧ f.epoch.toNat = (ringAt 1).rd RLY_POS.EPOCH ∧
      ({ f with epoch := 8 }).epoch.toNat ≠ (ringAt 1).rd RLY_POS.EPOCH) ∧
    ((ringAt 2).frameOwn f = true ∧ (ringAt 1).frameOwn f = false ∧ (ringAt 1).frameMine f = false ∧ f.dst ≠ 0xFF ∧
      (ringAt 1).frameMine { f with dst := 1 } = true ∧ ({ f with dst := 0xFF } : Frame).dst = 0xFF) ∧
    (f.hops.toNat < 71 ∧ 71 ≤ ({ f with hops := 71 } : Frame).hops.toNat ∧ ({ f with hops := 71 } : Frame).hops.toNat < 255) := by
  decide +kernel

theorem witness_time :
    let f := frame 1 1 0xFF 0 (bytesOf 7200000000 8 ++ bytesOf 0 4 ++ bytesOf 0 4)
    (ringAt 1).rd RLY_POS.STATE = 2 ∧ f.badCrc = false ∧ f.src = 0 ∧ f.dst = 0xFF ∧
    f.epoch.toNat = (ringAt 1).rd RLY_POS.EPOCH ∧ (ringAt 1).seqNew f = true ∧ f.hops.toNat < 71 ∧
    ((ringAt 1).rd RLY_CTL.TSYNC ≠ 0 ∧ ((ringAt 1).wr RLY_CTL.TSYNC 0).rd RLY_CTL.TSYNC = 0) ∧
    (10000 < (7200000000 + (0 + (ringAt 1).rd RLY_LINKDLY.DLY) / 64 : Nat) - ((ringAt 1).now.toNat : Int)) := by decide +kernel

theorem witness_sets : (ringAt 1).rd RLY_POS.STATE = 2 ∧ (3 : BitVec 8) ≠ 4 ∧ (ringAt 1).setOwn true 1 = true ∧
    ((ringAt 1).setOwn true 2 = false ∧ (ringAt 1).rd RLY_CTL.FRZ_IN ≠ 0 ∧ (ringAt 1).pkgMode ≠ 5) ∧
    (((ringAt 1).wr RLY_CTL.FRZ_IN 0).setOwn true 2 = false ∧ ((ringAt 1).wr RLY_CTL.FRZ_IN 0).rd RLY_CTL.FRZ_IN = 0 ∧
      ((ringAt 1).wr HUB_PKG_MODE.PKG_MODE 5).pkgMode = 5) ∧
    (ringAt 1).setOwn false 1 = true ∧ (ringAt 1).setOwn false 2 = false := by decide +kernel

theorem witness_monitor_authority : monCmdOf (.halt 3) = some (.halt 3) ∧ running.monReady ∧
    (∀ k, (MonCmd.halt 3) ≠ .reset k) ∧ running.monLevel < running.monNeed (.halt 3) :=
  ⟨rfl, ⟨by decide +kernel, rfl, rfl, rfl⟩, by simp, by decide +kernel⟩

/-- The monitor at level CONTROL. -/
def control : State := running.wr DBG_MON.UART_BASE 2

theorem witness_monitor_line : monCmdOf .monMode = some .mode ∧ (running.wr DBG_MON.UART_BASE 1).monReady ∧
    (∀ k, MonCmd.mode ≠ .reset k) ∧ (∀ l o, MonCmd.mode ≠ .cap l o) ∧
    (running.wr DBG_MON.UART_BASE 1).monCheck .uart .mode = OK ∧
    (running.wr DBG_MON.UART_BASE 1).monDo .uart .mode = some (running.wr DBG_MON.UART_BASE 1, OK, [3, 0]) :=
  ⟨rfl, ⟨by decide +kernel, rfl, rfl, rfl⟩, by simp, by simp, by decide +kernel, by decide +kernel⟩

/-- A session with a nonce out and two failures behind it. -/
def noncedState : State :=
  { (running.wr DBG_MON.UART_MAX 2) with now := 1000, mon := { running.mon with nonce := some 77, fails := [10, 20] } }

theorem witness_session : noncedState.mon.nonce = some 77 ∧ 2 ≤ noncedState.rd DBG_MON.UART_MAX ∧
    noncedState.rd DBG_MON.UART_MAX < 3 ∧ noncedState.mon.fails = [10, 20] ∧
    noncedState.now.toNat < 10 + 60000000000 ∧ noncedState.now.toNat < 20 + 60000000000 ∧
    noncedState.pkgMode ≠ 0 ∧ noncedState.mon.cap = none ∧ noncedState.mon.lines = [] ∧ noncedState.mon.mbOut = [] := by
  decide +kernel

theorem witness_window : (65279 : Nat) < 65280 ∧ 2 ^ 64 - 1 < 2 ^ 64 ∧ (0 : Nat) < (TQE_WIN.EN 7).key ∧
    (TQE_WIN.EN 7).key + 128 ≤ (TQE_WIN.EN 8).key := by decide +kernel

/-- KEY_ERASE of slot 9 by PF0, and by function 3, whose slot it is. -/
def erase9 : AdmCmd := ⟨[0x00060045, 9], 16, false, 0, false, false⟩

theorem witness_erase : running.keyTagBad 0 erase9 = false ∧ erase9.badKey 16 = false ∧ (8 : Nat) ≠ erase9.slotNo ∧
    running.slotBusy erase9.slotNo = false ∧
    { running with slots := [(9, { Slot.init with fn := 3 })] }.slot 9 = { Slot.init with fn := 3 } := by decide +kernel

end Sys2Proof.Tests
end

section
/-!
PROOFS of the scope's statements (00_scope.md): what a field does under a write by its type (R6 to R9), flags and their counts
(R13, R14), serial numbers (R22), laps and bells (R23, R24, R26), and that every run goes on.
-/
namespace Sys2Proof.Machine

/-! ### Runs -/

/-- Every state has a next one: a command's own, or that of a cycle. -/
theorem step_next (s : State) : ∃ t, step s = .next t := by
  cases h : s.pending with
  | nil => exact ⟨_, step_nil h⟩
  | cons c rest =>
    obtain ⟨t, ht⟩ := exec_next c { s with pending := rest }
    exact ⟨_, (step_cons h).trans ht⟩

theorem State.runsOn_zero (s : State) : s.runsOn 0 := ⟨s, rfl⟩

/-- A run of n + 1 steps is a step and a run of n. -/
theorem State.runsOn_succ {s t : State} {n : Nat} (h : step s = .next t) (ht : t.runsOn n) : s.runsOn (n + 1) := by
  obtain ⟨u, hu⟩ := ht
  have hc : Sys2Proof.core.step s = .next t := h
  exact ⟨u, by simp only [Host.Core.run, hc, hu]⟩

/-- Settles O3, by induction on the number of steps: each step has a next state. -/
theorem packageNeverStops : Obligations.PackageNeverStops := by
  unfold Obligations.PackageNeverStops State.safe
  intro s n
  induction n generalizing s with
  | zero => exact s.runsOn_zero
  | succ n ih =>
    obtain ⟨t, ht⟩ := step_next s
    exact State.runsOn_succ ht (ih t)

/-! ### Whole-register writes -/

/-- The bits of a whole register value at a field's place. -/
def FieldD.bitsIn (f : FieldD) (v : Nat) : Nat := v / 2 ^ f.lo % 2 ^ f.w

theorem FieldD.bitsIn_lt (f : FieldD) (v : Nat) : f.bitsIn v < 2 ^ f.w := Nat.mod_lt _ (Nat.two_pow_pos _)

/-- The bits of a field that lies in a 64-bit register do not see what stands above bit 63. -/
theorem FieldD.bitsIn_mod (f : FieldD) (v : Nat) (h : f.lo + f.w ≤ 64) : f.bitsIn (v % 2 ^ 64) = f.bitsIn v := by
  apply Nat.eq_of_testBit_eq
  intro n
  by_cases hn : n < f.w
  · have h64 : f.lo + n < 64 := by omega
    rw [FieldD.bitsIn, FieldD.bitsIn, Nat.testBit_mod_two_pow, Nat.testBit_mod_two_pow, Nat.testBit_div_two_pow,
      Nat.testBit_div_two_pow, Nat.testBit_mod_two_pow]
    simp [Nat.add_comm n, h64]
  · simp [FieldD.bitsIn, Nat.testBit_mod_two_pow, hn]

/-- A write of all 64 bits leaves nothing of the old value in the register. -/
theorem mergeBits_whole_mod (old v : Nat) : mergeBits old 0 64 v % 2 ^ 64 = v % 2 ^ 64 := by
  simp only [mergeBits, Nat.pow_zero, Nat.div_one, Nat.mul_one]
  omega

theorem FieldD.bitsIn_mergeBits_whole (f : FieldD) (old v : Nat) (h : f.lo + f.w ≤ 64) :
    mergeBits old 0 64 v / 2 ^ f.lo % 2 ^ f.w = f.bitsIn v := by
  calc f.bitsIn (mergeBits old 0 64 v)
      = f.bitsIn (mergeBits old 0 64 v % 2 ^ 64) := (f.bitsIn_mod _ h).symm
    _ = f.bitsIn (v % 2 ^ 64) := by rw [mergeBits_whole_mod]
    _ = f.bitsIn v := f.bitsIn_mod v h

theorem carried_whole (f : FieldD) (v : Nat) (h : f.lo + f.w ≤ 64) : carried 0 64 v f = f.bitsIn v := by
  rw [← f.bitsIn_mod v h, carried, Nat.pow_zero, Nat.mul_one, FieldD.bitsIn]

theorem reaches_whole (f : FieldD) (h0 : 0 < f.w) (h : f.lo + f.w ≤ 64) : reaches 0 64 f = true := by
  simp only [reaches, Bool.and_eq_true, decide_eq_true_eq]
  omega

section
variable {f : FieldD} (h0 : 0 < f.w) (h : f.lo + f.w ≤ 64) (s : State) (a : Nat) (locked : Bool) (v : Nat)
include h0 h

/-- A RW field takes the bits written, unless they are a reserved encoding (R6, R8). -/
theorem State.fieldWrite_whole_rw (ht : f.ty = .rw) :
    s.fieldWrite a locked [] 0 64 v f = if f.allows (f.bitsIn v) then s.wr (f.at a) (f.bitsIn v) else s := by
  simp [State.fieldWrite, reaches_whole f h0 h, f.bitsIn_mergeBits_whole _ _ h, ht]

/-- A RWL field does so while its lock is open (R6, R9). -/
theorem State.fieldWrite_whole_rwl (ht : f.ty = .rwl) :
    s.fieldWrite a locked [] 0 64 v f =
      if locked = false ∧ f.allows (f.bitsIn v) = true then s.wr (f.at a) (f.bitsIn v) else s := by
  simp [State.fieldWrite, reaches_whole f h0 h, f.bitsIn_mergeBits_whole _ _ h, ht]

/-- A W1C field keeps the bits that are written 0 (R6). -/
theorem State.fieldWrite_whole_w1c (ht : f.ty = .w1c) :
    s.fieldWrite a locked [] 0 64 v f = s.wr (f.at a) (s.rd (f.at a) &&& (2 ^ f.w - 1 - f.bitsIn v)) := by
  simp [State.fieldWrite, reaches_whole f h0 h, carried_whole f v h, ht]

/-- A W1S field gains the bits that are written 1 (R6). -/
theorem State.fieldWrite_whole_w1s (ht : f.ty = .w1s) :
    s.fieldWrite a locked [] 0 64 v f = s.wr (f.at a) (s.rd (f.at a) ||| f.bitsIn v) := by
  simp [State.fieldWrite, reaches_whole f h0 h, carried_whole f v h, ht]

/-- An event count takes zero only (R14). -/
theorem State.fieldWrite_whole_cnt (ht : f.ty = .cnt) :
    s.fieldWrite a locked [] 0 64 v f = if f.bitsIn v = 0 then s.wr (f.at a) 0 else s := by
  simp [State.fieldWrite, reaches_whole f h0 h, carried_whole f v h, ht]

end

/-- Whatever bits are written, a RO or WO field holds what it held (R6). -/
theorem State.fieldWrite_ro_wo {f : FieldD} (ht : f.ty = .ro ∨ f.ty = .wo) (s : State) (a : Nat) (locked : Bool)
    (keep : List Nat) (lo n v : Nat) : s.fieldWrite a locked keep lo n v f = s := by
  rcases ht with ht | ht <;> simp [State.fieldWrite, ht]

/-- A write of any bits to a field leaves every other field alone. -/
theorem State.rd_fieldWrite_other (s : State) (a : Nat) (locked : Bool) (keep : List Nat) (lo n v : Nat) (f : FieldD)
    {g : Fld} (hg : g.key ≠ (f.at a).key) : (s.fieldWrite a locked keep lo n v f).rd g = s.rd g := by
  have hwr (x : Nat) : (s.wr (f.at a) x).rd g = s.rd g := s.rd_wr_other x hg
  simp only [State.fieldWrite]
  split
  next => rfl
  next =>
    split
    case h_1 | h_2 | h_5 => split <;> simp only [hwr]
    case h_3 | h_4 => exact hwr _
    case h_6 | h_7 => rfl

/-- Settles O6, one type of field after the other. -/
theorem fieldsFollowTheirTypes : Obligations.FieldsFollowTheirTypes := by
  unfold Obligations.FieldsFollowTheirTypes
  intro s a v f h0 h t x c
  have hc : f.bitsIn v = c := rfl
  have hlt : c < 2 ^ f.w := f.bitsIn_lt v
  have hread (y : Nat) : (s.wr x y).rd x = y % 2 ^ f.w := s.rd_wr_same x y
  refine ⟨fun ht ha => ?rw, fun ht ha => ?reserved, fun ht ha => ⟨?rwl, ?locked⟩, fun ht => ?roWo, fun ht n => ?w1c,
    fun ht n => ?w1s, fun ht => ?cnt, fun g hg => s.rd_fieldWrite_other a false [] 0 64 v f hg⟩
  case rw =>
    have e : t = s.wr x c := by simpa [hc, ha] using s.fieldWrite_whole_rw h0 h a false v ht
    rw [e, hread, Nat.mod_eq_of_lt hlt]
  case reserved => simpa [hc, ha] using s.fieldWrite_whole_rw h0 h a false v ht
  case rwl =>
    have e : t = s.wr x c := by simpa [hc, ha] using s.fieldWrite_whole_rwl h0 h a false v ht
    rw [e, hread, Nat.mod_eq_of_lt hlt]
  case locked => simpa using s.fieldWrite_whole_rwl h0 h a true v ht
  case roWo => exact s.fieldWrite_ro_wo ht a false [] 0 64 v
  case w1c =>
    have e : t = s.wr x (s.rd x &&& (2 ^ f.w - 1 - c)) := s.fieldWrite_whole_w1c h0 h a false v ht
    rw [e, hread, Nat.testBit_mod_two_pow, Nat.testBit_and, Nat.sub_sub, Nat.add_comm 1,
      Nat.testBit_two_pow_sub_succ hlt]
    by_cases hn : n < f.w <;> simp [hn]
  case w1s =>
    have e : t = s.wr x (s.rd x ||| c) := s.fieldWrite_whole_w1s h0 h a false v ht
    rw [e, hread, Nat.testBit_mod_two_pow, Nat.testBit_or]
  case cnt =>
    have e : t = if c = 0 then s.wr x 0 else s := s.fieldWrite_whole_cnt h0 h a false v ht
    exact ⟨fun hz => by rw [e, if_pos hz, hread, Nat.zero_mod], fun hz => by rw [e, if_neg hz]⟩

/-! ### Flags and serial numbers -/

/-- A 16-bit count grows by one, up to all ones (R14). -/
theorem State.rd_raise_cnt16 (s : State) (g : Flag) (hw : g.cnt.w = 16) :
    (s.raise g).rd g.cnt = min (s.rd g.cnt + 1) 0xFFFF := by
  rw [State.rd_raise_cnt, hw]
  omega

/-- Settles O7: the rules of a flag's event, and that it writes two fields of the register file. -/
theorem flagEventsSetAndCount : Obligations.FlagEventsSetAndCount := by
  unfold Obligations.FlagEventsSetAndCount
  intro s g hb hc hk hlt
  refine ⟨s.rd_raise_bit g hb hk, ?_, fun f h1 h2 => s.rd_raise_other h1 h2, rfl⟩
  rw [s.rd_raise_cnt16 g hc]
  split <;> omega

/-- The distance that the comparison takes, from b up to a modulo the range, closes the gap and no other distance below
the range does. -/
theorem serialDistance_eq_iff {M a b d : Nat} (ha : a < M) (hb : b < M) (hd : d < M) :
    (a + M - b % M) % M = d ↔ (b + d) % M = a := by
  rw [Nat.mod_eq_of_lt hb]
  constructor
  · rintro rfl
    rw [Nat.add_mod_mod, show b + (a + M - b) = a + M by omega, Nat.add_mod_right, Nat.mod_eq_of_lt ha]
  · intro h
    rcases Nat.lt_or_ge (b + d) M with h1 | h1
    · rw [Nat.mod_eq_of_lt h1] at h
      rw [show a + M - b = d + M by omega, Nat.add_mod_right, Nat.mod_eq_of_lt hd]
    · rw [Nat.mod_eq_sub_mod h1, Nat.mod_eq_of_lt (by omega)] at h
      rw [show a + M - b = d by omega, Nat.mod_eq_of_lt hd]

/-- a is newer than b where b reaches it by a distance below half the range (R22). -/
theorem serialNewer_iff {n a b : Nat} (hn : 0 < n) (ha : a < 2 ^ n) (hb : b < 2 ^ n) :
    serialNewer n a b = true ↔ ∃ d, 0 < d ∧ d < 2 ^ (n - 1) ∧ (b + d) % 2 ^ n = a := by
  have hM : 2 ^ (n - 1) ≤ 2 ^ n := Nat.pow_le_pow_right (by omega) (by omega)
  simp only [serialNewer, Bool.and_eq_true, decide_eq_true_eq]
  constructor
  · rintro ⟨h1, h2⟩
    exact ⟨_, h1, h2, (serialDistance_eq_iff ha hb (by omega)).1 rfl⟩
  · rintro ⟨d, h1, h2, h3⟩
    rw [(serialDistance_eq_iff ha hb (by omega)).2 h3]
    exact ⟨h1, h2⟩

/-- a is older than b where b reaches it by a distance of half the range or more (R22). -/
theorem serialOlder_iff {n a b : Nat} (ha : a < 2 ^ n) (hb : b < 2 ^ n) :
    serialOlder n a b = true ↔ ∃ d, 2 ^ (n - 1) ≤ d ∧ d < 2 ^ n ∧ (b + d) % 2 ^ n = a := by
  simp only [serialOlder, decide_eq_true_eq]
  constructor
  · intro h
    have hd := Nat.mod_lt (a + 2 ^ n - b % 2 ^ n) (Nat.two_pow_pos n)
    exact ⟨_, h, hd, (serialDistance_eq_iff ha hb hd).1 rfl⟩
  · rintro ⟨d, h1, h2, h3⟩
    rwa [(serialDistance_eq_iff ha hb h2).2 h3]

/-- Of two different numbers, a is older than b exactly where it is not newer; no number is older than itself. -/
theorem serialOlder_iff_not_newer {n a b : Nat} (ha : a < 2 ^ n) (hb : b < 2 ^ n) :
    serialOlder n a b = true ↔ a ≠ b ∧ serialNewer n a b = false := by
  have h0 : (a + 2 ^ n - b % 2 ^ n) % 2 ^ n = 0 ↔ a = b := by
    rw [serialDistance_eq_iff ha hb (Nat.two_pow_pos n), Nat.add_zero, Nat.mod_eq_of_lt hb]
    exact eq_comm
  have hp : 0 < 2 ^ (n - 1) := Nat.two_pow_pos _
  simp only [serialOlder, serialNewer, ne_eq, ← h0, decide_eq_true_eq, Bool.and_eq_false_iff, decide_eq_false_iff_not]
  omega

/-- The distances between two different numbers, taken both ways, add up to the range. -/
theorem add_mod_comm_of_le {M b d : Nat} (hb : b < M) (hd : d ≤ M) : ((b + d) % M + (M - d)) % M = b := by
  rw [Nat.mod_add_mod, show b + d + (M - d) = b + M by omega, Nat.add_mod_right, Nat.mod_eq_of_lt hb]

/-- Settles O8, from the distances by which each number reaches the other. -/
theorem serialNumbersAreOrdered : Obligations.SerialNumbersAreOrdered := by
  unfold Obligations.SerialNumbersAreOrdered
  intro n a b hn ha hb
  have hM : 2 ^ n = 2 ^ (n - 1) + 2 ^ (n - 1) := by rw [← Nat.two_mul, Nat.mul_comm, Nat.two_pow_pred_mul_two hn]
  have hp : 0 < 2 ^ (n - 1) := Nat.two_pow_pos _
  refine ⟨serialNewer_iff hn ha hb, serialOlder_iff_not_newer ha hb, fun h => ?_, fun h => ?_⟩
  · obtain ⟨d, h1, h2, rfl⟩ := (serialNewer_iff hn ha hb).1 h
    exact (serialOlder_iff hb ha).2 ⟨2 ^ n - d, by omega, by omega, add_mod_comm_of_le hb (by omega)⟩
  · have hback : (a + 2 ^ (n - 1)) % 2 ^ n = b := by
      simpa [← h, hM] using add_mod_comm_of_le hb (d := 2 ^ (n - 1)) (by omega)
    exact ⟨(serialOlder_iff ha hb).2 ⟨_, le_rfl, by omega, h⟩, (serialOlder_iff hb ha).2 ⟨_, le_rfl, by omega, hback⟩⟩

/-! ### Laps and bells -/

/-- The threshold of the bell of a w-bit number (R24). -/
def bellAt (w : Nat) : Nat := 7 * 2 ^ w / 8

/-- A move's two events, in their order (R23, R24). -/
theorem State.bell_eq (s : State) (w v v' : Nat) (lap sat : Fld) (bell : Flag) :
    s.bell w v v' lap sat bell =
      if v' < v then ((if v < bellAt w ∧ bellAt w ≤ v' then s.raise bell else s).countLap lap sat).raise bell
      else if v < bellAt w ∧ bellAt w ≤ v' then s.raise bell else s := by
  simp only [State.bell, State.when, Bool.and_eq_true, decide_eq_true_eq]
  rfl

/-- A move that passes the threshold rings the bell (R24). -/
theorem State.bell_threshold (s : State) {w v v' : Nat} (lap sat : Fld) (bell : Flag) (h : v < bellAt w)
    (h' : bellAt w ≤ v') : s.bell w v v' lap sat bell = s.raise bell := by
  rw [State.bell_eq, if_neg (by omega), if_pos ⟨h, h'⟩]

/-- A wrap counts a lap and rings the bell once (R23, R24). -/
theorem State.bell_wrap (s : State) {w v v' : Nat} (lap sat : Fld) (bell : Flag) (h : v' < v) :
    s.bell w v v' lap sat bell = (s.countLap lap sat).raise bell := by
  rw [State.bell_eq, if_pos h, if_neg (by omega)]

/-- Any other move does nothing. -/
theorem State.bell_quiet (s : State) {w v v' : Nat} (lap sat : Fld) (bell : Flag)
    (ht : ¬ (v < bellAt w ∧ bellAt w ≤ v')) (h : v ≤ v') : s.bell w v v' lap sat bell = s := by
  rw [State.bell_eq, if_neg (Nat.not_lt.2 h), if_neg ht]

/-- What a move of a number can do to its laps and bell: the three cases exclude each other. -/
theorem State.bell_cases (s : State) (w v v' : Nat) (lap sat : Fld) (bell : Flag) :
    (v' < v ∧ s.bell w v v' lap sat bell = (s.countLap lap sat).raise bell) ∨
    (v ≤ v' ∧ (v < bellAt w ∧ bellAt w ≤ v') ∧ s.bell w v v' lap sat bell = s.raise bell) ∨
    (v ≤ v' ∧ ¬ (v < bellAt w ∧ bellAt w ≤ v') ∧ s.bell w v v' lap sat bell = s) := by
  rcases Nat.lt_or_ge v' v with h | h
  · exact .inl ⟨h, s.bell_wrap lap sat bell h⟩
  · by_cases ht : v < bellAt w ∧ bellAt w ≤ v'
    · exact .inr (.inl ⟨h, ht, s.bell_threshold lap sat bell ht.1 ht.2⟩)
    · exact .inr (.inr ⟨h, ht, s.bell_quiet lap sat bell ht h⟩)

/-- The value that an advance gives a number (R23). -/
def State.nextOf (s : State) (num : Fld) : Nat := (s.rd num + 1) % 2 ^ num.w

/-- An advance writes the next value and moves the laps and the bell by it. -/
theorem State.advance_eq (s : State) (num lap sat : Fld) (bell : Flag) :
    s.advance num lap sat bell =
      (s.wr num (s.nextOf num)).bell num.w (s.rd num) (s.nextOf num) lap sat bell := rfl

/-- A number below its range wraps exactly from its last value. -/
theorem State.nextOf_lt_iff {s : State} {num : Fld} (hw : 1 ≤ num.w) (hv : s.rd num < 2 ^ num.w) :
    s.nextOf num < s.rd num ↔ s.rd num + 1 = 2 ^ num.w := by
  have h2 : 2 ^ 1 ≤ 2 ^ num.w := Nat.pow_le_pow_right (by omega) hw
  rcases Nat.lt_or_ge (s.rd num + 1) (2 ^ num.w) with h | h
  · rw [State.nextOf, Nat.mod_eq_of_lt h]
    omega
  · have hlast : s.rd num + 1 = 2 ^ num.w := by omega
    rw [State.nextOf, hlast, Nat.mod_self]
    omega

/-- Counting a lap leaves every field but the lap counter and LAP_SAT alone. -/
theorem State.rd_countLap_other (s : State) {lap sat f : Fld} (hl : f.key ≠ lap.key) (hs : f.key ≠ sat.key) :
    (s.countLap lap sat).rd f = s.rd f := by
  unfold State.countLap
  split
  · exact s.rd_wr_other _ hs
  · exact s.rd_wr_other _ hl

/-- A lap that finds the counter full sets LAP_SAT (R23). -/
theorem State.countLap_full {s : State} {lap : Fld} (sat : Fld) (h : s.rd lap = 0xFFFF) :
    s.countLap lap sat = s.wr sat 1 := if_pos h

/-- Any other lap is counted (R23). -/
theorem State.countLap_counts {s : State} {lap : Fld} (sat : Fld) (h : s.rd lap ≠ 0xFFFF) :
    s.countLap lap sat = s.wr lap (s.rd lap + 1) := if_neg h

/-- A move's laps and bell reach no other field. -/
theorem State.rd_bell_other (s : State) (w v v' : Nat) {lap sat f : Fld} {bell : Flag} (hl : f.key ≠ lap.key)
    (hs : f.key ≠ sat.key) (hb : f.key ≠ bell.bit.key) (hc : f.key ≠ bell.cnt.key) :
    (s.bell w v v' lap sat bell).rd f = s.rd f := by
  rcases s.bell_cases w v v' lap sat bell with ⟨-, e⟩ | ⟨-, -, e⟩ | ⟨-, -, e⟩
  · rw [e, State.rd_raise_other _ hb hc, State.rd_countLap_other _ hl hs]
  · rw [e, State.rd_raise_other _ hb hc]
  · rw [e]

/-- An advance leaves the next value in the number. -/
theorem State.rd_advance_num (s : State) {num lap sat : Fld} {bell : Flag} (hl : num.key ≠ lap.key)
    (hs : num.key ≠ sat.key) (hb : num.key ≠ bell.bit.key) (hc : num.key ≠ bell.cnt.key) :
    (s.advance num lap sat bell).rd num = s.nextOf num := by
  rw [State.advance_eq, State.rd_bell_other _ _ _ _ hl hs hb hc, State.rd_wr_same, State.nextOf, Nat.mod_mod]

/-- The lap counter and LAP_SAT as q laps from zero leave them (R23). -/
def State.lapsCounted (s : State) (lap sat : Fld) (q : Nat) : Prop :=
  s.rd lap = min q 0xFFFF ∧ s.rd sat = if 0xFFFF < q then 1 else 0

/-- What leaves the two fields alone leaves the laps counted. -/
theorem State.lapsCounted_congr {s t : State} {lap sat : Fld} {q : Nat} (hl : t.rd lap = s.rd lap)
    (hs : t.rd sat = s.rd sat) : t.lapsCounted lap sat q ↔ s.lapsCounted lap sat q := by
  rw [State.lapsCounted, State.lapsCounted, hl, hs]

/-- One more lap makes q laps q + 1. -/
theorem State.lapsCounted_countLap {s : State} {lap sat : Fld} {q : Nat} (hk : lap.key ≠ sat.key) (hl : lap.w = 16)
    (hs : sat.w = 1) (h : s.lapsCounted lap sat q) : (s.countLap lap sat).lapsCounted lap sat (q + 1) := by
  obtain ⟨hlap, hsat⟩ := h
  by_cases hf : s.rd lap = 0xFFFF
  · rw [State.countLap_full sat hf]
    refine ⟨?_, ?_⟩
    · rw [State.rd_wr_other _ _ hk, hf, Nat.min_eq_right (by omega)]
    · rw [State.rd_wr_same, hs, if_pos (by omega)]
      rfl
  · rw [State.countLap_counts sat hf]
    refine ⟨?_, ?_⟩
    · rw [State.rd_wr_same, hl, Nat.mod_eq_of_lt (by omega), hlap]
      omega
    · rw [State.rd_wr_other _ _ hk.symm, hsat, if_neg (by omega), if_neg (by omega)]

/-- The number, its laps and LAP_SAT as k advances from zero leave them (R22, R23). -/
def State.advanced (s : State) (num lap sat : Fld) (k : Nat) : Prop :=
  s.rd num = k % 2 ^ num.w ∧ s.lapsCounted lap sat (k / 2 ^ num.w)

section
variable {num lap sat : Fld} {bell : Flag} (hk : [num.key, lap.key, sat.key, bell.bit.key, bell.cnt.key].Nodup)
include hk

/-- An advance counts a lap where it is from the last value, and none elsewhere. -/
theorem State.lapsCounted_advance {s : State} {q : Nat} (hw : 1 ≤ num.w) (hl : lap.w = 16) (hs : sat.w = 1)
    (hlt : s.rd num < 2 ^ num.w) (h : s.lapsCounted lap sat q) :
    (s.advance num lap sat bell).lapsCounted lap sat (q + (s.rd num + 1) / 2 ^ num.w) := by
  simp only [List.nodup_cons, List.mem_cons, List.not_mem_nil, or_false, not_or] at hk
  obtain ⟨⟨nl, ns, -, -⟩, ⟨ls, lb, lc⟩, ⟨sb, sc⟩, -⟩ := hk
  have ring (u : State) {p : Nat} : (u.raise bell).lapsCounted lap sat p ↔ u.lapsCounted lap sat p :=
    State.lapsCounted_congr (u.rd_raise_other lb lc) (u.rd_raise_other sb sc)
  have hu : (s.wr num (s.nextOf num)).lapsCounted lap sat q :=
    (State.lapsCounted_congr (s.rd_wr_other _ (Ne.symm nl)) (s.rd_wr_other _ (Ne.symm ns))).2 h
  have hiff := State.nextOf_lt_iff hw hlt
  rw [State.advance_eq]
  rcases (s.wr num (s.nextOf num)).bell_cases num.w (s.rd num) (s.nextOf num) lap sat bell with
    ⟨hv, e⟩ | ⟨hv, -, e⟩ | ⟨hv, -, e⟩
  · rw [e, ring, hiff.1 hv, Nat.div_self (Nat.two_pow_pos _)]
    exact State.lapsCounted_countLap ls hl hs hu
  · rw [e, ring, Nat.div_eq_of_lt (by omega)]
    exact hu
  · rw [e, Nat.div_eq_of_lt (by omega)]
    exact hu

/-- One more advance makes k advances k + 1. -/
theorem State.advanced_succ {s : State} {k : Nat} (hw : 1 ≤ num.w) (hl : lap.w = 16) (hs : sat.w = 1)
    (h : s.advanced num lap sat k) : (s.advance num lap sat bell).advanced num lap sat (k + 1) := by
  obtain ⟨hnum, hlaps⟩ := h
  have h0 : 0 < 2 ^ num.w := Nat.two_pow_pos _
  have hdiv : (k + 1) / 2 ^ num.w = k / 2 ^ num.w + (k % 2 ^ num.w + 1) / 2 ^ num.w := by
    rw [← Nat.mul_add_div h0, ← Nat.add_assoc, Nat.div_add_mod]
  have hlt : s.rd num < 2 ^ num.w := hnum ▸ Nat.mod_lt k h0
  refine ⟨?_, ?_⟩
  · simp only [List.nodup_cons, List.mem_cons, List.not_mem_nil, or_false, not_or] at hk
    obtain ⟨⟨nl, ns, nb, nc⟩, -⟩ := hk
    rw [s.rd_advance_num nl ns nb nc, State.nextOf, hnum, Nat.mod_add_mod]
  · rw [hdiv, ← hnum]
    exact State.lapsCounted_advance hk hw hl hs hlt hlaps

end

/-- Settles O9, by induction on the number of advances. -/
theorem numbersCountTheirLaps : Obligations.NumbersCountTheirLaps := by
  unfold Obligations.NumbersCountTheirLaps
  intro s num lap sat bell k hk hw hl hs hnum hlap hsat
  change ((fun u : State => u.advance num lap sat bell)^[k] s).advanced num lap sat k
  induction k with
  | zero => simp [State.advanced, State.lapsCounted, hnum, hlap, hsat]
  | succ k ih =>
    rw [Function.iterate_succ_apply']
    exact State.advanced_succ hk hw hl hs ih

/-- The threshold is exact for three bits or more (R24). -/
theorem eight_mul_bellAt {w : Nat} (h : 3 ≤ w) : 8 * bellAt w = 7 * 2 ^ w := by
  have hd : 2 ^ 3 ∣ 2 ^ w := Nat.pow_dvd_pow 2 h
  unfold bellAt
  omega

/-- An advance that reaches the threshold or wraps is one event of the bell, after changes of the number and its laps only. -/
theorem State.advance_rings (s : State) (num lap sat : Fld) (bell : Flag)
    (h : s.rd num < bellAt num.w ∧ bellAt num.w ≤ s.nextOf num ∨ s.nextOf num < s.rd num) :
    ∃ u : State, s.advance num lap sat bell = u.raise bell ∧
      ∀ f : Fld, f.key ≠ num.key → f.key ≠ lap.key → f.key ≠ sat.key → u.rd f = s.rd f := by
  rw [State.advance_eq]
  rcases h with ⟨h1, h2⟩ | h
  · exact ⟨_, State.bell_threshold _ lap sat bell h1 h2, fun f hn _ _ => s.rd_wr_other _ hn⟩
  · exact ⟨_, State.bell_wrap _ lap sat bell h,
      fun f hn hl hs => (State.rd_countLap_other _ hl hs).trans (s.rd_wr_other _ hn)⟩

/-- Any other advance writes the number and nothing else. -/
theorem State.advance_quiet (s : State) (num lap sat : Fld) (bell : Flag)
    (ht : ¬ (s.rd num < bellAt num.w ∧ bellAt num.w ≤ s.nextOf num)) (h : s.rd num ≤ s.nextOf num) :
    s.advance num lap sat bell = s.wr num (s.nextOf num) := State.bell_quiet _ lap sat bell ht h

/-- Settles O10: an advance that reaches the threshold or wraps is an event of the bell, and any other leaves it alone. -/
theorem bellRingsTwicePerLap : Obligations.BellRingsTwicePerLap := by
  unfold Obligations.BellRingsTwicePerLap
  intro s num lap sat bell hk hbw hcw hlt _ t T
  simp only [List.nodup_cons, List.mem_cons, List.not_mem_nil, or_false, not_or] at hk
  obtain ⟨⟨nl, ns, nb, nc⟩, ⟨-, lb, lc⟩, ⟨sb, sc⟩, bc, -⟩ := hk
  have hnum : t.rd num = s.nextOf num := s.rd_advance_num nl ns nb nc
  have hT : T = bellAt num.w := rfl
  rw [hnum, hT]
  refine ⟨fun h => ?_, fun ht hlast => ?_, fun h => by rw [h]; decide, eight_mul_bellAt⟩
  · obtain ⟨u, hu, hsame⟩ := s.advance_rings num lap sat bell
      (h.imp_right fun ⟨hlast, hw⟩ => (State.nextOf_lt_iff hw hlt).2 (by omega))
    rw [show t = u.raise bell from hu, ← hsame bell.cnt (Ne.symm nc) (Ne.symm lc) (Ne.symm sc)]
    exact ⟨u.rd_raise_bit bell hbw bc, u.rd_raise_cnt16 bell hcw⟩
  · have hnext : s.nextOf num = s.rd num + 1 := Nat.mod_eq_of_lt (by omega)
    rw [show t = s.wr num (s.nextOf num) from s.advance_quiet num lap sat bell ht (by omega)]
    exact ⟨s.rd_wr_other _ (Ne.symm nb), s.rd_wr_other _ (Ne.symm nc)⟩

/-! ### The timebase -/

/-- A number whose laps stand in State rings its bell where it reaches the threshold (R24). -/
theorem TimeLap.moved_threshold (x : TimeLap) {w v v' : Nat} (h : v < bellAt w) (h' : bellAt w ≤ v') :
    x.moved w v v' = x.ring := by
  rw [bellAt] at h h'
  simp only [TimeLap.moved, if_pos (And.intro h h')]
  exact if_neg (by omega)

/-- A move upwards that does not reach it does nothing. -/
theorem TimeLap.moved_quiet (x : TimeLap) {w v v' : Nat} (h : bellAt w ≤ v) (h' : v ≤ v') : x.moved w v v' = x := by
  rw [bellAt] at h
  simp only [TimeLap.moved, if_neg (not_and_of_not_left _ (Nat.not_lt.2 h)), if_neg (Nat.not_lt.2 h')]

/-- A wrap counts a lap, or sets LAP_SAT where the counter is full, and rings (R23, R24). -/
theorem TimeLap.moved_wrap (x : TimeLap) {w v v' : Nat} (h : v' < v) :
    x.moved w v v' = (if x.lap = 0xFFFF then { x with sat := true } else { x with lap := x.lap + 1 }).ring := by
  have ht : ¬ (v < 7 * 2 ^ w / 8 ∧ 7 * 2 ^ w / 8 ≤ v') := by omega
  simp only [TimeLap.moved, if_neg ht, if_pos h]

/-- A move upwards counts no lap. -/
theorem TimeLap.moved_up (x : TimeLap) {w v v' : Nat} (h : v ≤ v') :
    (x.moved w v v').lap = x.lap ∧ (x.moved w v v').sat = x.sat := by
  simp only [TimeLap.moved, if_neg (Nat.not_lt.2 h)]
  split <;> exact ⟨rfl, rfl⟩

theorem tbThreshold_eq_bellAt : tbThreshold = bellAt 64 := by decide

/-- The timebase's move to its threshold rings the bell (R26). -/
theorem State.tbMove_threshold {s : State} (h : s.now.toNat < tbThreshold) :
    s.tbMove tbThreshold = { s with now := 0xE000000000000000#64, tb := s.tb.ring } := by
  have hring : s.tb.moved 64 s.now.toNat (tbThreshold % 2 ^ 64) = s.tb.ring :=
    s.tb.moved_threshold (tbThreshold_eq_bellAt ▸ h) (by decide)
  simp only [State.tbMove, hring]
  rfl

/-- The timebase's two moves at its wrap: to the last value, and on to zero (R26). -/
theorem State.tbMove_last_zero (s : State) :
    (s.tbMove (2 ^ 64 - 1)).tbMove (2 ^ 64) =
      { s with now := 0#64, tb := (s.tb.moved 64 s.now.toNat (2 ^ 64 - 1)).moved 64 (2 ^ 64 - 1) 0 } := by
  simp [State.tbMove]

/-- Below its threshold the timebase is set to it. -/
theorem execTimebaseBell_below {s : State} (h : s.now.toNat < tbThreshold) :
    exec .timebaseBell s = .next { s.tbSet tbThreshold with pending := s.pending } := by
  change s.done (if s.now.toNat < tbThreshold then s.tbSet tbThreshold else s) = _
  rw [if_pos h, State.done_eq]

/-- Settles O11: the moves of the timebase at its threshold and at its wrap. -/
theorem timebaseBellAndWrap : Obligations.TimebaseBellAndWrap := by
  unfold Obligations.TimebaseBellAndWrap
  intro s
  have hlast : s.now.toNat ≤ 2 ^ 64 - 1 := by omega
  refine ⟨fun h => ?bell, (s.tbMove (2 ^ 64 - 1)).tbMove (2 ^ 64), rfl, ?wrap⟩
  case bell =>
    rw [execTimebaseBell_below h, State.tbSet, State.tbMove_threshold h]
    rfl
  case wrap =>
    obtain ⟨hlap, hsat⟩ := s.tb.moved_up (w := 64) hlast
    rw [s.tbMove_last_zero, TimeLap.moved_wrap _ (by decide), hlap]
    refine ⟨rfl, rfl, fun h => ?_, fun h => ?_, fun h => ?_⟩
    · rw [if_pos h]
      exact ⟨h, rfl⟩
    · rw [if_neg h]
      exact ⟨rfl, hsat⟩
    · have hquiet : s.tb.moved 64 s.now.toNat (2 ^ 64 - 1) = s.tb := s.tb.moved_quiet h hlast
      rw [hquiet]
      split <;> rfl

/-! ### The rows of the scope -/

/-- Settles O47: a row of the islands has its effect while they run, and those of the timebase have theirs in every state. -/
theorem coreCommandsComplete : Obligations.CoreCommandsComplete := by
  unfold Obligations.CoreCommandsComplete
  intro s
  refine ⟨fun p lg v d h => ?registerWrite, rfl, rfl, fun c rd rb off w h => ?load, fun c rs rb off w h => ?store,
    fun c ga gb imm h => ?fence, fun c h => ?fenceRetire, fun c ga gb gc size order x h => ?ldo,
    fun c ga gb gc size order mbz h => ?sto, fun c ga gb gc size order mbz h => ?swp,
    fun c ga gb gc size order mbz h => ?cas, fun c ga gb gc size order mbz h => ?fadd,
    fun c ga gb gc size order mbz h => ?fand, fun c ga gb gc size order mbz h => ?forOp,
    fun c ga gb gc size order mbz h => ?cas128, fun c h => ?gathered⟩
  case registerWrite => cases p <;> simp only [exec, execRegisterWrite, State.ifRuns_run h]
  all_goals
    simp only [exec, execCoreLoad, execCoreStore, execFence, execFenceRetire, execLdo, execSto, execSwp, execCas,
      execFadd, execFand, execForOp, execCas128, execGatheredWriteIssue, State.ifRuns_run h]

end Sys2Proof.Machine
end

section
/-!
PROOFS of the coherence statements (03_coherence.md): the home hash (R85), and that every coherence message has its effect
while the islands run (R95 to R100, R106, R148, R160).
-/
namespace Sys2Proof.Machine

/-! ### The home hash -/

/-- Group k of the home hash: bits 5k to 5k + 4 of the line address (R85). -/
def homeGroup (line k : Nat) : Nat := (line >>> (5 * k)) % 32

theorem homeGroup_lt (line k : Nat) : homeGroup line k < 2 ^ 5 := Nat.mod_lt _ (by decide)

theorem homeGroup_xor (a b k : Nat) : homeGroup (a ^^^ b) k = homeGroup a k ^^^ homeGroup b k := by
  rw [homeGroup, Nat.shiftRight_xor_distrib]
  exact Nat.xor_mod_two_pow (n := 5)

/-- The exclusive or of an address's groups at the places of a list, from a start value. -/
def foldGroups (ks : List Nat) (start line : Nat) : Nat := ks.foldl (fun acc k => acc ^^^ homeGroup line k) start

theorem homeOf_eq_foldGroups (line : Nat) : homeOf line = foldGroups (List.range 10) 0 line := rfl

theorem foldGroups_lt (ks : List Nat) {start : Nat} (line : Nat) (h : start < 2 ^ 5) :
    foldGroups ks start line < 2 ^ 5 := by
  induction ks generalizing start with
  | nil => exact h
  | cons k ks ih => exact ih (Nat.xor_lt_two_pow h (homeGroup_lt line k))

/-- The fold is linear in the pair of its start and the address. -/
theorem foldGroups_xor (ks : List Nat) (x y a b : Nat) :
    foldGroups ks (x ^^^ y) (a ^^^ b) = foldGroups ks x a ^^^ foldGroups ks y b := by
  induction ks generalizing x y with
  | nil => rfl
  | cons k ks ih =>
    have hstep : (x ^^^ y) ^^^ homeGroup (a ^^^ b) k = (x ^^^ homeGroup a k) ^^^ (y ^^^ homeGroup b k) := by
      rw [homeGroup_xor]
      ac_rfl
    exact (congrArg (foldGroups ks · (a ^^^ b)) hstep).trans (ih _ _)

/-- Every line has one of the 32 homes. -/
theorem homeOf_lt (line : Nat) : homeOf line < 32 := foldGroups_lt (List.range 10) line (by decide)

theorem homeOf_xor (a b : Nat) : homeOf (a ^^^ b) = homeOf a ^^^ homeOf b := foldGroups_xor (List.range 10) 0 0 a b

/-- A single bit of a line address stands in one group only, at its place modulo 5. -/
theorem homeOf_two_pow : ∀ k < 46, homeOf (2 ^ k) = 2 ^ (k % 5) := by decide

/-- Settles O12: the hash is linear, so one address bit changes the home by the hash of that bit alone. -/
theorem homeHashSpreadsLines : Obligations.HomeHashSpreadsLines := by
  unfold Obligations.HomeHashSpreadsLines
  refine ⟨homeOf_lt, fun line k hk => ?_, homeOf_xor⟩
  rw [homeOf_xor, homeOf_two_pow k hk]

/-! ### The messages of the coherence protocol -/

/-- Settles O50: each row is one of the islands' (`State.ifRuns`), and they run. The clauses stand in the order of the
statement: the requests and what a home or device does with them, the snoops, their answers, and the data and
acknowledges. -/
theorem coherenceMessagesComplete : Obligations.CoherenceMessagesComplete := by
  unfold Obligations.CoherenceMessagesComplete
  intro s h
  have runs := State.ifRuns_run h
  refine ⟨fun m => ?rdShared, fun m => ?rdUnique, fun m => ?upgrade, fun m => ?rdOnce, fun m => ?wrFull, fun m => ?wrPart,
    fun m => ?wbDirty, fun m => ?evClean, fun m => ?maintCln, fun m => ?maintInv,
    fun m => ?deviceTimeout, fun m => ?unmapped, fun m => ?nonMem, fun sl ecc => ?homeAdmit,
    fun m => ?snpShared, fun m => ?snpUnique, fun m => ?snpInv, fun m => ?snpCur, fun m => ?snpCln,
    fun m => ?rspClean, fun m => ?rspClnWb, fun m => ?rspI, fun m => ?rspS, fun m => ?rspIFwd, fun m => ?rspSFwd,
    fun m => ?rspOFwd, fun m => ?rspIWb, fun m => ?rspSWb, fun m => ?rspCurFwd, fun line a => ?snoopTimeout,
    fun m => ?dataS, fun m => ?dataE, fun m => ?dataM, fun m => ?grantE, fun m => ?dataOnce, fun m => ?wbAck,
    fun m => ?wbAckStale, fun m => ?evAck, fun m => ?wrAck, fun m => ?maintAck, fun m => ?compAck⟩
  all_goals apply runs

end Sys2Proof.Machine
end

section
/-!
PROOFS of the cache statements (04_caches.md): the LFSR of an HMC slice (R130), the way that a line takes (R133), the eviction
of an L2 (R122), and that a core's maintenance, translation and system-register instructions join its program order.
-/
namespace Sys2Proof.Machine

/-! ### The LFSR of an HMC slice -/

/-- The bit that enters at bit 0: the parity of bits 31, 21, 1 and 0 (R130). -/
def lfsrIn (v : Nat) : Nat := (v / 2147483648 + v / 2097152 + v / 2 + v) % 2

theorem lfsrStep_eq (v : Nat) : lfsrStep v = (2 * v + lfsrIn v) % 2 ^ 32 := rfl

theorem getLsbD_eq_bodd {w : Nat} (v : BitVec w) (i : Nat) : v.getLsbD i = (v.toNat / 2 ^ i).bodd := by
  rw [← BitVec.testBit_toNat, Nat.testBit, Nat.bodd_eq_one_and_ne_zero, Nat.shiftRight_eq_div_pow]

/-- The parity is the exclusive or of the four bits. -/
theorem lfsrIn_toNat (v : BitVec 32) :
    lfsrIn v.toNat = ((v.getLsbD 31 ^^ v.getLsbD 21) ^^ (v.getLsbD 1 ^^ v.getLsbD 0)).toNat := by
  rw [lfsrIn, Nat.mod_two_of_bodd]
  simp only [Nat.bodd_add, getLsbD_eq_bodd, Bool.xor_assoc]
  norm_num

/-- A shift left by one with a bit put in at bit 0. -/
theorem shiftLeft_one_or_ofBool (v : BitVec 32) (b : Bool) :
    (v <<< 1) ||| (BitVec.ofBool b).setWidth 32 = v.shiftConcat b := by
  ext i hi
  rw [BitVec.getElem_shiftConcat]
  cases b <;> by_cases h : i = 0 <;> simp [h]

/-- Bit 31 alone turns the bit that enters. -/
theorem lfsrIn_add_two_pow (v : Nat) : lfsrIn (v + 2 ^ 31) = 1 - lfsrIn v := by
  simp only [lfsrIn]
  omega

/-- A step loses bit 31 alone, and the bit that enters tells it: no two states have one successor. -/
theorem lfsrStep_inj {v w : Nat} (hv : v < 2 ^ 32) (hw : w < 2 ^ 32) (h : lfsrStep v = lfsrStep w) : v = w := by
  wlog hle : v ≤ w generalizing v w
  · exact (this hw hv h.symm (by omega)).symm
  have hbv : lfsrIn v < 2 := Nat.mod_lt _ (by decide)
  have hbw : lfsrIn w < 2 := Nat.mod_lt _ (by decide)
  rw [lfsrStep_eq, lfsrStep_eq] at h
  have htop : v = w ∨ w = v + 2 ^ 31 := by omega
  rcases htop with rfl | rfl
  · rfl
  · rw [lfsrIn_add_two_pow] at h
    omega

/-- Settles O13: the step as a shift, and its injectivity, by which only zero steps to zero. -/
theorem lfsrStepsAndNeverDies : Obligations.LfsrStepsAndNeverDies := by
  unfold Obligations.LfsrStepsAndNeverDies
  refine ⟨fun v => ?shift, fun v h0 hv => ?alive, fun v w hv hw => lfsrStep_inj hv hw⟩
  case shift =>
    rw [shiftLeft_one_or_ofBool, BitVec.toNat_shiftConcat, Nat.shiftLeft_eq, Nat.mul_comm, lfsrStep_eq, lfsrIn_toNat]
  case alive =>
    have h : lfsrStep v ≠ lfsrStep 0 := fun h => Nat.ne_of_gt h0 (lfsrStep_inj hv (by decide) h)
    exact Nat.pos_of_ne_zero h

/-! ### The way that a line takes -/

/-- In a rising list the search finds the least member that it asks for. -/
theorem find?_eq_some_of_least {l : List Nat} {p : Nat → Bool} {w : Nat} (hl : l.Pairwise (· < ·)) (hw : w ∈ l)
    (hp : p w = true) (hmin : ∀ x ∈ l, x < w → p x = false) : l.find? p = some w := by
  obtain ⟨before, after, rfl⟩ := List.append_of_mem hw
  refine List.find?_eq_some_iff_append.2 ⟨hp, before, after, rfl, fun x hx => ?_⟩
  have hlt : x < w := (List.pairwise_append.1 hl).2.2 x hx w List.mem_cons_self
  simp [hmin x (List.mem_append_left _ hx) hlt]

theorem State.freeWays_pairwise (s : State) (h set mask : Nat) : (s.freeWays h set mask).Pairwise (· < ·) :=
  List.pairwise_lt_range.filter _

/-- An allowed way is one of the set's sixteen and in the mask. -/
theorem State.mem_freeWays {s : State} {h set mask w : Nat} (hw : w ∈ s.freeWays h set mask) :
    w < 16 ∧ mask.testBit w = true := by
  obtain ⟨hrange, hfree⟩ := List.mem_filter.1 hw
  simp only [Bool.and_eq_true] at hfree
  obtain ⟨⟨⟨hmask, -⟩, -⟩, -⟩ := hfree
  exact ⟨List.mem_range.1 hrange, hmask⟩

/-- With an invalid way among those allowed, the lowest such way is taken. -/
theorem State.hmcChoose_invalid {s : State} {h set mask w : Nat} (hw : w ∈ s.freeWays h set mask)
    (hinv : s.hmcWay h set w = none) (hmin : ∀ x ∈ s.freeWays h set mask, x < w → s.hmcWay h set x ≠ none) :
    s.hmcChoose h set mask = some w := by
  have hfind : (s.freeWays h set mask).find? (fun x => (s.hmcWay h set x).isNone) = some w :=
    find?_eq_some_of_least (s.freeWays_pairwise h set mask) hw (by simp [hinv])
      fun x hx hlt => by simpa [Option.isNone_eq_false_iff, Option.isSome_iff_ne_none] using hmin x hx hlt
  simp only [State.hmcChoose, hfind]

/-- With every allowed way valid, the LFSR picks one by its place. -/
theorem State.hmcChoose_valid {s : State} {h set mask : Nat}
    (hval : ∀ w ∈ s.freeWays h set mask, s.hmcWay h set w ≠ none) :
    s.hmcChoose h set mask = pickWay (s.lfsr16 h) (s.freeWays h set mask) := by
  have hfind : (s.freeWays h set mask).find? (fun x => (s.hmcWay h set x).isNone) = none :=
    List.find?_eq_none.2 fun x hx => by simpa using hval x hx
  simp only [State.hmcChoose, hfind]

/-- A value of 16 bits picks one of the ways where there is one. -/
theorem pickWay_mem {v : Nat} {ways : List Nat} (hv : v < 65536) (hne : ways ≠ []) :
    ∃ w ∈ ways, pickWay v ways = some w := by
  have hpos : 0 < ways.length := List.length_pos_iff.2 hne
  have hlt : v * ways.length / 65536 < ways.length :=
    Nat.div_lt_of_lt_mul (Nat.mul_lt_mul_of_pos_right hv hpos)
  exact ⟨_, List.getElem_mem hlt, List.getElem?_eq_getElem hlt⟩

/-- A line takes a way wherever one is allowed, and takes an allowed one. -/
theorem State.hmcChoose_mem {s : State} {h set mask : Nat} (hne : s.freeWays h set mask ≠ []) :
    ∃ w ∈ s.freeWays h set mask, s.hmcChoose h set mask = some w := by
  cases hfind : (s.freeWays h set mask).find? (fun x => (s.hmcWay h set x).isNone) with
  | some w => exact ⟨w, List.mem_of_find?_eq_some hfind, by simp only [State.hmcChoose, hfind]⟩
  | none =>
    simp only [State.hmcChoose, hfind]
    exact pickWay_mem (Nat.mod_lt _ (by decide)) hne

/-- Settles O14: the choice by whether the allowed set holds an invalid way, and that it lies in the set. -/
theorem victimWayIsInTheMask : Obligations.VictimWayIsInTheMask := by
  unfold Obligations.VictimWayIsInTheMask
  intro s h set mask a
  refine ⟨fun ha => ?none, fun w => State.hmcChoose_invalid, fun _ => State.hmcChoose_valid, fun ha => ?member,
    s.freeWays_pairwise h set mask⟩
  case none =>
    have ha : s.freeWays h set mask = [] := ha
    rw [State.hmcChoose_valid (by simp [ha]), ha]
    rfl
  case member =>
    obtain ⟨w, hw, hc⟩ := State.hmcChoose_mem ha
    obtain ⟨hlt, hmask⟩ := State.mem_freeWays hw
    exact ⟨w, hw, hc, hmask, hlt⟩

/-! ### The lines of a die's L3 and its arrays -/

/-- Another die or another line has another key. -/
theorem dieKey_ne {d t l line : Nat} (hl : l < 2 ^ 46) (hline : line < 2 ^ 46) (h : d ≠ t ∨ l ≠ line) :
    dieKey d l ≠ dieKey t line := by
  unfold dieKey
  omega

@[simp] theorem State.l3At_l3Put_same (s : State) (t line : Nat) (x : L3Line) :
    (s.l3Put t line x).l3At t line = some x := Tbl.get?_set_same s.l3 _ x

theorem State.l3At_l3Put_other (s : State) {d t l line : Nat} (x : L3Line) (h : dieKey d l ≠ dieKey t line) :
    (s.l3Put t line x).l3At d l = s.l3At d l := Tbl.get?_set_other s.l3 x h

theorem State.arr_setArr_other (s : State) {k j : Nat} (x : Arr) (h : j ≠ k) : (s.setArr k x).arr j = s.arr j :=
  Tbl.getD_put_other s.arrs Arr.init x Arr.init h

/-- Dropping a line from an array changes that array only. -/
theorem State.arrDrop_frame (s : State) (k line : Nat) :
    s.arrDrop k line = { s with arrs := (s.arrDrop k line).arrs } ∧
      ∀ j, j ≠ k → (s.arrDrop k line).arr j = s.arr j := by
  unfold State.arrDrop
  split
  · exact ⟨rfl, fun _ hj => s.arr_setArr_other _ hj⟩
  · exact ⟨rfl, fun _ _ => rfl⟩

/-! ### Presence bits -/

theorem hasBit_clrBit {w : Nat} (v : BitVec w) (k n : Nat) :
    hasBit (clrBit v n) k = (hasBit v k && decide (k ≠ n)) := by
  have hclr : clrBit v n = v &&& ~~~BitVec.twoPow w n := rfl
  simp only [hasBit, hclr, BitVec.getLsbD_and, BitVec.getLsbD_not, BitVec.getLsbD_twoPow]
  by_cases hk : k < w
  · rcases eq_or_ne k n with rfl | hne
    · simp [hk]
    · simp [hk, hne, hne.symm]
  · rw [BitVec.getLsbD_of_ge v k (Nat.not_lt.1 hk), Bool.false_and, Bool.false_and]

@[simp] theorem hasBit_dropCore_same (x : L3Line) (n : Nat) : hasBit (x.dropCore n).pres n = false := by
  simp [L3Line.dropCore, hasBit_clrBit]

theorem hasBit_dropCore_other (x : L3Line) {k n : Nat} (h : k ≠ n) : hasBit (x.dropCore n).pres k = hasBit x.pres k := by
  simp [L3Line.dropCore, hasBit_clrBit, h]

/-! ### The eviction of an L2 -/

/-- A core whose presence bit is clear holds the line in none of its arrays. -/
theorem State.arrHas_of_absent {s : State} {c line : Nat} {x : L3Line} (hx : s.l3At (c / 24) line = some x)
    (hp : hasBit x.pres (c % 24) = false) (a : Nat) : s.arrHas c a line = false := by
  simp [State.arrHas, State.coreHas, hx, hp]

/-- A line that the L3 does not hold is in no L2 below it: nothing is evicted. -/
theorem State.l2Evict_absent {s : State} {c line : Nat} (h : s.l3At (c / 24) line = none) : s.l2Evict c line = s := by
  simp only [State.l2Evict, h]

/-- While the islands run, the row is the eviction. -/
theorem exec_l2Evict {s : State} (h : s.stopped = false) (c : Core) (line : LineAddr) :
    exec (.l2Evict c line) s = .next { s.l2Evict c.val line.toNat with pending := s.pending } :=
  State.ifRuns_run h (fun s => s.l2Evict c.val line.toNat)

/-- An eviction writes the line's entry in the L3, and the core's own arrays. -/
theorem State.l2Evict_present {s : State} {c line : Nat} {x : L3Line} (h : s.l3At (c / 24) line = some x) :
    s.l2Evict c line = { s.l3Put (c / 24) line (x.dropCore (c % 24)) with arrs := (s.l2Evict c line).arrs } ∧
      ∀ k, k ≠ coreArr c 0 → k ≠ coreArr c 1 → k ≠ coreArr c 2 → (s.l2Evict c line).arr k = s.arr k := by
  simp only [State.l2Evict, h]
  generalize hp : s.l3Put (c / 24) line (x.dropCore (c % 24)) = p
  obtain ⟨e2, f2⟩ := p.arrDrop_frame (coreArr c 2) line
  obtain ⟨e1, f1⟩ := (p.arrDrop (coreArr c 2) line).arrDrop_frame (coreArr c 1) line
  obtain ⟨e0, f0⟩ := ((p.arrDrop (coreArr c 2) line).arrDrop (coreArr c 1) line).arrDrop_frame (coreArr c 0) line
  refine ⟨?_, fun k h0 h1 h2 => ?_⟩
  · rw [e0, e1, e2]
  · rw [f0 k h0, f1 k h1, f2 k h2, ← hp]
    rfl

/-- The L3's lines after an eviction are those with the core's bit cleared in the one entry. -/
theorem State.l3At_l2Evict {s : State} {c line : Nat} {x : L3Line} (h : s.l3At (c / 24) line = some x) (d l : Nat) :
    (s.l2Evict c line).l3At d l = (s.l3Put (c / 24) line (x.dropCore (c % 24))).l3At d l := by
  rw [(State.l2Evict_present h).1]
  rfl

/-- Settles O15, by whether the L3 holds the line. -/
theorem l2EvictionStaysInTheDie : Obligations.L2EvictionStaysInTheDie := by
  unfold Obligations.L2EvictionStaysInTheDie dieOf
  intro s c line hrun
  refine ⟨_, exec_l2Evict hrun c line, ?_⟩
  cases hx : s.l3At (c.val / 24) line.toNat with
  | none =>
    rw [State.l2Evict_absent hx]
    exact ⟨rfl, fun _ _ _ _ => rfl, fun _ _ _ _ => rfl, fun _ => rfl, fun _ h => nomatch h⟩
  | some x =>
    obtain ⟨heq, harr⟩ := State.l2Evict_present hx
    have hentry := (State.l3At_l2Evict hx _ _).trans (s.l3At_l3Put_same _ _ _)
    refine ⟨by rw [heq]; rfl, fun d l hne hl => ?other, harr, nofun, fun x' hx' => ?entry⟩
    case other => exact (State.l3At_l2Evict hx d l).trans (s.l3At_l3Put_other _ (dieKey_ne hl line.isLt hne))
    case entry =>
      cases hx'
      exact ⟨_, hentry, rfl, rfl, hasBit_dropCore_same x _, fun k _ hne => hasBit_dropCore_other x hne,
        State.arrHas_of_absent hentry (hasBit_dropCore_same x _)⟩

/-! ### The instructions -/

/-- Settles O48: each row is one of the islands' (`State.ifRuns`), and they run. -/
theorem coreSystemCommandsComplete : Obligations.CoreSystemCommandsComplete := by
  unfold Obligations.CoreSystemCommandsComplete
  intro s h
  have runs := State.ifRuns_run h
  refine ⟨fun c ga gb imm => ?clean, fun c ga gb imm => ?clinv, fun c ga gb imm => ?zero, fun c ga gb imm => ?prf,
    fun c ga gb imm => ?tlbiVa, fun c ga gb imm => ?tlbiVaa, fun c ga gb imm => ?tlbiAsid, fun c ga gb imm => ?tlbiVm,
    fun c ga gb imm => ?tlbiAll, fun c ga gb imm => ?tlblock, fun c ga gb imm => ?tlbunlock, fun c ga gb imm => ?jrinv,
    fun c ga gb imm => ?syncTlb, fun c v => ?vmCtl, fun c r v => ?ttReg, fun c ga gb imm => ?wcall,
    fun c rd => ?ackRead, fun c v => ?eoi, fun c v => ?ipi, fun c v => ?vipCtl, fun c => ?wfi⟩
  all_goals apply runs

end Sys2Proof.Machine
end

section
/-!
PROOFS of the hub and mesh statements (05_hub_mesh.md): what a pacer charges (R175), the phases of a reconfiguration (R184), and
that every row of the mesh, of its routers and of the Stride links (R161 to R217) has its effect while the islands run.
-/
namespace Sys2Proof.Machine

/-! ### The levels of a pacer -/

/-- A level rests on EN, BURST and the bucket alone. -/
theorem State.level_congr {s t : State} {p c : Nat} (he : t.rd (MESH_PCR.EN p c) = s.rd (MESH_PCR.EN p c))
    (hb : t.rd (MESH_PCR.BURST p c) = s.rd (MESH_PCR.BURST p c))
    (hl : Tbl.get? t.mesh.lvl (p * 16 + c) = Tbl.get? s.mesh.lvl (p * 16 + c)) : t.level p c = s.level p c := by
  unfold State.level State.on
  rw [he, hb, hl]

/-- While a class is paced, its level is its bucket's; a bucket never charged is full. -/
theorem State.level_of_paced {s : State} {p c : Nat} (h : s.rd (MESH_PCR.EN p c) ≠ 0) :
    s.level p c = (Tbl.get? s.mesh.lvl (p * 16 + c)).getD (1024 * (s.rd (MESH_PCR.BURST p c) : Int)) := by
  simp [State.level, State.on, h]

theorem State.rd_setLevel_field (s : State) (p c : Nat) (l : Int) :
    (s.setLevel p c l).rd (MESH_PCR.LEVEL p c) = (l / 1024 % 16384).toNat % 2 ^ (MESH_PCR.LEVEL p c).w := by
  rw [State.setLevel, State.rd_wr_same, levelField, Int.fdiv_eq_ediv_of_nonneg l (by decide)]

theorem State.rd_setLevel_other (s : State) {p c : Nat} {f : Fld} (l : Int) (h : f.key ≠ (MESH_PCR.LEVEL p c).key) :
    (s.setLevel p c l).rd f = s.rd f := State.rd_wr_other _ _ h

theorem MESH_PCR.EN_key_ne_LEVEL (q k p c : Nat) : (MESH_PCR.EN q k).key ≠ (MESH_PCR.LEVEL p c).key := by
  simp only [MESH_PCR.EN, MESH_PCR.LEVEL]
  omega

theorem MESH_PCR.BURST_key_ne_LEVEL (q k p c : Nat) : (MESH_PCR.BURST q k).key ≠ (MESH_PCR.LEVEL p c).key := by
  simp only [MESH_PCR.BURST, MESH_PCR.LEVEL]
  omega

theorem State.level_setLevel_same {s : State} {p c : Nat} (h : s.rd (MESH_PCR.EN p c) ≠ 0) (l : Int) :
    (s.setLevel p c l).level p c = l := by
  have he : (s.setLevel p c l).rd (MESH_PCR.EN p c) ≠ 0 := by
    rwa [s.rd_setLevel_other l (MESH_PCR.EN_key_ne_LEVEL p c p c)]
  rw [State.level_of_paced he]
  simp [State.setLevel]

theorem State.level_setLevel_other (s : State) {p c q k : Nat} (l : Int) (h : q * 16 + k ≠ p * 16 + c) :
    (s.setLevel p c l).level q k = s.level q k :=
  State.level_congr (s.rd_setLevel_other l (MESH_PCR.EN_key_ne_LEVEL q k p c))
    (s.rd_setLevel_other l (MESH_PCR.BURST_key_ne_LEVEL q k p c)) (Tbl.get?_set_other s.mesh.lvl l h)

/-! ### CLAMP -/

/-- CLAMP and its count stand below every pacer's registers. -/
theorem State.rd_raise_fCLAMP_pcr (s : State) {f : Fld} (h : 0x501000 * 64 ≤ f.key) :
    (s.raise MESH_STS.fCLAMP).rd f = s.rd f :=
  s.rd_raise_other (Nat.ne_of_gt (Nat.lt_of_lt_of_le (by decide) h)) (Nat.ne_of_gt (Nat.lt_of_lt_of_le (by decide) h))

theorem State.rd_raise_fCLAMP (s : State) : (s.raise MESH_STS.fCLAMP).rd MESH_STS.CLAMP = 1 :=
  s.rd_raise_bit MESH_STS.fCLAMP rfl (by decide)

@[simp] theorem State.level_raise_fCLAMP (s : State) (p c : Nat) : (s.raise MESH_STS.fCLAMP).level p c = s.level p c :=
  State.level_congr (s.rd_raise_fCLAMP_pcr (by simp only [MESH_PCR.EN]; omega))
    (s.rd_raise_fCLAMP_pcr (by simp only [MESH_PCR.BURST]; omega)) rfl

theorem MESH_PCR.LEVEL_key_ge (p c : Nat) : 0x501000 * 64 ≤ (MESH_PCR.LEVEL p c).key := by
  simp only [MESH_PCR.LEVEL]
  omega

/-! ### A charge -/

/-- A charge that reaches no further than the floor is the full cost. -/
theorem State.charge_above {s : State} {p c cost : Nat} (h : -4194304 ≤ s.level p c - 1024 * (cost : Int)) :
    s.charge p c cost = s.setLevel p c (s.level p c - 1024 * (cost : Int)) := if_neg (Int.not_lt.2 h)

/-- A charge beyond the floor stops there and raises CLAMP. -/
theorem State.charge_below {s : State} {p c cost : Nat} (h : s.level p c - 1024 * (cost : Int) < -4194304) :
    s.charge p c cost = (s.setLevel p c (-4194304)).raise MESH_STS.fCLAMP := if_pos h

/-- Settles O24, by whether the charge goes beyond the floor. -/
theorem pacerChargesDownToTheFloor : Obligations.PacerChargesDownToTheFloor := by
  unfold Obligations.PacerChargesDownToTheFloor
  intro s p c cost _ hc hen t l
  have index_ne {q k : Nat} (hk : k < 16) (hne : (q, k) ≠ (p, c)) : q * 16 + k ≠ p * 16 + c := by
    simp only [ne_eq, Prod.mk.injEq] at hne
    omega
  rcases lt_or_ge l (-4194304) with h | h
  · have ht : t = (s.setLevel p c (-4194304)).raise MESH_STS.fCLAMP := State.charge_below h
    rw [ht, max_eq_right (Int.le_of_lt h)]
    refine ⟨?level, fun h' => absurd h (Int.not_lt.2 h'), fun _ => State.rd_raise_fCLAMP _, ?field, ?others⟩
    case level => rw [State.level_raise_fCLAMP, State.level_setLevel_same hen]
    case field => rw [State.rd_raise_fCLAMP_pcr _ (MESH_PCR.LEVEL_key_ge p c), State.rd_setLevel_field]
    case others =>
      intro q k _ hk hne
      rw [State.level_raise_fCLAMP, s.level_setLevel_other _ (index_ne hk hne)]
  · have ht : t = s.setLevel p c l := State.charge_above h
    rw [ht, max_eq_left h]
    refine ⟨State.level_setLevel_same hen l, fun _ => s.rd_setLevel_other l ?clamp, fun h' => absurd h' (Int.not_lt.2 h),
      s.rd_setLevel_field p c l, fun q k _ hk hne => s.level_setLevel_other l (index_ne hk hne)⟩
    case clamp => exact Nat.ne_of_lt (Nat.lt_of_lt_of_le (by decide) (MESH_PCR.LEVEL_key_ge p c))

/-! ### COMPUTE -/

/-- COMPUTE's event ends COMPUTE. -/
theorem exec_recfgComputeDone_ends {s : State} (h : s.stopped = false) (hp : s.rd MESH_RECFG_STS.PHASE = 1) :
    exec .recfgComputeDone s = .next (s.wr MESH_RECFG_STS.PHASE 2) := by
  refine (State.ifRuns_run h _).trans ?_
  rw [if_pos hp]
  rfl

/-- In every other phase COMPUTE's event does nothing. -/
theorem exec_recfgComputeDone_idle {s : State} (h : s.stopped = false) (hp : s.rd MESH_RECFG_STS.PHASE ≠ 1) :
    exec .recfgComputeDone s = .next s := by
  refine (State.ifRuns_run h _).trans ?_
  rw [if_neg hp]

/-! ### INSTALL -/

theorem exec_recfgInstallDone {s : State} (h : s.stopped = false) :
    exec .recfgInstallDone s = .next { s.recfgInstall with pending := s.pending } := State.ifRuns_run h _

/-- In every phase but INSTALL its event does nothing. -/
theorem exec_recfgInstallDone_idle {s : State} (h : s.stopped = false) (hp : s.rd MESH_RECFG_STS.PHASE ≠ 2) :
    exec .recfgInstallDone s = .next s := by
  rw [exec_recfgInstallDone h, State.recfgInstall, if_pos hp]

/-- A number's advance writes registers only. -/
@[simp] theorem State.advance_mesh (s : State) (num lap sat : Fld) (bell : Flag) :
    (s.advance num lap sat bell).mesh = s.mesh := by
  have hlap (u : State) : (u.countLap lap sat).mesh = u.mesh := by
    unfold State.countLap
    split <;> rfl
  rw [State.advance_eq]
  rcases State.bell_cases (s.wr num (s.nextOf num)) num.w (s.rd num) (s.nextOf num) lap sat bell with
    ⟨-, e⟩ | ⟨-, -, e⟩ | ⟨-, -, e⟩
  · rw [e, State.raise_mesh, hlap, State.wr_mesh]
  · rw [e, State.raise_mesh, State.wr_mesh]
  · rw [e, State.wr_mesh]

/-- The state with the routes of the spare banks in use and the epoch advanced (R184). -/
def State.installed (s : State) : State :=
  State.advance { s with mesh := { s.mesh with mask := s.mesh.spare } } MESH_EPOCH.EPOCH MESH_EPOCH.LAP
    MESH_GEN_LAP.EPOCH_LAP_SAT MESH_STS.fEPOCH_BELL

theorem State.rd_installed_epoch (s : State) :
    s.installed.rd MESH_EPOCH.EPOCH = (s.rd MESH_EPOCH.EPOCH + 1) % 65536 :=
  State.rd_advance_num _ (by decide) (by decide) (by decide) (by decide)

@[simp] theorem State.installed_mesh (s : State) : s.installed.mesh = { s.mesh with mask := s.mesh.spare } :=
  State.advance_mesh _ _ _ _ _

/-- INSTALL's end: the routes and the epoch change, MESH_UNREACH is shown, with an event of its flag where a stop is new there
(R185), and DRAIN begins. -/
theorem State.recfgInstall_cases {s : State} (hp : s.rd MESH_RECFG_STS.PHASE = 2) :
    ∃ u, s.recfgInstall = (s.installed.wr MESH_UNREACH.STOP u).wr MESH_RECFG_STS.PHASE 3 ∨
      s.recfgInstall = ((s.installed.wr MESH_UNREACH.STOP u).raise MESH_STS.fUNREACH).wr MESH_RECFG_STS.PHASE 3 := by
  refine ⟨unreachable s.installed.mesh.mask, ?_⟩
  rw [State.recfgInstall, if_neg (not_not.2 hp)]
  change (State.wr (if _ then _ else _) _ _ = _) ∨ (State.wr (if _ then _ else _) _ _ = _)
  split
  · exact .inr rfl
  · exact .inl rfl

theorem State.recfgInstall_installs {s : State} (hp : s.rd MESH_RECFG_STS.PHASE = 2) :
    s.recfgInstall.rd MESH_RECFG_STS.PHASE = 3 ∧
    s.recfgInstall.rd MESH_EPOCH.EPOCH = (s.rd MESH_EPOCH.EPOCH + 1) % 65536 ∧
    s.recfgInstall.mesh = { s.mesh with mask := s.mesh.spare } := by
  obtain ⟨u, e⟩ := State.recfgInstall_cases hp
  have hepoch : (s.installed.wr MESH_UNREACH.STOP u).rd MESH_EPOCH.EPOCH = (s.rd MESH_EPOCH.EPOCH + 1) % 65536 :=
    (State.rd_wr_other _ u (by decide)).trans s.rd_installed_epoch
  rcases e with e | e <;> rw [e] <;> refine ⟨State.rd_wr_same _ _ _, ?_, s.installed_mesh⟩
  · rw [State.rd_wr_other _ _ (by decide), hepoch]
  · rw [State.rd_wr_other _ _ (by decide), State.rd_raise_other _ (by decide) (by decide), hepoch]

/-! ### DRAIN -/

theorem exec_recfgDrainEmpty {s : State} (h : s.stopped = false) :
    exec .recfgDrainEmpty s = .next { s.recfgEmpty with pending := s.pending } := State.ifRuns_run h _

/-- In every phase but DRAIN its event does nothing. -/
theorem exec_recfgDrainEmpty_idle {s : State} (h : s.stopped = false) (hp : s.rd MESH_RECFG_STS.PHASE ≠ 3) :
    exec .recfgDrainEmpty s = .next s := by
  rw [exec_recfgDrainEmpty h, State.recfgEmpty, if_pos hp]

/-- The flit where it leaves the last router of its route. -/
def Flit.arrived (f : Flit) : Flit := { f with hop := f.route.length + 1 }

@[simp] theorem Flit.out_arrived (f : Flit) : f.arrived.out = true := by
  have hlast : f.arrived.route.length < f.arrived.hop := Nat.lt_succ_self _
  simp [Flit.out, hlast]

/-- The mesh with every flit of the old epoch arrived (assumption 67). -/
def State.oldArrived (s : State) : State :=
  { s with mesh := { s.mesh with net := s.mesh.net.map (fun f => if s.oldFlit f then f.arrived else f) } }

theorem State.oldArrived_net (s : State) :
    s.oldArrived.mesh.net = s.mesh.net.map (fun f => if s.oldFlit f then f.arrived else f) := rfl

/-- No flit of the old epoch is left in the routers. -/
theorem State.oldFlit_oldArrived {s : State} {f : Flit} (hf : f ∈ s.oldArrived.mesh.net) : s.oldArrived.oldFlit f = false := by
  change s.oldFlit f = false
  rw [State.oldArrived_net] at hf
  obtain ⟨g, -, rfl⟩ := List.mem_map.1 hf
  split
  case isTrue => simp [State.oldFlit]
  case isFalse hg => exact Bool.eq_false_iff.2 hg

/-- Every flit keeps its load. -/
theorem State.oldArrived_loads (s : State) :
    s.oldArrived.mesh.net.map (fun f => f.load) = s.mesh.net.map (fun f => f.load) := by
  rw [State.oldArrived_net, List.map_map]
  refine List.map_congr_left fun f _ => ?_
  by_cases hf : s.oldFlit f = true <;> simp [hf, Flit.arrived]

/-- With no flit of the old epoch in the routers and none named, ISOLATE loses nothing. -/
theorem State.recfgIsolate_of_no_old {s : State} (hp : s.rd MESH_RECFG_STS.PHASE = 3)
    (h : ∀ f ∈ s.mesh.net, s.oldFlit f = false) : s.recfgIsolate [] = s.wr MESH_RECFG_STS.PHASE 4 := by
  have hnone (r : Nat) : s.mesh.net.filter (fun f => s.oldFlit f && f.meets r) = [] :=
    List.filter_eq_nil_iff.2 fun f hf => by simp [h f hf]
  rw [State.recfgIsolate, if_neg (not_not.2 hp)]
  simp only [hnone, List.map_nil, List.append_nil, List.foldl_nil]

/-- DRAIN's end. -/
theorem State.recfgEmpty_isolates {s : State} (hp : s.rd MESH_RECFG_STS.PHASE = 3) :
    s.recfgEmpty = s.oldArrived.wr MESH_RECFG_STS.PHASE 4 := by
  rw [State.recfgEmpty, if_neg (not_not.2 hp)]
  exact State.recfgIsolate_of_no_old (s := s.oldArrived) hp fun _ => State.oldFlit_oldArrived

theorem exec_recfgDrainEmpty_isolates {s : State} (h : s.stopped = false) (hp : s.rd MESH_RECFG_STS.PHASE = 3) :
    exec .recfgDrainEmpty s = .next (s.oldArrived.wr MESH_RECFG_STS.PHASE 4) := by
  rw [exec_recfgDrainEmpty h, State.recfgEmpty_isolates hp]
  rfl

/-- The phase is no part of what makes a flit old. -/
@[simp] theorem State.oldFlit_wr_phase (s : State) (v : Nat) (f : Flit) :
    (s.wr MESH_RECFG_STS.PHASE v).oldFlit f = s.oldFlit f := by
  have hepoch : (s.wr MESH_RECFG_STS.PHASE v).rd MESH_EPOCH.EPOCH = s.rd MESH_EPOCH.EPOCH :=
    s.rd_wr_other v (by decide)
  rw [State.oldFlit, State.oldFlit, hepoch]

/-! ### ISOLATE -/

/-- Without another router that waits, the reconfiguration ends. -/
theorem State.recfgEnd_ends {s : State} (hp : s.rd MESH_RECFG_STS.PHASE = 4) (hm : s.mesh.toMark = []) :
    s.recfgEnd = (s.wr MESH_RECFG_STS.PHASE 0).wr MESH_RECFG_STS.BUSY 0 := by
  rw [State.recfgEnd, if_neg (not_not.2 hp)]
  simp only [State.wr_mesh, hm]

/-- The state in which a waiting router's reconfiguration starts: the last one has ended, and `rs` still wait. -/
def State.recfgFree (s : State) (rs : List Nat) : State :=
  (State.wr { s with mesh := { s.mesh with toMark := rs } } MESH_RECFG_STS.PHASE 0).wr MESH_RECFG_STS.BUSY 0

/-- With routers that wait, the first one's reconfiguration starts. -/
theorem State.recfgEnd_next {s : State} {r : Nat} {rs : List Nat} (hp : s.rd MESH_RECFG_STS.PHASE = 4)
    (hm : s.mesh.toMark = r :: rs) : s.recfgEnd = (s.recfgFree rs).recfgStart r := by
  rw [State.recfgEnd, if_neg (not_not.2 hp)]
  simp only [State.wr_mesh, hm]
  rfl

theorem State.recfgFree_not_busy (s : State) (rs : List Nat) : (s.recfgFree rs).on MESH_RECFG_STS.BUSY = false := by
  have hbusy : (s.recfgFree rs).rd MESH_RECFG_STS.BUSY = 0 := State.rd_wr_same _ _ _
  simp [State.on, hbusy]

/-- A reconfiguration that starts is in COMPUTE for its router, and those that wait go on waiting. -/
theorem State.recfgStart_starts {s : State} (h : s.on MESH_RECFG_STS.BUSY = false) (r : Nat) :
    (s.recfgStart r).rd MESH_RECFG_STS.PHASE = 1 ∧
    (s.recfgStart r).rd MESH_RECFG_STS.ROUTER = r % 2 ^ MESH_RECFG_STS.ROUTER.w ∧
    (s.recfgStart r).mesh.toMark = s.mesh.toMark := by
  rw [State.recfgStart, if_neg (Bool.eq_false_iff.1 h)]
  refine ⟨?_, State.rd_wr_same _ _ _, rfl⟩
  rw [State.rd_wr_other _ _ (by decide), State.rd_wr_same]
  rfl

/-- Settles O25, phase by phase: a phase's own event moves it on, and the other two find another phase. -/
theorem reconfigurationPhases : Obligations.ReconfigurationPhases := by
  unfold Obligations.ReconfigurationPhases
  intro s h
  have compute_idle := exec_recfgComputeDone_idle h
  have install_idle := exec_recfgInstallDone_idle h
  have drain_idle := exec_recfgDrainEmpty_idle h
  refine ⟨fun hp => ?compute, fun hp => ?install, fun hp => ?drain, fun hp => ?isolate⟩
  case compute => exact ⟨exec_recfgComputeDone_ends h hp, install_idle (by omega), drain_idle (by omega)⟩
  case install =>
    exact ⟨compute_idle (by omega), drain_idle (by omega), _, exec_recfgInstallDone h, State.recfgInstall_installs hp⟩
  case drain =>
    refine ⟨compute_idle (by omega), install_idle (by omega), _, exec_recfgDrainEmpty_isolates h hp,
      State.rd_wr_same _ _ _, fun f hf => ?old, s.oldArrived_loads, rfl⟩
    case old => rw [State.oldFlit_wr_phase, State.oldFlit_oldArrived hf]
  case isolate =>
    refine ⟨compute_idle (by omega), install_idle (by omega), drain_idle (by omega), State.recfgEnd_ends hp, ?_⟩
    intro r rs hm
    rw [State.recfgEnd_next hp hm]
    exact State.recfgStart_starts (s.recfgFree_not_busy rs) r

/-! ### The rows of the mesh and of the Stride links -/

/-- Settles O51: each row is one of the islands' (`State.ifRuns`), and they run. The clauses stand in the order of the
statement: the mesh's flits and stops, the pacers, the routers and their reconfiguration, and the hub ends of the links. -/
theorem meshAndLinkEventsComplete : Obligations.MeshAndLinkEventsComplete := by
  unfold Obligations.MeshAndLinkEventsComplete
  intro s h
  have runs := State.ifRuns_run h
  refine ⟨fun dst src sunit x a b rsv => ?crdFlit, fun r l err => ?linkEccError, fun st id => ?requestTimeout,
    fun p free => ?pacerRelease, fun p c v d => ?pcrWrite, fun st => ?stopDrained, fun st => ?stopDrainTimeout,
    fun r => ?routerFault, fun op r d => ?markDead, ?computeDone, ?installDone, ?drainEmpty, fun lost => ?drainTimeout,
    fun t => ?sidebandReady, fun t r => ?capabilityExchange, fun t lock bad => ?attemptEnd, fun t => ?attemptTimeout,
    fun t mask width set seq => ?widthCheck, fun t c0 c1 c2 => ?creditRestore, fun t => ?linkReset,
    fun t g => ?clockLoss, fun t g w => ?wireRepair, fun t toDie x again => ?slotReceive, fun t w => ?replayRequest,
    fun t w => ?creditReturn, fun t d => ?retrain, fun t pattern point d => ?loopback, fun t d => ?lbStop⟩
  all_goals apply runs

end Sys2Proof.Machine
end

section
/-!
PROOFS of the Stride links' statements (06_stride_links.md): the commands of STR_CMD run only in the link state that each needs
(R210, R216, R217).
-/
namespace Sys2Proof.Machine

/-! ### Commands from a sender that may give them -/

theorem State.prsWrite_allowed {d : Dev} (h : d.attr.enc = 0) (s : State) (off n : Nat) (k : State → State) :
    s.prsWrite d off n false k = k (s.reply 0 0) := by simp [State.prsWrite, h]

/-- A register command of the islands, while they run and from a sender outside the enclaves. -/
theorem State.ifRuns_prsWrite {s : State} {d : Dev} (h : s.stopped = false) (hd : d.attr.enc = 0) (off n : Nat)
    (k : State → State) :
    s.ifRuns (fun s => s.prsWrite d off n false k) = .next { k (s.reply 0 0) with pending := s.pending } := by
  rw [State.ifRuns_run h, State.prsWrite_allowed hd]

/-! ### The status of a command -/

/-- The status is written, and a record may be sent. -/
theorem State.strSts_regs (s : State) (t sts : Nat) : (s.strSts t sts).regs = (s.wr (STR_STATE.LAST_STS t) sts).regs := by
  unfold State.strSts
  split <;> rfl

theorem State.strSts_links (s : State) (t sts : Nat) : (s.strSts t sts).links = s.links := by
  unfold State.strSts
  split <;> rfl

theorem State.rd_strSts (s : State) (t sts : Nat) (f : Fld) :
    (s.strSts t sts).rd f = (s.wr (STR_STATE.LAST_STS t) sts).rd f := by
  rw [State.rd, State.strSts_regs, State.rd]

@[simp] theorem State.rd_strSts_lastSts (s : State) (t sts : Nat) :
    (s.strSts t sts).rd (STR_STATE.LAST_STS t) = sts % 2 ^ 8 := (s.rd_strSts t sts _).trans (State.rd_wr_same _ _ _)

theorem STR_STATE.STATE_key_ne_LAST_STS (t : Nat) : (STR_STATE.STATE t).key ≠ (STR_STATE.LAST_STS t).key := by
  simp only [STR_STATE.STATE, STR_STATE.LAST_STS]
  omega

@[simp] theorem State.linkState_strSts (s : State) (t sts : Nat) : (s.strSts t sts).linkState t = s.linkState t :=
  (s.rd_strSts t sts _).trans (s.rd_wr_other sts (STR_STATE.STATE_key_ne_LAST_STS t))

@[simp] theorem State.linkState_wr_state (s : State) (t st : Nat) :
    (s.wr (STR_STATE.STATE t) st).linkState t = st % 2 ^ 3 := State.rd_wr_same _ _ _

@[simp] theorem State.lastSts_wr_state (s : State) (t st : Nat) :
    (s.wr (STR_STATE.STATE t) st).rd (STR_STATE.LAST_STS t) = s.rd (STR_STATE.LAST_STS t) :=
  s.rd_wr_other st (STR_STATE.STATE_key_ne_LAST_STS t).symm

/-! ### RETRAIN -/

/-- RETRAIN is entered with every flit held, and the status stays (R209). -/
theorem State.retrain_enters (s : State) (t : Nat) :
    (s.retrain t).linkState t = 3 ∧ (s.retrain t).rd (STR_STATE.HOLD t) = 1 ∧
      (s.retrain t).rd (STR_STATE.LAST_STS t) = s.rd (STR_STATE.LAST_STS t) := by
  have htrain (f : Fld) : (s.trainStart t 3).rd f = ((s.wr (STR_STATE.STATE t) 3).wr (STR_STATE.ATTEMPT t) 0).rd f := rfl
  refine ⟨?state, State.rd_wr_same _ _ _, ?sts⟩
  case state =>
    rw [State.linkState, State.retrain, State.rd_wr_other, htrain, State.rd_wr_other, State.rd_wr_same]
    all_goals simp [STR_STATE.STATE, STR_STATE.HOLD, STR_STATE.ATTEMPT]
  case sts =>
    rw [State.retrain, State.rd_wr_other, htrain, State.rd_wr_other, State.lastSts_wr_state]
    all_goals simp [STR_STATE.LAST_STS, STR_STATE.HOLD, STR_STATE.ATTEMPT]

/-! ### STR_TEST_CNT -/

/-- What the test shows stands in STR_TEST_CNT: every register below it keeps its value. -/
theorem State.rd_testShow_below (s : State) {t : Nat} {f : Fld} (h : f.key < (STR_TEST_CNT.ERRORS t).key) :
    (s.testShow t).rd f = s.rd f := by
  simp only [STR_TEST_CNT.ERRORS] at h
  unfold State.testShow
  simp only
  rw [State.rd_wr_other, State.rd_wr_other, State.rd_wr_other]
  · split <;> rfl
  all_goals
    simp only [STR_TEST_CNT.ERRORS, STR_TEST_CNT.V_MARGIN, STR_TEST_CNT.T_MARGIN]
    omega

@[simp] theorem State.linkState_testShow (s : State) (t : Nat) : (s.testShow t).linkState t = s.linkState t :=
  s.rd_testShow_below (by simp only [STR_STATE.STATE, STR_TEST_CNT.ERRORS]; omega)

@[simp] theorem State.lastSts_testShow (s : State) (t : Nat) :
    (s.testShow t).rd (STR_STATE.LAST_STS t) = s.rd (STR_STATE.LAST_STS t) :=
  s.rd_testShow_below (by simp only [STR_STATE.LAST_STS, STR_TEST_CNT.ERRORS]; omega)

/-! ### LOOPBACK and LB_STOP -/

@[simp] theorem State.rd_setLink (s : State) (t : Nat) (x : Link) (f : Fld) : (s.setLink t x).rd f = s.rd f := rfl

@[simp] theorem State.linkState_setLink (s : State) (t : Nat) (x : Link) : (s.setLink t x).linkState t = s.linkState t := rfl

section
variable {s : State} {t pattern point : Nat} (hpat : pattern ≤ 2) (hpt : point ≤ 1)
include hpat hpt

/-- With a pattern and a point of STR_CMD's table, the state alone decides the status (R216). -/
theorem State.loopback_status (s : State) (t : Nat) :
    firstBad [(decide (2 < pattern) || decide (1 < point), EINVAL), (s.pkgMode != 7 || s.linkState t != 0, ESTATE)] =
      if s.pkgMode = 7 ∧ s.linkState t = 0 then OK else ESTATE := by
  by_cases hm : s.pkgMode = 7 <;> by_cases hl : s.linkState t = 0 <;> simp [firstBad, hpat, hpt, hm, hl]

/-- In DIETEST a link that is DOWN enters LOOPBACK (R216). -/
theorem State.loopback_runs (h : s.pkgMode = 7 ∧ s.linkState t = 0) :
    (s.loopback t pattern point).linkState t = 5 ∧ (s.loopback t pattern point).rd (STR_STATE.LAST_STS t) = OK := by
  rw [State.loopback, State.loopback_status hpat hpt, if_pos h]
  simp [OK]

/-- Anywhere else LOOPBACK is answered ESTATE (R216). -/
theorem State.loopback_refused (h : ¬ (s.pkgMode = 7 ∧ s.linkState t = 0)) :
    s.loopback t pattern point = s.strSts t ESTATE := by
  rw [State.loopback, State.loopback_status hpat hpt, if_neg h]
  exact if_neg (by decide)

end

/-- LB_STOP takes the link from LOOPBACK to DOWN (R217). -/
theorem State.lbStop_runs {s : State} {t : Nat} (h : s.linkState t = 5) :
    (s.lbStop t).linkState t = 0 ∧ (s.lbStop t).rd (STR_STATE.LAST_STS t) = OK := by
  rw [State.lbStop, if_pos h]
  simp [OK]

/-- Anywhere else LB_STOP is answered ESTATE (R217). -/
theorem State.lbStop_refused {s : State} {t : Nat} (h : s.linkState t ≠ 5) : s.lbStop t = s.strSts t ESTATE := if_neg h

/-! ### The commands -/

/-- A refusal shows ESTATE and leaves the link in its state. -/
theorem State.strSts_refuses (s : State) (t : Nat) :
    (s.strSts t ESTATE).linkState t = s.linkState t ∧ (s.strSts t ESTATE).rd (STR_STATE.LAST_STS t) = ESTATE :=
  ⟨s.linkState_strSts t ESTATE, s.rd_strSts_lastSts t ESTATE⟩

section
variable {s : State} {d : Dev} (h : s.stopped = false) (hd : d.attr.enc = 0) (t : Tcd)
include h hd

theorem exec_retrain :
    exec (.retrain t d) s =
      .next { (if s.linkState t.val = 2 then ((s.reply 0 0).strSts t.val OK).retrain t.val
        else (s.reply 0 0).strSts t.val ESTATE) with pending := s.pending } :=
  State.ifRuns_prsWrite h hd _ _ _

theorem exec_loopback (pattern : BitVec 4) (point : BitVec 2) :
    exec (.loopback t pattern point d) s =
      .next { (s.reply 0 0).loopback t.val pattern.toNat point.toNat with pending := s.pending } :=
  State.ifRuns_prsWrite h hd _ _ _

theorem exec_lbStop : exec (.lbStop t d) s = .next { (s.reply 0 0).lbStop t.val with pending := s.pending } :=
  State.ifRuns_prsWrite h hd _ _ _

end

/-- Settles O26, command by command: each by whether the link is in the state that the command needs. -/
theorem linkCommandsNeedTheirState : Obligations.LinkCommandsNeedTheirState := by
  unfold Obligations.LinkCommandsNeedTheirState
  intro s t d h hd
  obtain ⟨hstate, hsts⟩ := (s.reply 0 0).strSts_refuses t.val
  refine ⟨⟨_, exec_retrain h hd t, fun ha => ?retrain, fun ha => ?retrainRefused⟩,
    fun pattern point hpat hpt => ⟨_, exec_loopback h hd t pattern point, ?loopback⟩, _, exec_lbStop h hd t, ?lbStop⟩
  case retrain =>
    obtain ⟨hretrain, hhold, hkept⟩ := ((s.reply 0 0).strSts t.val OK).retrain_enters t.val
    rw [if_pos ha]
    exact ⟨hretrain, hhold, hkept.trans (State.rd_strSts_lastSts _ _ _)⟩
  case retrainRefused =>
    rw [if_neg ha]
    exact ⟨hstate, hsts, State.strSts_links _ _ _⟩
  case loopback =>
    refine ⟨State.loopback_runs (s := s.reply 0 0) hpat hpt, fun hn => ?_⟩
    rw [State.loopback_refused (s := s.reply 0 0) hpat hpt hn]
    exact ⟨hstate, hsts⟩
  case lbStop =>
    refine ⟨State.lbStop_runs (s := s.reply 0 0), fun hn => ?_⟩
    rw [State.lbStop_refused (s := s.reply 0 0) hn]
    exact ⟨hstate, hsts⟩

end Sys2Proof.Machine
end

section
/-!
PROOFS of the memory channels' statements (07_memory_channels.md): a line of memory reads back as written (R238, R320), and
every row of the channels and of the parity engine has its effect while the islands run.
-/
namespace Sys2Proof.Machine

/-! ### A line written under the key of an entry -/

@[simp] theorem State.cell_memWrite_same (s : State) (l : Nat) (d : LineData) (p : Bool) (enc : Nat) :
    (s.memWrite l d p enc).cell l = ⟨d, p, if isCxlLine l then 0 else s.keyId enc⟩ := State.cell_putCell_same s l _

theorem State.cell_memWrite_other (s : State) {l k : Nat} (d : LineData) (p : Bool) (enc : Nat) (h : k ≠ l) :
    (s.memWrite l d p enc).cell k = s.cell k := State.cell_putCell_other s _ h

@[simp] theorem State.keyId_memWrite (s : State) (l : Nat) (d : LineData) (p : Bool) (enc e : Nat) :
    (s.memWrite l d p enc).keyId e = s.keyId e := rfl

/-- Data decrypted under the key that encrypted it is the data (R238). -/
@[simp] theorem State.recrypt_same (s : State) (l k : Nat) (d : LineData) : s.recrypt l k k d = d := if_pos rfl

/-! ### What memory reads as -/

/-- CXL memory has no inline encryption, so a line of it reads as stored whatever the enclave (R320). -/
theorem State.memData_cxl (s : State) {l : Nat} (h : isCxlLine l = true) (enc : Nat) : s.memData l enc = (s.cell l).data :=
  if_pos h

/-- Any other line is decrypted under the reader's key (R238). -/
theorem State.memData_encrypted (s : State) {l : Nat} (h : ¬ isCxlLine l = true) (enc : Nat) :
    s.memData l enc = s.recrypt l (s.cell l).key (s.keyId enc) (s.cell l).data := if_neg h

/-- A line's data rests on its cell and on the reader's key alone. -/
theorem State.memData_congr {s t : State} {l enc : Nat} (hc : t.cell l = s.cell l) (hk : t.keyId enc = s.keyId enc) :
    t.memData l enc = s.memData l enc := by
  simp only [State.memData, State.recrypt, hc, hk]

theorem State.memData_memWrite_cxl (s : State) {l : Nat} (h : isCxlLine l = true) (d : LineData) (p : Bool) (enc e : Nat) :
    (s.memWrite l d p enc).memData l e = d := by
  rw [State.memData_cxl _ h, State.cell_memWrite_same]

/-- A line reads back under the enclave that wrote it: outside CXL memory the reader's key is the writer's. -/
theorem State.memData_memWrite_same (s : State) (l : Nat) (d : LineData) (p : Bool) (enc : Nat) :
    (s.memWrite l d p enc).memData l enc = d := by
  by_cases h : isCxlLine l = true
  · exact s.memData_memWrite_cxl h d p enc enc
  · rw [State.memData_encrypted _ h]
    simp [h]

theorem State.memData_memWrite_other (s : State) {l k : Nat} (d : LineData) (p : Bool) (enc e : Nat) (h : k ≠ l) :
    (s.memWrite l d p enc).memData k e = s.memData k e :=
  State.memData_congr (s.cell_memWrite_other d p enc h) (s.keyId_memWrite l d p enc e)

/-- Settles O16: a write of a line goes through the one write of its cell, and leaves the key table as it is. -/
theorem memoryKeepsWhatIsWritten : Obligations.MemoryKeepsWhatIsWritten := by
  unfold Obligations.MemoryKeepsWhatIsWritten
  intro s line enc d psn
  refine ⟨s.memData_memWrite_same line d psn enc, ?poison, fun hcxl e => s.memData_memWrite_cxl hcxl d psn enc e,
    fun l e hne => ⟨s.memData_memWrite_other d psn enc e hne, s.cell_memWrite_other d psn enc hne⟩,
    rfl, s.memWrite_wf line d psn enc⟩
  case poison => rw [State.cell_memWrite_same]

/-! ### The rows of the channels and of the parity engine -/

/-- Settles O52: each row is one of the islands' (`State.ifRuns`), and they run. The clauses stand in the order of the
statement: the channels' requests, their DRAM's events and the commands of a freeze unit, then the parity engine's. -/
theorem channelAndParityEventsComplete : Obligations.ChannelAndParityEventsComplete := by
  unfold Obligations.ChannelAndParityEventsComplete
  intro s h
  have runs := State.ifRuns_run h
  refine ⟨fun r => ?readArrive, fun r e => ?writeArrive, fun ch line e syn => ?readReturn,
    fun ch line syn => ?readUncorrectable, fun ch => ?writeAge, fun ch sc rk => ?refreshDue, fun ch hot => ?mr4Poll,
    fun ch bank => ?rowDisturb, fun ch => ?actClear, fun ch p e syn => ?patrolScrub, fun ch dcmd line again => ?caParity,
    fun ch line again => ?writeCrc, fun ch => ?phyLockLoss, fun ch x => ?dqsRetune, fun ch ready => ?commandIssue,
    fun ch => ?resume, fun ch kind sc rk bg ba row => ?repair, fun ch => ?fence, fun ch => ?resumeDone,
    fun ch spare bad => ?repairDone, fun enc => ?keyLoad, fun ch => ?deltaArrive, fun x => ?parityUpdate,
    fun r => ?readHandover, fun r => ?writeHandover, fun g stripe => ?rebuildLock, fun g stripe x => ?memberAnswer,
    fun x => ?resyncStripe, fun m => ?init, ?initDone, fun m => ?rebuild, fun m => ?markAll,
    fun g stripe => ?deltaUncorrectable, fun v => ?ctlWrite⟩
  all_goals apply runs

end Sys2Proof.Machine
end

section
/-!
PROOFS of the parity statement (08_channel_parity.md): a parity update that reaches its channel keeps the parity line the XOR of
its stripe (R260, R261).
-/
namespace Sys2Proof.Machine

/-! ### What a put leaves alone -/

theorem Tbl.get?_put_other {α : Type} [DecidableEq α] (t : Tbl α) {k j : Nat} (d v : α) (h : j ≠ k) :
    Tbl.get? (Tbl.put t k d v) j = Tbl.get? t j := by
  unfold Tbl.put
  split
  · exact Tbl.get?_erase_other t h
  · exact Tbl.get?_set_other t v h

/-! ### A corrected error of the merge's read -/

/-- The flag and the count of a channel's corrected errors stand in its own block, so the parity mode is neither. -/
theorem chCECC_key_ne_MODE (ch : Nat) :
    XCP_CTL.MODE.key ≠ (chCECC ch).bit.key ∧ XCP_CTL.MODE.key ≠ (chCECC ch).cnt.key := by
  unfold chCECC
  split
  · simp only [XCP_CTL.MODE, MCH_STS.fCECC, MCH_STS.CECC, MCH_STS_CECC_CNT.COUNT]
    omega
  · simp only [XCP_CTL.MODE, HBC_STS.fCECC, HBC_STS.CECC, HBC_STS_CECC_CNT.COUNT]
    omega

theorem State.chCorr_parMode (s : State) (ch : Nat) (line : Option Nat) : (s.chCorr ch line).parMode = s.parMode :=
  s.rd_raise_other (chCECC_key_ne_MODE ch).1 (chCECC_key_ne_MODE ch).2

/-- Stored lines carry no state, so what a stripe's parity starts from rests on the parity mode alone (R257). -/
theorem State.parityBase_congr {s t : State} (h : t.parMode = s.parMode) (g stripe : Nat) :
    t.parityBase g stripe = s.parityBase g stripe := by
  simp only [State.parityBase, State.dataChans, State.memberLine, State.memberMla, State.groupMembers, h]

@[simp] theorem State.parityBase_chCorr (s : State) (ch : Nat) (line : Option Nat) (g stripe : Nat) :
    (s.chCorr ch line).parityBase g stripe = s.parityBase g stripe :=
  State.parityBase_congr (s.chCorr_parMode ch line) g stripe

/-! ### A write of the parity engine enters a queue -/

@[simp] theorem State.xcpQueue_parity (s : State) (g ch stripe : Nat) (x : LineData) :
    (s.xcpQueue g ch stripe x).parity = s.parity := by
  unfold State.xcpQueue
  split <;> rfl

@[simp] theorem State.xcpQueue_mem (s : State) (g ch stripe : Nat) (x : LineData) : (s.xcpQueue g ch stripe x).mem = s.mem := by
  unfold State.xcpQueue
  split <;> rfl

@[simp] theorem State.xcpQueue_xcp (s : State) (g ch stripe : Nat) (x : LineData) : (s.xcpQueue g ch stripe x).xcp = s.xcp := by
  unfold State.xcpQueue
  split <;> rfl

/-! ### The merge of an update into its parity line (R230, R261) -/

/-- The merge of an update into the parity line, after its read has met the error `ecc`, and its entry in the write queue. -/
def State.mergeUpdate (s : State) (ch : Nat) (ecc : Ecc) (d : Delta) : State :=
  let p := s.parityLine d.group d.stripe
  let s := if ecc = .corr then s.chCorr ch none else s
  (s.setParity d.group d.stripe ⟨p.data ^^^ d.x, p.poison || ecc == .bad⟩).xcpQueue d.group ch d.stripe (p.data ^^^ d.x)

/-- The merge writes the one parity line; the record of a corrected error does not move what the line starts from. -/
theorem State.mergeUpdate_parity (s : State) (ch : Nat) (ecc : Ecc) (d : Delta) :
    (s.mergeUpdate ch ecc d).parity =
      Tbl.put s.parity (parKey d.group d.stripe) ⟨s.parityBase d.group d.stripe, false⟩
        ⟨(s.parityLine d.group d.stripe).data ^^^ d.x, (s.parityLine d.group d.stripe).poison || ecc == .bad⟩ := by
  simp only [State.mergeUpdate, State.xcpQueue_parity, State.setParity]
  split
  · rw [State.parityBase_chCorr]
    rfl
  · rfl

@[simp] theorem State.mergeUpdate_mem (s : State) (ch : Nat) (ecc : Ecc) (d : Delta) : (s.mergeUpdate ch ecc d).mem = s.mem := by
  simp only [State.mergeUpdate, State.xcpQueue_mem, State.setParity]
  split <;> rfl

@[simp] theorem State.mergeUpdate_xcp (s : State) (ch : Nat) (ecc : Ecc) (d : Delta) : (s.mergeUpdate ch ecc d).xcp = s.xcp := by
  simp only [State.mergeUpdate, State.xcpQueue_xcp, State.setParity]
  split <;> rfl

/-! ### The delta line that waits for the way of the one flushed (R264) -/

/-- The second state holds the parity lines and the memory of the first. -/
def State.linesKept (s t : State) : Prop := t.parity = s.parity ∧ t.mem = s.mem

theorem State.linesKept.trans {s t u : State} (h : s.linesKept t) (h' : t.linesKept u) : s.linesKept u := by
  obtain ⟨hpar, hmem⟩ := h
  obtain ⟨hpar', hmem'⟩ := h'
  exact ⟨hpar'.trans hpar, hmem'.trans hmem⟩

/-- A credit comes out of a pool of the mesh. -/
theorem State.xcpCredit_linesKept {s t : State} {ch kind : Nat} (h : s.xcpCredit ch kind = some t) : s.linesKept t := by
  simp only [State.xcpCredit, Option.ite_none_left_eq_some, Option.some.injEq] at h
  obtain ⟨-, rfl⟩ := h
  exact ⟨rfl, rfl⟩

/-- Updates that leave XCP take credits of the mesh, so they reach no stored line (R267). -/
theorem State.updatesGo_linesKept (s : State) : s.linesKept s.updatesGo := by
  unfold State.updatesGo
  refine List.foldlRecOn (motive := s.linesKept) _ _ ⟨rfl, rfl⟩ fun u hu d _ => ?_
  dsimp only
  split
  next v hv =>
    obtain ⟨-, hcredit⟩ := Option.ite_none_left_eq_some.1 hv
    have hkept : s.linesKept v := hu.trans (State.xcpCredit_linesKept hcredit)
    exact hkept
  next => exact hu

/-- The line that waited enters a way of the HMC or leaves as an update of its own. -/
theorem State.fillDone_linesKept (s : State) (fill : Option DeltaFill) : s.linesKept (s.fillDone fill) := by
  unfold State.fillDone
  split
  next => exact ⟨rfl, rfl⟩
  next f =>
    split_ifs
    · exact ⟨rfl, rfl⟩
    · exact ⟨rfl, rfl⟩
    · exact State.updatesGo_linesKept _

/-! ### The update arrives -/

/-- The state in which an update is merged: it is no longer on its way, and its credit goes back (R261, R267). -/
def State.updateTaken (s : State) (ch : Nat) (d : Delta) : State :=
  State.putFlit { s with xcp := { s.xcp with updates := s.xcp.updates.erase d } } (mchStop ch) xcpStop
    (.crd ⟨xcpStop, mchStop ch, 1, 2, 1, 0⟩)

@[simp] theorem State.updateTaken_grpParity (s : State) (ch : Nat) (d : Delta) (g : Nat) :
    (s.updateTaken ch d).grpParity g = s.grpParity g := rfl

@[simp] theorem State.updateTaken_parityLost (s : State) (ch : Nat) (d : Delta) (g stripe : Nat) :
    (s.updateTaken ch d).parityLost g stripe = s.parityLost g stripe := rfl

@[simp] theorem State.updateTaken_chActive (s : State) (ch : Nat) (d : Delta) (c : Nat) :
    (s.updateTaken ch d).chActive c = s.chActive c := rfl

@[simp] theorem State.updateTaken_parityLine (s : State) (ch : Nat) (d : Delta) (g stripe : Nat) :
    (s.updateTaken ch d).parityLine g stripe = s.parityLine g stripe := rfl

/-- Where the group works with parity, its parity member stands and the channel has room, the oldest update sent is merged. -/
theorem State.updateArrive_merges {s : State} {ch : Nat} {d : Delta} (ecc : Ecc)
    (hd : s.xcp.updates.find? (fun d => d.chan == ch && d.sent) = some d) (hg : s.grpParity d.group = true)
    (hl : s.parityLost d.group d.stripe = false) (ha : s.chActive ch = true) (hr : s.wqRoom ch d.stripe = true) :
    s.updateArrive ch ecc = ((s.updateTaken ch d).mergeUpdate ch ecc d).fillDone d.fill := by
  have hroom : ¬ (s.chActive ch = true ∧ s.wqRoom ch d.stripe = false) := by simp [hr]
  have hpar : ¬ (s.updateTaken ch d).grpParity d.group = false := by simp [hg]
  have hmember : ¬ ((s.updateTaken ch d).parityLost d.group d.stripe = true ∨ (s.updateTaken ch d).chActive ch = false) := by
    simp [hl, ha]
  simp only [State.updateArrive, hd, if_neg hroom]
  exact congrArg (State.fillDone · d.fill) ((if_neg hpar).trans (if_neg hmember))

theorem exec_parityUpdateArrive {s : State} (h : s.stopped = false) (ch : Chan) (e : DramErr) :
    exec (.parityUpdateArrive ⟨ch, e⟩) s =
      .next { s.updateArrive ch.val (s.eccOf ch.val e) with pending := s.pending } :=
  State.ifRuns_run h fun s => s.updateArrive ch.val (s.eccOf ch.val e)

/-- An update that carries the XOR of the old and the new line turns the old line's share of a parity into the new one's. -/
theorem xor_delta (old new rest : LineData) : (old ^^^ rest) ^^^ (old ^^^ new) = new ^^^ rest := by
  rw [BitVec.xor_comm old rest, BitVec.xor_assoc, ← BitVec.xor_assoc old, BitVec.xor_self, BitVec.zero_xor, BitVec.xor_comm]

/-- Settles O28: the update is merged once, and the delta line that its acceptance lets in reaches no parity line. -/
theorem deltaKeepsParity : Obligations.DeltaKeepsParity := by
  unfold Obligations.DeltaKeepsParity
  intro s ch e d old new rest hrun hd hg hl ha hr hp hx
  have hexec := exec_parityUpdateArrive hrun ch e
  rw [State.updateArrive_merges _ hd hg hl ha hr] at hexec
  obtain ⟨hpar, hmem⟩ :=
    State.fillDone_linesKept ((s.updateTaken ch.val d).mergeUpdate ch.val (s.eccOf ch.val e) d) d.fill
  rw [State.mergeUpdate_parity, State.updateTaken_parityLine, hp, hx, xor_delta] at hpar
  refine ⟨_, hexec, ?line, fun k hk => ?others, ?memory, fun hfill => ?engine⟩
  case line => exact (congrArg (Tbl.getD · _ _) hpar).trans (Tbl.getD_put_same _ _ _ _)
  case others => exact (congrArg (Tbl.get? · k) hpar).trans (Tbl.get?_put_other _ _ _ hk)
  case memory => exact hmem.trans (State.mergeUpdate_mem _ _ _ _)
  case engine =>
    rw [hfill]
    exact State.mergeUpdate_xcp _ _ _ _

end Sys2Proof.Machine
end

section
/-!
PROOFS of the translation statements (09_translation.md): translation while stage 1 is off (R282), what a leaf allows (R281), and
that the events of translation, of the agents' time windows and of the caches (R108 to R152, R295 to R302) have their effect while
the islands run.
-/
namespace Sys2Proof.Machine

/-! ### Stage 1 off -/

theorem State.on_eq_false {s : State} {f : Fld} (h : s.rd f = 0) : s.on f = false := by simp [State.on, h]

/-- With stage 1 off an access goes to stage 2 with its own address, under the type of the region that it lies in (R282). -/
theorem State.translate_of_stage1_off {s : State} {c : Nat} (h : s.rd (TT_CTL.EN c) = 0) (va acc : Nat) :
    s.translate c va acc = s.stage2 c acc va (if (regionOf va).isMem then 3 else 0) := by
  simp [State.translate, State.on_eq_false h]

/-- Stage 2, where it is off, takes every access as it is. -/
theorem State.stage2_of_off {s : State} {c : Nat} (h : s.rd (VM_CTL.S2EN c) = 0) (acc gpa ty : Nat) :
    s.stage2 c acc gpa ty = .ok ⟨gpa, ty, 0⟩ := by
  simp [State.stage2, State.on_eq_false h]

/-- Settles O21: with stage 1 off translation is stage 2 on the access's own address, which alters nothing where it is off. -/
theorem translationOffIsIdentity : Obligations.TranslationOffIsIdentity := by
  unfold Obligations.TranslationOffIsIdentity
  intro s c va acc h
  have hstage2 := State.translate_of_stage1_off h va acc
  exact ⟨hstage2, fun h2 => hstage2.trans (State.stage2_of_off h2 _ _ _)⟩

/-! ### What a leaf allows -/

/-- With A 0 every access faults with ACCESS. -/
theorem leafCheck_of_not_accessed {perm : Nat} (hA : perm.testBit 1 = false) (acc : Nat) (l : Lvl) :
    leafCheck perm acc l = some 0x03 := by simp [leafCheck, hA]

section
variable {perm : Nat} (hA : perm.testBit 1 = true)
include hA

theorem leafCheck_fetch_u :
    leafCheck perm 2 .u = if perm.testBit 6 = true ∧ perm.testBit 4 = false then none else some 0x04 := by
  simp [leafCheck, hA]

theorem leafCheck_fetch_s :
    leafCheck perm 2 .s = if perm.testBit 6 = false ∧ perm.testBit 3 = false then none else some 0x04 := by
  simp [leafCheck, hA]

theorem leafCheck_load (l : Lvl) :
    leafCheck perm 0 l = if l = .u ∧ perm.testBit 6 = false then some 0x04 else none := by
  simp [leafCheck, hA]

/-- Any access but a load or a fetch is a store: it asks for what a load does, for W, and then for D. -/
theorem leafCheck_store (l : Lvl) {acc : Nat} (h0 : acc ≠ 0) (h2 : acc ≠ 2) :
    leafCheck perm acc l =
      if l = .u ∧ perm.testBit 6 = false then some 0x04
      else if perm.testBit 5 = false then some 0x04
      else if perm.testBit 0 = false then some 0x05 else none := by
  simp [leafCheck, hA, h0, h2]

/-- A fetch from an accessed leaf is allowed or faults with PERM. -/
theorem leafCheck_fetch_cause (l : Lvl) : leafCheck perm 2 l = none ∨ leafCheck perm 2 l = some 0x04 := by
  cases l with
  | u => rw [leafCheck_fetch_u hA]; exact ite_eq_or_eq ..
  | s => rw [leafCheck_fetch_s hA]; exact ite_eq_or_eq ..
  | h => simp [leafCheck, hA]
  | w => simp [leafCheck, hA]

/-- An access to an accessed leaf is allowed or faults with PERM or DIRTY. -/
theorem leafCheck_cause (acc : Nat) (l : Lvl) :
    leafCheck perm acc l = none ∨ leafCheck perm acc l = some 0x04 ∨ leafCheck perm acc l = some 0x05 := by
  by_cases h2 : acc = 2
  · exact h2 ▸ (leafCheck_fetch_cause hA l).imp_right .inl
  by_cases h0 : acc = 0
  · rw [h0, leafCheck_load hA]
    exact (ite_eq_or_eq ..).symm.imp_right .inl
  · rw [leafCheck_store hA l h0 h2]
    split
    · exact .inr (.inl rfl)
    split
    · exact .inr (.inl rfl)
    · exact (ite_eq_or_eq ..).symm.imp_right .inr

end

/-- Settles O22: with A 0 every access faults with ACCESS; with A 1 each access by the bits that it asks for. -/
theorem leafPermissionTable : Obligations.LeafPermissionTable := by
  unfold Obligations.LeafPermissionTable
  intro perm l b load
  refine ⟨fun hA acc => leafCheck_of_not_accessed hA acc l, fun hA => ?accessed⟩
  have hstore := leafCheck_store hA l (acc := 1) (by decide) (by decide)
  refine ⟨?load, ?store, ?dirty, ?fetchU, ?fetchS, fun acc => leafCheck_cause hA acc l⟩
  case load => simp [leafCheck_load hA, b, load]
  case store => simp [hstore, ite_eq_iff, b, load]
  case dirty => simp [hstore, ite_eq_iff, b, load]
  case fetchU => simp [leafCheck_fetch_u hA, b]
  case fetchS => simp [leafCheck_fetch_s hA, b]

/-! ### The rows of translation, of the agents' windows and of the caches -/

/-- Settles O49: each row is one of the islands' (`State.ifRuns`), and they run. The clauses stand in the order of the
statement: translation broadcasts, walks and presence, the agents' windows, evictions and array errors, then the HMC's halves. -/
theorem translationAndCacheEventsComplete : Obligations.TranslationAndCacheEventsComplete := by
  unfold Obligations.TranslationAndCacheEventsComplete
  intro s h
  have runs := State.ifRuns_run h
  refine ⟨fun c => ?syncTlb, fun c => ?broadcastArrive, fun t => ?tcdDeliver, fun c => ?coreAck, fun t => ?broadcastAck,
    fun c va acc spec => ?tableWalk, fun c => ?presence, fun a => ?suspectWindow, fun sl => ?deadSweep,
    fun c near va own kind => ?prefetch, fun t line => ?l3Evict, fun c line => ?l2Evict, fun h line => ?victimAccepted,
    fun arr u line uncorr => ?dataError, fun arr die index set way dirty => ?tagFatal, fun half => ?enable,
    fun half => ?disable, fun half => ?invalidate, fun half => ?drainDone, fun half => ?invalidateDone,
    fun sl v a => ?seed, fun cls v => ?waymask⟩
  all_goals apply runs

end Sys2Proof.Machine
end

section
/-!
PROOFS of the statements on worlds and enclaves (10_worlds_and_enclaves.md): what the ownership check passes (R315), the debug
policy (R332), and that calls of the SEP and requests of the PMC have their effect (R326, R462).
-/
namespace Sys2Proof.Machine

/-! ### The ownership check (R315) -/

/-- With OWN_CTL.EN 0 nothing is checked. -/
theorem State.ownPass_of_off {s : State} (h : s.rd OWN_CTL.EN = 0) (line : Nat) (w : Bool) (enc : Nat) :
    s.ownPass line w enc = true := by simp [State.ownPass, State.on_eq_false h]

/-- With OWN_CTL.EN 1 the line's entry decides. -/
theorem State.ownPass_of_on {s : State} (h : s.rd OWN_CTL.EN ≠ 0) (line : Nat) (w : Bool) (enc : Nat) :
    s.ownPass line w enc = true ↔
      (s.mot line).kind = .open_ ∧ enc = 0 ∨
      (s.mot line).kind = .owned ∧ w = (s.mot line).world ∧ enc = (s.mot line).enc := by
  have hon : s.on OWN_CTL.EN = true := by simp [State.on, h]
  cases hk : (s.mot line).kind <;> simp [State.ownPass, hon, hk]

/-- A line in no valid segment has an unusable entry. -/
theorem State.mot_of_no_index {s : State} {line : Nat} (h : s.motIndex (line / 32768) = none) : (s.mot line).kind = .bad := by
  have hline : s.motLine line = none := by rw [State.motLine, h, Option.map_none]
  unfold State.mot
  rw [hline]

/-- An owned entry has an owner: ENC 0 stands with the Secure world only (R314). -/
def MotEntry.ownerOk (e : MotEntry) : Prop := e.kind = .owned → e.enc = 0 → e.world = true

/-- The table gives an entry with KIND 1 as owned only where it names an owner. -/
theorem State.motRaw_ownerOk (s : State) (line : Nat) : (s.motRaw line).ownerOk := by
  unfold State.motRaw MotEntry.ownerOk
  split
  next => simp
  next =>
    dsimp only
    split
    · simp
    · split
      case h_2 =>
        split
        next => simp
        next hnamed => exact fun _ henc => Bool.eq_true_of_not_eq_false fun hworld => hnamed ⟨henc, hworld⟩
      all_goals simp

theorem State.mot_ownerOk (s : State) (line : Nat) : (s.mot line).ownerOk := by
  unfold State.mot
  split
  · simp [MotEntry.ownerOk]
  split
  · exact s.motRaw_ownerOk line
  · simp [MotEntry.ownerOk]

/-- Settles O17: with the check off everything passes; with it on the entry's kind decides, one kind after the other. -/
theorem ownershipCheckFollowsTheTable : Obligations.OwnershipCheckFollowsTheTable := by
  unfold Obligations.OwnershipCheckFollowsTheTable
  intro s line enc w
  refine ⟨fun hoff => State.ownPass_of_off hoff line w enc, fun hon => ?checked⟩
  have hpass := State.ownPass_of_on hon line w enc
  refine ⟨fun hk => ?openMemory, fun hk => ?owned, fun hk => ?refused, s.mot_ownerOk line, State.mot_of_no_index⟩
  case openMemory => simpa [hk] using hpass
  case owned => simpa [hk] using hpass
  case refused =>
    rw [Bool.eq_false_iff, ne_eq, hpass]
    rcases hk with hk | hk <;> simp [hk]

/-! ### The debug policy (R332) -/

/-- Settles O19: non-invasive debugging asks for either enable and invasive for its own, so the one implies the other. -/
theorem debugPolicyTable : Obligations.DebugPolicyTable := by
  unfold Obligations.DebugPolicyTable
  intro s w e inv ni debug
  have hinv : s.dbgAllowed true w e = true ↔ inv ∧ (e = 0 ∨ debug) := by
    simp [State.dbgAllowed, State.on, State.encl, inv, debug, Option.any_eq_true]
  have hni : s.dbgAllowed false w e = true ↔ (inv ∨ ni) ∧ (e = 0 ∨ debug) := by
    simp [State.dbgAllowed, State.on, State.encl, inv, ni, debug, Option.any_eq_true]
  exact ⟨hinv, hni, fun h => hni.2 ((hinv.1 h).imp_left .inl)⟩

/-! ### The rows of the SEP's calls and of the PMC's requests -/

/-- Settles O53: a row of the SEP's or the PMC's mailboxes has its effect in every state (`State.done`), and the one of a core,
which is one of the islands' (`State.ifRuns`), while they run. -/
theorem firmwareCallsComplete : Obligations.FirmwareCallsComplete := by
  unfold Obligations.FirmwareCallsComplete
  intro s
  have completes := s.done_eq
  refine ⟨fun q => ?encCreate, fun q => ?encAdd, fun q => ?encSeal, fun q => ?encRemove, fun q => ?encDestroy,
    fun q => ?encAttest, fun q => ?assign, fun q => ?claim, fun q => ?release, fun q => ?dbgSet, fun d => ?claimTimeout,
    ?ownershipResume, fun rid => ?ideFail, fun q => ?domOn, fun q => ?domOff, fun q => ?domGate, fun d => ?domPowered,
    fun q => ?clusPerf, fun q => ?coreOffline, fun q => ?coreOnline, fun q => ?setLimit, fun q => ?setRide,
    fun q => ?pmcQuery, fun busy => ?interval, fun k => ?rampDone, fun c h => ?idle2⟩
  case idle2 => exact State.ifRuns_run h fun s => s.idle2 c.val
  all_goals apply completes

end Sys2Proof.Machine
end

section
/-!
PROOFS of the statement on refused transactions (10_worlds_and_enclaves.md): admission counts, meters and takes a copy of the
line's entry, none of which the check reads, so a refused request is recorded and answered and nothing at its home changes
(R316, R317).
-/
namespace Sys2Proof.Machine

/-! ### What the homes' own registers leave alone -/

/-- The field stands outside the homes' register blocks, offsets 0x200000 to 0x3FFFFF (R44). -/
def Fld.besideHomes (f : Fld) : Prop := f.addr < 0x200000 ∨ 0x400000 ≤ f.addr

/-- The second state holds what the memory map and the ownership table are read from in the first: memory, the keys, the size of
DDR5, and every register outside the homes' blocks. -/
structure State.TableKept (s t : State) : Prop where
  mem : t.mem = s.mem
  keyTab : t.keyTab = s.keyTab
  ddrUsable : t.ddrUsable = s.ddrUsable
  rd : ∀ {f : Fld}, f.besideHomes → t.rd f = s.rd f

/-- It holds all that the ownership check reads: the slices' copies of the table too. -/
structure State.CheckKept (s t : State) : Prop extends s.TableKept t where
  motc : t.motc = s.motc

theorem State.CheckKept.refl (s : State) : s.CheckKept s := ⟨⟨rfl, rfl, rfl, fun _ => rfl⟩, rfl⟩

theorem State.CheckKept.trans {s t u : State} (h : s.CheckKept t) (h' : t.CheckKept u) : s.CheckKept u :=
  ⟨⟨h'.mem.trans h.mem, h'.keyTab.trans h.keyTab, h'.ddrUsable.trans h.ddrUsable, fun hf => (h'.rd hf).trans (h.rd hf)⟩,
    h'.motc.trans h.motc⟩

theorem State.checkKept_wr (s : State) {f : Fld} (v : Nat) (hf : ¬ f.besideHomes) : s.CheckKept (s.wr f v) :=
  ⟨⟨rfl, rfl, rfl, fun hg => s.rd_wr_other v fun he => hf (by rwa [Fld.besideHomes, Fld.addr, ← he])⟩, rfl⟩

/-- A counter of a slice's bank, and its overflow flag with its count, stand in the slice's block (R485). -/
theorem cntFld_home {h k : Nat} (hh : h < 32) (hk : k < 4) : ¬ (cntFld (bankHome h) k).besideHomes := by
  simp only [Fld.besideHomes, Fld.addr, cntFld, bankHome]
  omega

theorem ovfFlag_home {h k : Nat} (hh : h < 32) (hk : k < 4) :
    ¬ (ovfFlag (bankHome h) k).bit.besideHomes ∧ ¬ (ovfFlag (bankHome h) k).cnt.besideHomes := by
  simp only [Fld.besideHomes, Fld.addr, ovfFlag, bankHome]
  omega

/-- A count event of a slice writes registers of its bank only. -/
theorem State.checkKept_count (s : State) {h : Nat} (hh : h < 32) (ev sub : Nat) (a : Option Attr) :
    s.CheckKept (s.count (bankHome h) ev sub a) := by
  unfold State.count
  refine List.foldlRecOn (motive := s.CheckKept) _ _ (.refl s) fun t ht k hk => ?_
  have hk4 : k < 4 := List.mem_range.1 hk
  obtain ⟨hbit, hcnt⟩ := ovfFlag_home hh hk4
  have hwrite (v : Nat) := t.checkKept_wr v (cntFld_home hh hk4)
  split
  · refine ht.trans ?_
    unfold State.bump
    dsimp only
    split
    · exact ((hwrite _).trans (State.checkKept_wr _ _ hbit)).trans (State.checkKept_wr _ _ hcnt)
    · exact hwrite _
  · exact ht

/-- Metering counts in the split ring's interval (R492). -/
theorem State.checkKept_meterMem (s : State) (m : Msg) : s.CheckKept (s.meterMem m) := by
  unfold State.meterMem
  dsimp only
  split <;> exact ⟨⟨rfl, rfl, rfl, fun _ => rfl⟩, rfl⟩

/-! ### The check reads no register of the homes (R315) -/

/-- The fields of a segment stand above the homes' blocks, whatever its number (R313). -/
theorem OWN_SEG_besideHomes (k : Nat) :
    (OWN_SEG.V k).besideHomes ∧ (OWN_SEG.BASE k).besideHomes ∧ (OWN_SEG.LEN k).besideHomes := by
  simp only [Fld.besideHomes, Fld.addr, OWN_SEG.V, OWN_SEG.BASE, OWN_SEG.LEN]
  omega

/-- There are sixteen CXL windows (R39). -/
theorem regionOf_cxl {pa k : Nat} (h : regionOf pa = .cxl k) : k < 16 := by
  unfold regionOf at h
  split_ifs at h
  cases h
  omega

theorem HUB_CXLWIN_besideHomes {k : Nat} (hk : k < 16) :
    (HUB_CXLWIN.EN k).besideHomes ∧ (HUB_CXLWIN.SIZE k).besideHomes := by
  simp only [Fld.besideHomes, Fld.addr, HUB_CXLWIN.EN, HUB_CXLWIN.SIZE]
  omega

theorem frzState_besideHomes (ch : Nat) : (frzState ch).besideHomes := by
  unfold frzState
  split <;> simp only [Fld.besideHomes, Fld.addr, MCH_FRZ.STATE, frzCell] <;> omega

theorem grpState_besideHomes (g : Nat) : (grpState g).besideHomes := by
  unfold grpState
  split <;> exact .inr (by decide)

namespace State.TableKept
variable {s t : State} (h : s.TableKept t)
include h

theorem on {f : Fld} (hf : f.besideHomes) : t.on f = s.on f := by rw [State.on, State.on, h.rd hf]

/-- A register that stands at a fixed place above the homes' blocks. -/
theorem rd_above {f : Fld} (hf : 0x400000 ≤ f.addr) : t.rd f = s.rd f := h.rd (.inr hf)

theorem cell (l : Nat) : t.cell l = s.cell l := by rw [State.cell, State.cell, h.mem]

theorem memData (l enc : Nat) : t.memData l enc = s.memData l enc :=
  State.memData_congr (h.cell l) (by rw [State.keyId, State.keyId, h.keyTab])

theorem motIndex (gran : Nat) : t.motIndex gran = s.motIndex gran := by
  have hV (k : Nat) : t.on (OWN_SEG.V k) = s.on (OWN_SEG.V k) := h.on (OWN_SEG_besideHomes k).1
  have hB (k : Nat) : t.rd (OWN_SEG.BASE k) = s.rd (OWN_SEG.BASE k) := h.rd (OWN_SEG_besideHomes k).2.1
  have hL (k : Nat) : t.rd (OWN_SEG.LEN k) = s.rd (OWN_SEG.LEN k) := h.rd (OWN_SEG_besideHomes k).2.2
  simp only [State.motIndex, hV, hB, hL]

theorem motAddr (i : Nat) : t.motAddr i = s.motAddr i := by
  rw [State.motAddr, State.motAddr, h.rd_above (f := OWN_TBASE.BASE) (by decide)]

theorem motLine (line : Nat) : t.motLine line = s.motLine line := by
  simp only [State.motLine, h.motIndex, h.motAddr]

theorem motRaw (line : Nat) : t.motRaw line = s.motRaw line := by
  unfold State.motRaw
  simp only [h.motIndex, h.motAddr, h.cell, h.memData]

theorem parMode : t.parMode = s.parMode := h.rd_above (f := XCP_CTL.MODE) (by decide)

theorem locate (a : Nat) : t.locate a = s.locate a := by
  have hbits : t.chBits = s.chBits := by
    rw [State.chBits, State.chBits, h.parMode, h.rd_above (f := MCH_MAP.CHW 0) (by decide)]
  simp only [State.locate, hbits, h.on (f := MCH_MAP.COLW 0) (.inr (by decide)),
    h.rd_above (f := MCH_MAP.RKW 0) (by decide), h.rd_above (f := MCH_MAP.ROWW 0) (by decide),
    h.rd_above (f := MCH_MAP.ORDER 0) (by decide), h.on (f := MCH_MAP.HASH 0) (.inr (by decide))]

theorem chanOf (line : Nat) : t.chanOf line = s.chanOf line := by
  simp only [State.chanOf, State.stripeOf, State.memberChan, h.parMode, h.locate,
    h.rd_above (f := MCH_MAP.CHBASE 0) (by decide)]

theorem motReadable (ml : Nat) : t.motReadable ml = s.motReadable ml := by
  have hactive (ch : Nat) : t.chActive ch = s.chActive ch := by
    rw [State.chActive, State.chActive, h.rd (frzState_besideHomes ch)]
  have hparity (g : Nat) : t.grpParity g = s.grpParity g := by
    simp only [State.grpParity, h.rd (grpState_besideHomes g)]
  simp only [State.motReadable, State.groupOf, h.parMode, h.chanOf, hactive, hparity]

theorem populated (pa : Nat) : t.populated pa = s.populated pa := by
  unfold State.populated
  cases hr : regionOf pa with
  | cxl k =>
    obtain ⟨hen, hsize⟩ := HUB_CXLWIN_besideHomes (regionOf_cxl hr)
    simp only [h.on hen, h.rd hsize]
  | hbm => simp only [h.on (f := HUB_ID.HBM_STACKS) (.inl (by decide))]
  | ddr => simp only [h.ddrUsable]
  | unmapped | mmio32 | mmio64 | ecam | prs => rfl

end State.TableKept

namespace State.CheckKept
variable {s t : State} (h : s.CheckKept t)
include h

theorem motWays (k : Nat) : t.motWays k = s.motWays k := by rw [State.motWays, State.motWays, h.motc]

theorem mot (line : Nat) : t.mot line = s.mot line := by
  unfold State.mot
  simp only [h.motLine, h.motWays, h.motReadable, h.motRaw]

/-- A slice's counters do not decide what the check passes. -/
theorem ownPass (line : Nat) (w : Bool) (enc : Nat) : t.ownPass line w enc = s.ownPass line w enc := by
  simp only [State.ownPass, h.on (f := OWN_CTL.EN) (.inr (by decide)), h.mot]

end State.CheckKept

/-- A line whose entry lies in a copy of the slice or on a channel that answers has the table's entry. -/
theorem State.mot_of_line {s : State} {line ml : Nat} (hl : s.motLine line = some ml)
    (hr : ((s.motWays (motSet (homeOf line) ml)).contains ml || s.motReadable ml) = true) : s.mot line = s.motRaw line := by
  unfold State.mot
  rw [hl]
  exact if_pos hr

/-- The slices' copies have no part in what the table holds. -/
theorem State.tableKept_setMotc (s : State) (c : Tbl (List Nat)) : s.TableKept { s with motc := c } :=
  ⟨rfl, rfl, rfl, fun _ => rfl⟩

/-- A slice whose copies of a set start with the entry's line reads the table's entry. -/
theorem State.mot_putMotc {s : State} {line ml : Nat} (hl : s.motLine line = some ml) (ws : List Nat) :
    ({ s with motc := Tbl.put s.motc (motSet (homeOf line) ml) [] (ml :: ws) } : State).mot line = s.motRaw line := by
  have hkept := s.tableKept_setMotc (Tbl.put s.motc (motSet (homeOf line) ml) [] (ml :: ws))
  rw [State.mot_of_line ((hkept.motLine line).trans hl) (by simp [State.motWays]), hkept.motRaw]

/-- Reading the entry takes a copy of its line into the slice, which leaves the entry as it was read (R321). -/
theorem State.mot_motTouch (s : State) (line : Nat) : (s.motTouch line).mot line = s.mot line := by
  unfold State.motTouch
  split
  · rfl
  next ml hml =>
    obtain ⟨-, hl⟩ := Option.ite_none_right_eq_some.1 hml
    dsimp only
    split
    · rfl
    next hnew =>
      have hr : s.motReadable ml = true := by simp_all
      rw [State.mot_of_line hl (by rw [hr, Bool.or_true]), List.take_succ_cons]
      exact State.mot_putMotc hl _

theorem State.on_motTouch (s : State) (line : Nat) (f : Fld) : (s.motTouch line).on f = s.on f := by
  unfold State.motTouch
  split
  · rfl
  · dsimp only
    split <;> rfl

theorem State.ownPass_motTouch (s : State) (line : Nat) (w : Bool) (enc : Nat) :
    (s.motTouch line).ownPass line w enc = s.ownPass line w enc := by
  simp only [State.ownPass, s.on_motTouch, s.mot_motTouch]

/-! ### A refused request at its home (R316, R317) -/

/-- The second state holds what the first holds of a home: directories, the HMC, memory, the dies' L3 and the homes. -/
structure State.HomeKept (s t : State) : Prop where
  dir : t.dir = s.dir
  hmc : t.hmc = s.hmc
  mem : t.mem = s.mem
  l3 : t.l3 = s.l3
  homes : t.homes = s.homes

theorem State.HomeKept.refl (s : State) : s.HomeKept s := ⟨rfl, rfl, rfl, rfl, rfl⟩

theorem State.HomeKept.trans {s t u : State} (h : s.HomeKept t) (h' : t.HomeKept u) : s.HomeKept u :=
  ⟨h'.dir.trans h.dir, h'.hmc.trans h.hmc, h'.mem.trans h.mem, h'.l3.trans h.l3, h'.homes.trans h.homes⟩

theorem State.homeKept_count (s : State) (bank ev sub : Nat) (a : Option Attr) : s.HomeKept (s.count bank ev sub a) := by
  unfold State.count
  refine List.foldlRecOn (motive := s.HomeKept) _ _ (.refl s) fun t ht k _ => ?_
  split
  · refine ht.trans ?_
    unfold State.bump
    dsimp only
    split <;> exact ⟨rfl, rfl, rfl, rfl, rfl⟩
  · exact ht

theorem State.homeKept_meterMem (s : State) (m : Msg) : s.HomeKept (s.meterMem m) := by
  unfold State.meterMem
  dsimp only
  split <;> exact ⟨rfl, rfl, rfl, rfl, rfl⟩

theorem State.homeKept_motTouch (s : State) (line : Nat) : s.HomeKept (s.motTouch line) := by
  unfold State.motTouch
  split
  · exact .refl s
  · dsimp only
    split <;> exact ⟨rfl, rfl, rfl, rfl, rfl⟩

theorem State.homeKept_post (s : State) (m : Msg) : s.HomeKept (s.post m) := by
  unfold State.post
  dsimp only
  split <;> exact ⟨rfl, rfl, rfl, rfl, rfl⟩

/-- An absorber touches nothing but the mesh, its count of dropped writes and ERR (R179). -/
theorem State.homeKept_absorb (s : State) (st : Nat) (m : Msg) (sts : Nat) : s.HomeKept (s.absorb st m sts) := by
  have hdrop : s.HomeKept (if m.opc.dropsData then s.countDrop st m sts else s) := by
    split <;> exact ⟨rfl, rfl, rfl, rfl, rfl⟩
  have hcredit (u : State) : u.HomeKept (if m.opc.isRequest then u.returnCredit m else u) := by
    split <;> exact ⟨rfl, rfl, rfl, rfl, rfl⟩
  unfold State.absorb
  dsimp only
  split
  · exact (hdrop.trans (hcredit _)).trans (State.homeKept_post _ _)
  · exact hdrop.trans (hcredit _)

theorem State.homeKept_launch (s : State) (m : Msg) : s.HomeKept (s.launch m) := by
  unfold State.launch
  split
  · exact s.homeKept_post m
  · exact s.homeKept_absorb _ m 2

theorem State.homeKept_answer (s : State) (m : Msg) (o : Opc) (sts : Nat) (d : LineData) (psn : Bool) :
    s.HomeKept (s.answer m o sts d psn) := s.homeKept_launch _

/-- The state in which a home checks a request: the admission is counted and metered, and the line's entry read. -/
def State.checking (s : State) (h : Nat) (m : Msg) : State :=
  ((s.count (bankHome h) 1 0 (some m.attr)).meterMem m).motTouch m.line.toNat

/-- What a refusal records (R315, R317): an unusable entry is reported, and the refusal is flagged, logged and reported. -/
def State.refused (s : State) (m : Msg) : State :=
  (if (s.mot m.line.toNat).kind = .bad then s.motBad m.line.toNat else s).refusal m.opc.isWrite m.attr.world m.attr.enc.toNat
    m.line.toNat m.src.val m.attr.mtag.toNat

theorem State.homeKept_checking (s : State) (h : Nat) (m : Msg) : s.HomeKept (s.checking h m) :=
  ((s.homeKept_count _ _ _ _).trans (State.homeKept_meterMem _ m)).trans (State.homeKept_motTouch _ _)

theorem State.homeKept_refusal (s : State) (wr world : Bool) (enc line src mtag : Nat) :
    s.HomeKept (s.refusal wr world enc line src mtag) := by
  constructor <;> simp [State.refusal]

theorem State.homeKept_motBad (s : State) (line : Nat) : s.HomeKept (s.motBad line) := ⟨rfl, rfl, rfl, rfl, rfl⟩

theorem State.homeKept_refused (s : State) (m : Msg) : s.HomeKept (s.refused m) := by
  refine State.HomeKept.trans ?_ (State.homeKept_refusal _ _ _ _ _ _ _)
  split
  · exact s.homeKept_motBad _
  · exact .refl s

/-- The answer that touches nothing returns the request's credit; a write is acknowledged and a read given the data (R316). -/
theorem State.answerBare_eq (s : State) (m : Msg) (d : LineData) :
    s.answerBare m d = (s.returnCredit m).answer m (if m.opc.isWrite then ackOf m.opc else .dataOnce) 0
      (if m.opc.isWrite then 0 else d) false := by
  cases ho : m.opc <;> simp [State.answerBare, Opc.isWrite, ho]

theorem State.homeKept_answerBare (s : State) (m : Msg) (d : LineData) : s.HomeKept (s.answerBare m d) := by
  have hcredit : s.HomeKept (s.returnCredit m) := ⟨rfl, rfl, rfl, rfl, rfl⟩
  rw [State.answerBare_eq]
  exact hcredit.trans (State.homeKept_answer _ m _ _ _ _)

/-- A refused request other than an Upgrade or an eviction is recorded and answered, and nothing else. -/
theorem State.admitMsg_refused {s : State} {h : Nat} {m : Msg} (hh : h < 32)
    (hp : s.populated (m.line.toNat * 64) = true) (hr : s.ownPass m.line.toNat m.attr.world m.attr.enc.toNat = false)
    (hwb : ¬ (m.opc = .wbDirty ∨ m.opc = .evClean)) (hup : m.opc ≠ .upgrade) :
    s.admitMsg h m = ((s.checking h m).refused m).answerBare m refusalLine := by
  have hkept := (s.checkKept_count hh 1 0 (some m.attr)).trans (State.checkKept_meterMem _ m)
  have hpop := (hkept.populated (m.line.toNat * 64)).trans hp
  have hpass := (State.ownPass_motTouch _ _ _ _).trans ((hkept.ownPass _ _ _).trans hr)
  unfold State.admitMsg
  dsimp only
  rw [if_neg hwb, if_neg (by rw [hpop]; decide), if_neg (by rw [hpass]; decide), if_neg hup]
  rfl

/-- A write of a field leaves every other register alone. -/
theorem State.rd_wr_otherAddr (s : State) {f g : Fld} (v : Nat) (h : g.addr ≠ f.addr) : (s.wr f v).rd g = s.rd g :=
  s.rd_wr_other v fun he => h (congrArg (· / 64) he)

/-- Outside OWN_LOG a refusal writes its flag and the flag's count only. -/
theorem State.rd_refusal_other (s : State) (wr world : Bool) (enc line src mtag : Nat) {f : Fld}
    (hf : f.addr ≠ OWN_LOG.LINE.addr) :
    (s.refusal wr world enc line src mtag).rd f =
      (s.raise (if wr then OWN_STS.fREFUSE_WR else OWN_STS.fREFUSE_RD)).rd f := by
  have hlog (g : Fld) (hg : g.addr = OWN_LOG.LINE.addr) (u : State) (v : Nat) : (u.wr g v).rd f = u.rd f :=
    u.rd_wr_otherAddr v (hg ▸ hf)
  calc (s.refusal wr world enc line src mtag).rd f = _ := hlog OWN_LOG.LINE rfl _ line
    _ = _ := hlog OWN_LOG.ENC rfl _ enc
    _ = _ := hlog OWN_LOG.WORLD rfl _ world.toNat
    _ = _ := hlog OWN_LOG.WR rfl _ wr.toNat
    _ = _ := hlog OWN_LOG.SRC rfl _ src

theorem State.rd_returnCredit (s : State) (m : Msg) (f : Fld) : (s.returnCredit m).rd f = s.rd f := rfl

/-- A refusal flags itself and logs the line and its ENC (R317). -/
theorem State.rd_refusal (s : State) (wr world : Bool) (enc line src mtag : Nat) :
    let u := s.refusal wr world enc line src mtag
    u.rd OWN_LOG.LINE = line % 2 ^ OWN_LOG.LINE.w ∧ u.rd OWN_LOG.ENC = enc % 2 ^ OWN_LOG.ENC.w ∧
      u.rd (if wr then OWN_STS.fREFUSE_WR else OWN_STS.fREFUSE_RD).bit = 1 := by
  refine ⟨State.rd_wr_same _ _ _, (State.rd_wr_other _ _ (by decide)).trans (State.rd_wr_same _ _ _), ?flag⟩
  cases wr <;> exact (s.rd_refusal_other _ _ _ _ _ _ (by decide)).trans (s.rd_raise_bit _ rfl (by decide))

/-- Settles O18: the check reads nothing that admission counts, so the request is refused, recorded and answered. -/
theorem refusedRequestTouchesNothing : Obligations.RefusedRequestTouchesNothing := by
  unfold Obligations.RefusedRequestTouchesNothing
  intro s h m hp hr ho t
  have hchecked : ¬ (m.opc = .wbDirty ∨ m.opc = .evClean) ∧ m.opc ≠ .upgrade := by
    cases hopc : m.opc <;> simp [hopc] at ho ⊢
  obtain ⟨hwb, hup⟩ := hchecked
  have ht : t = ((s.checking h.val m).refused m).answerBare m refusalLine := State.admitMsg_refused h.isLt hp hr hwb hup
  have hkept := (s.homeKept_checking h.val m).trans (State.homeKept_refused _ m)
    |>.trans (State.homeKept_answerBare _ m refusalLine)
  rw [← ht] at hkept
  refine ⟨hkept.dir, hkept.hmc, hkept.mem, hkept.l3, hkept.homes, _, ht.trans (State.answerBare_eq _ m _), ?_⟩
  simp only [State.rd_returnCredit]
  exact State.rd_refusal _ _ _ _ _ _ _

end Sys2Proof.Machine
end

section
/-!
PROOFS of the statements on the TQE's endpoint (11_tqe_endpoint.md): a window entry is replaced whole by the write of its high
half (R352), and every event of the functions, windows, rings and movers has its effect while the islands run.
-/
namespace Sys2Proof.Machine

/-! ### Writes of several fields -/

/-- The fields of a list take their values, in order. -/
def State.wrAll (s : State) (l : List (Fld × Nat)) : State := l.foldl (fun s e => s.wr e.1 e.2) s

/-- What no write of the list names is left alone. -/
theorem State.rd_wrAll_other {l : List (Fld × Nat)} {f : Fld} (h : ∀ e ∈ l, f.key ≠ e.1.key) (s : State) :
    (s.wrAll l).rd f = s.rd f :=
  List.foldlRecOn (motive := fun t => State.rd t f = s.rd f) l _ rfl fun t ht e he =>
    (t.rd_wr_other e.2 (h e he)).trans ht

/-- Where no field is written twice, each reads back as it was written. -/
theorem State.rd_wrAll_mem {l : List (Fld × Nat)} (hl : l.Pairwise fun a b => a.1.key ≠ b.1.key) (s : State) :
    ∀ e ∈ l, (s.wrAll l).rd e.1 = e.2 % 2 ^ e.1.w := by
  induction l generalizing s with
  | nil => simp
  | cons a l ih =>
    obtain ⟨ha, hl⟩ := List.pairwise_cons.1 hl
    refine List.forall_mem_cons.2 ⟨?_, ih hl (s.wr a.1 a.2)⟩
    exact (State.rd_wrAll_other ha (s.wr a.1 a.2)).trans (s.rd_wr_same a.1 a.2)

/-! ### The window table (R348, R352) -/

/-- The fields of a window entry, each with the bits at its place in the two halves. -/
def winEntry (n lo hi : Nat) : List (Fld × Nat) :=
  let w := lo + hi * 2 ^ 64
  [(TQE_WIN.EN n, lo), (TQE_WIN.PR n, lo / 4), (TQE_WIN.PW n, lo / 8), (TQE_WIN.MT n, lo / 16), (TQE_WIN.GRAN n, lo / 32),
    (TQE_WIN.ID n, w / 2 ^ 12), (TQE_WIN.SIZE n, w / 2 ^ 28), (TQE_WIN.IBASE n, w / 2 ^ 48), (TQE_WIN.OBASE n, w / 2 ^ 88)]

/-- The fields of an entry stand at different places. -/
theorem winEntry_pairwise (n lo hi : Nat) : (winEntry n lo hi).Pairwise fun a b => a.1.key ≠ b.1.key := by
  simp [winEntry, TQE_WIN.EN, TQE_WIN.PR, TQE_WIN.PW, TQE_WIN.MT, TQE_WIN.GRAN, TQE_WIN.ID, TQE_WIN.SIZE, TQE_WIN.IBASE,
    TQE_WIN.OBASE]

/-- An entry's fields stand within its 128 bits. -/
theorem winEntry_key (n lo hi : Nat) :
    ∀ e ∈ winEntry n lo hi, (TQE_WIN.EN n).key ≤ e.1.key ∧ e.1.key < (TQE_WIN.EN n).key + 128 := by
  simp [winEntry, TQE_WIN.EN, TQE_WIN.PR, TQE_WIN.PW, TQE_WIN.MT, TQE_WIN.GRAN, TQE_WIN.ID, TQE_WIN.SIZE, TQE_WIN.IBASE,
    TQE_WIN.OBASE]

/-- Below the peer windows the high half takes the low half from the staging register and writes the entry of both halves. -/
theorem State.winHigh_winLow {n : Nat} (hn : n < 65280) (s : State) (lo hi : Nat) :
    ((s.winLow n lo).winHigh n hi).winStage = none ∧
      ((s.winLow n lo).winHigh n hi).regs = (s.wrAll (winEntry n lo hi)).regs := by
  have hpeer : (decide (65280 ≤ n) && lo.testBit 4) = false := by simp [hn]
  unfold State.winHigh
  simp only [State.winLow, hpeer, Bool.false_eq_true, if_true, if_false]
  split <;> exact ⟨rfl, rfl⟩

/-- Settles O45: the two halves write each field of the entry once, and no field beside it. -/
theorem windowEntriesAreReplacedWhole : Obligations.WindowEntriesAreReplacedWhole := by
  unfold Obligations.WindowEntriesAreReplacedWhole
  intro s n lo hi hn hlo hhi a t
  obtain ⟨hstage, hregs⟩ := s.winHigh_winLow hn lo hi
  have hrd (f : Fld) : t.rd f = (s.wrAll (winEntry n lo hi)).rd f := congrArg (Tbl.getD · f.key f.rst) hregs
  have hread : ∀ e ∈ winEntry n lo hi, t.rd e.1 = e.2 % 2 ^ e.1.w := fun e he =>
    (hrd e.1).trans (State.rd_wrAll_mem (winEntry_pairwise n lo hi) s e he)
  simp only [winEntry, List.forall_mem_cons] at hread
  obtain ⟨hEN, hPR, hPW, hMT, hGRAN, hID, hSIZE, hIBASE, hOBASE, -⟩ := hread
  refine ⟨rfl, hstage, hEN, hPR, hPW, hMT, hGRAN, hID.trans ?id, hSIZE.trans ?size, hIBASE.trans ?ibase,
    hOBASE.trans ?obase, fun f hf => (hrd f).trans (State.rd_wrAll_other (fun e he => ?frame) s)⟩
  case id | size | ibase | obase => simp only [TQE_WIN.ID, TQE_WIN.SIZE, TQE_WIN.IBASE, TQE_WIN.OBASE]; omega
  case frame =>
    have hkey := winEntry_key n lo hi e he
    omega

/-! ### The rows of the TQE's functions, windows, rings and movers -/

/-- Settles O54: each row is one of the islands' (`State.ifRuns`), and they run. The clauses stand in the order of the
statement: the functions, peer pieces and the windows, doorbells, then descriptors and the movers' operations. -/
theorem tqeEventsComplete : Obligations.TqeEventsComplete := by
  unfold Obligations.TqeEventsComplete
  intro s h
  have runs := State.ifRuns_run h
  refine ⟨fun f => ?bmeClear, fun f => ?bmeSet, fun f => ?flr, fun f => ?flrComplete, fun f => ?msixEnable,
    fun f v => ?msixUnmask, fun m rid => ?peerPiece, fun n v d => ?winLow, fun n v d => ?winHigh, fun d => ?fenceRead,
    ?fenceReturn, fun line => ?completionTimeout, fun octet => ?bellDone, fun octet => ?bellRetry, fun r => ?fetch,
    ?moverStart, fun mv => ?copy, fun mv => ?fill, fun mv => ?compare, fun mv => ?crc32c, fun mv => ?gcmEnc,
    fun mv => ?gcmDec, fun mv => ?xtsEnc, fun mv => ?xtsDec, fun mv => ?peer, fun mv => ?nop, fun r => ?commit,
    fun x => ?ptrMismatch, fun mv => ?fifoReset⟩
  all_goals apply runs

end Sys2Proof.Machine
end

section
/-!
PROOFS of the statements on the TQE's rings (12_tqe_rings.md): a buffer's CRC32C can be taken over several descriptors (R372),
and every admin, key store and instance command has its effect.
-/
namespace Sys2Proof.Machine

/-! ### CRC32C (R372) -/

/-- The register takes a buffer's two parts one after the other. -/
@[simp] theorem crcBytes_append (c : BitVec 32) (a b : List (BitVec 8)) :
    crcBytes c (a ++ b) = crcBytes (crcBytes c a) b := List.foldl_append

/-- The check value of CRC32C: the register's inverse after the digits 1 to 9. -/
theorem crcBytes_checkDigits :
    ~~~(crcBytes 0xFFFFFFFF#32 [0x31, 0x32, 0x33, 0x34, 0x35, 0x36, 0x37, 0x38, 0x39]) = 0xE3069283#32 := by
  decide +kernel

/-- Settles O29: the SEED that inverts the first part's result is the register as the first part left it. -/
theorem crc32cChains : Obligations.Crc32cChains := by
  unfold Obligations.Crc32cChains
  intro crc
  refine ⟨fun seed a b => ?chain, fun _ => rfl, crcBytes_checkDigits⟩
  calc crc seed (a ++ b) = ~~~(crcBytes (crcBytes seed a) b) := by simp only [crc, crcBytes_append]
    _ = crc (~~~(crc seed a)) b := by simp only [crc, BitVec.not_not]

/-! ### The rows of the admin queues, the key store and the instances -/

/-- Settles O55: a row is one of the islands' (`State.ifRuns`), and they run; the one of a lane's DRBG has its effect in every
state (`State.done`). The clauses stand in the order of the statement: the admin queue's accesses and the rings, the key store,
mailboxes, then the instances. -/
theorem tqeCommandsComplete : Obligations.TqeCommandsComplete := by
  unfold Obligations.TqeCommandsComplete
  intro s
  refine ⟨fun f v d h => ?admIn, fun f v d h => ?admEnd, fun f h => ?ringGrant, fun f h => ?ringSetup,
    fun f h => ?ringEnable, fun f h => ?ringDisable, fun f h => ?ringReset, fun f h => ?fnClass, fun f h => ?ringQuery,
    fun f hi lg half d h => ?answerPop, fun f h => ?queueReset, fun f h => ?keyBind, fun f h => ?keyPut, fun f h => ?keyGen,
    fun f h => ?keyUnwrap, fun f h => ?keyWrap, fun h => ?wrapDone, fun f h => ?keyErase, fun f h => ?keyQuery,
    fun cause h => ?alarm, fun h => ?rearm, fun lane => ?reseed, fun slot h => ?slotError, fun h => ?windowExpire,
    fun f pf d h => ?mbSend, fun f pf d h => ?mbTake, fun f h => ?instFreeze, fun f h => ?instSave, fun f h => ?instRestore,
    fun f h => ?instResume, fun f h => ?dirtyStart, fun f h => ?dirtySync, fun f h => ?dirtyStop, fun f h => ?instQuery⟩
  case reseed => exact s.done_eq _
  all_goals apply State.ifRuns_run h

end Sys2Proof.Machine
end

section
/-!
PROOFS of the statements on a step (95_what_each_step_holds.md): a step runs the front command, keeps the queue sound, and does
nothing with a command of islands that are stopped (R499, R500, R547).
-/
namespace Sys2Proof.Machine

/-! ### A step and the queue -/

/-- Settles O1, by whether a command waits. -/
theorem stepRunsTheFrontCommand : Obligations.StepRunsTheFrontCommand := by
  unfold Obligations.StepRunsTheFrontCommand
  intro s
  refine ⟨fun c rest h => step_cons h, fun h => ?idle⟩
  case idle => rw [step_nil h, State.done_eq, h]

/-- A step answers a state whose queue has lost its front command. -/
theorem step_pending (s : State) : ∃ t, step s = .next t ∧ t.pending = s.pending.tail := by
  cases h : s.pending with
  | nil => exact ⟨_, step_nil h, h⟩
  | cons c rest =>
    obtain ⟨t, ht⟩ := exec_next c { s with pending := rest }
    exact ⟨_, (step_cons h).trans ht, rfl⟩

/-- Settles O2: what waits after a step waited before it. -/
theorem queueStaysSound : Obligations.QueueStaysSound := by
  unfold Obligations.QueueStaysSound
  intro s t hok ht
  obtain ⟨u, hu, hpending⟩ := step_pending s
  obtain rfl : u = t := Host.Outcome.next.inj (hu.symm.trans ht)
  refine ⟨fun c hc => hok c ?_, hpending⟩
  rw [hpending] at hc
  exact List.mem_of_mem_tail hc

/-! ### Stopped islands -/

/-- A command of the islands has its effect only while they run. -/
theorem exec_outsideAon {c : Instr} (hc : c.outsideAon = true) : ∃ k : State → State, ∀ s, exec c s = s.ifRuns k := by
  cases c
  all_goals try exact absurd hc Bool.false_ne_true
  all_goals exact ⟨_, fun _ => rfl⟩

theorem exec_outsideAon_stopped {c : Instr} {s : State} (hc : c.outsideAon = true) (h : s.stopped = true) :
    exec c s = .next s := by
  obtain ⟨k, hk⟩ := exec_outsideAon hc
  rw [hk, State.ifRuns_stopped h]

/-- A run of n + 1 steps goes on from where the first step leads. -/
theorem core_run_succ {s t : State} (n : Nat) (h : step s = .next t) :
    Sys2Proof.core.run (n + 1) s = Sys2Proof.core.run n t := by
  have hc : Sys2Proof.core.step s = .next t := h
  simp only [Host.Core.run, hc]

/-- Settles O4, by induction on the queue: each step takes one command out and does nothing else. -/
theorem frozenPackageStays : Obligations.FrozenPackageStays := by
  unfold Obligations.FrozenPackageStays
  intro s hs hq
  generalize hp : s.pending = q at hq ⊢
  induction q generalizing s with
  | nil => exact congrArg Host.Outcome.next (by rw [← hp])
  | cons c q ih =>
    obtain ⟨hc, hq⟩ := List.forall_mem_cons.1 hq
    have hstep : step s = .next { s with pending := q } := (step_cons hp).trans (exec_outsideAon_stopped hc hs)
    rw [List.length_cons, core_run_succ q.length hstep]
    exact ih { s with pending := q } hs rfl hq

end Sys2Proof.Machine
end

section
/-!
PROOFS of the statements on power and cooling (16_power_and_cooling.md): SET_LIMIT (R462 to R464) and the package mode (R471,
R477, R479, R572).
-/
namespace Sys2Proof.Machine

/-! ### What changes no more than registers -/

/-- The states differ in the register file at most. -/
def State.RegsOnly (s t : State) : Prop := t = { s with regs := t.regs }

theorem State.RegsOnly.refl (s : State) : s.RegsOnly s := rfl

theorem State.RegsOnly.trans {s t u : State} (h : s.RegsOnly t) (h' : t.RegsOnly u) : s.RegsOnly u := by
  unfold State.RegsOnly at *
  rw [h', h]

theorem State.regsOnly_wr (s : State) (f : Fld) (v : Nat) : s.RegsOnly (s.wr f v) := rfl

theorem State.regsOnly_raise (s : State) (g : Flag) : s.RegsOnly (s.raise g) := rfl

theorem State.regsOnly_wrAll (s : State) (l : List (Fld × Nat)) : s.RegsOnly (s.wrAll l) :=
  List.foldlRecOn (motive := s.RegsOnly) l _ (.refl s) fun _ ht e _ => ht.trans (State.regsOnly_wr _ e.1 e.2)

theorem State.regsOnly_countLap (s : State) (lap sat : Fld) : s.RegsOnly (s.countLap lap sat) := by
  unfold State.countLap
  split
  · exact s.regsOnly_wr _ _
  · exact s.regsOnly_wr _ _

theorem State.regsOnly_bell (s : State) (w v v' : Nat) (lap sat : Fld) (bell : Flag) :
    s.RegsOnly (s.bell w v v' lap sat bell) := by
  rcases s.bell_cases w v v' lap sat bell with ⟨-, e⟩ | ⟨-, -, e⟩ | ⟨-, -, e⟩
  · rw [e]; exact (s.regsOnly_countLap lap sat).trans (State.regsOnly_raise _ bell)
  · rw [e]; exact s.regsOnly_raise bell
  · rw [e]; exact .refl s

theorem State.regsOnly_advance (s : State) (num lap sat : Fld) (bell : Flag) : s.RegsOnly (s.advance num lap sat bell) :=
  (s.regsOnly_wr num _).trans (State.regsOnly_bell _ _ _ _ _ _ _)

/-- An advance leaves alone what is neither the number nor its laps nor its bell. -/
theorem State.rd_advance_other (s : State) {num lap sat f : Fld} {bell : Flag} (hn : f.key ≠ num.key)
    (hl : f.key ≠ lap.key) (hs : f.key ≠ sat.key) (hb : f.key ≠ bell.bit.key) (hc : f.key ≠ bell.cnt.key) :
    (s.advance num lap sat bell).rd f = s.rd f := by
  rw [State.advance_eq, State.rd_bell_other _ _ _ _ hl hs hb hc, State.rd_wr_other _ _ hn]

/-- A value that fits a field reads back. -/
theorem State.rd_wr_of_lt (s : State) {f : Fld} {v : Nat} (h : v < 2 ^ f.w) : (s.wr f v).rd f = v := by
  rw [State.rd_wr_same, Nat.mod_eq_of_lt h]

/-! ### SET_LIMIT (R462 to R464) -/

/-- The checks of a limit w with a lock bit: what keeps the Normal world out, what is out of range, and RIDE. -/
theorem State.setLimit_eq (s : State) (secure : Bool) {w lock : Nat} (hw : w < 2048) (hl : lock < 2) :
    s.setLimit secure (w + lock * 2 ^ 31) false =
      if secure = false ∧ s.rd PMC_LIMIT.LOCK ≠ 0 then (s, EPERM)
      else if w < 700 ∨ 1100 < w then (s, EINVAL)
      else if s.pkgMode = 4 then (s, ESTATE)
      else (if secure = true ∧ lock = 1 then (s.wr PMC_LIMIT.LIMIT_W w).wr PMC_LIMIT.LOCK 1
        else s.wr PMC_LIMIT.LIMIT_W w, OK) := by
  have hwatts : (w + lock * 2 ^ 31) % 2048 = w := by omega
  have hlock : (w + lock * 2 ^ 31) / 2 ^ 31 % 2 = lock := by omega
  simp only [State.setLimit, hwatts, hlock, firstBad, State.on]
  by_cases h1 : secure = false ∧ s.rd PMC_LIMIT.LOCK ≠ 0
  · simp [h1, OK, EPERM]
  by_cases h2 : w < 700 ∨ 1100 < w
  · simp [h1, h2, OK, EINVAL]
  by_cases h3 : s.pkgMode = 4
  · simp [h1, h2, h3, OK, ESTATE]
  · simp [h1, h2, h3]

/-- Settles O36, by the checks in their order. -/
theorem powerLimitRules : Obligations.PowerLimitRules := by
  unfold Obligations.PowerLimitRules
  intro s secure w lock hw hl v r
  have hr : r = _ := s.setLimit_eq secure hw hl
  refine ⟨fun hn hlock => ?locked, fun hmay => ?may⟩
  case locked => rw [hr, if_pos ⟨hn, hlock⟩]
  case may =>
    rw [if_neg (by rintro ⟨hn, hlock⟩; simp [hn, hlock] at hmay)] at hr
    refine ⟨fun hbad => ?range, fun h7 h11 hride => ?ride, fun h7 h11 hride => ?taken⟩
    case range => rw [hr, if_pos hbad]
    case ride => rw [hr, if_neg (by omega), if_pos hride]
    case taken =>
      rw [if_neg (by omega), if_neg hride] at hr
      have hbit : 1 < 2 ^ PMC_LIMIT.LOCK.w := by decide
      have hlimit : (s.wr PMC_LIMIT.LIMIT_W w).rd PMC_LIMIT.LIMIT_W = w := s.rd_wr_of_lt hw
      rw [hr]
      split
      · refine ⟨rfl, ?_, State.rd_wr_of_lt _ hbit, rfl⟩
        rw [State.rd_wr_other _ _ (by decide), hlimit]
      · exact ⟨rfl, hlimit, State.rd_wr_other _ _ (by decide), rfl⟩

/-! ### Operating points (R467) -/

/-- A fall to PS 0 happens at once. -/
theorem State.takePs_zero (s : State) (k : Nat) : s.takePs k 0 =
    { s.wr (PMC_CLUS.PS k) 0 with pmc := { s.pmc with
      psNext := Tbl.erase s.pmc.psNext k, volts := Tbl.set s.pmc.volts k (psVolt 0) } } := if_pos (Nat.zero_le _)

theorem State.rd_takePs_zero_same (s : State) (k : Nat) : (s.takePs k 0).rd (PMC_CLUS.PS k) = 0 := by
  rw [State.takePs_zero]
  exact s.rd_wr_same (PMC_CLUS.PS k) 0

theorem State.rd_takePs_zero_other (s : State) {k : Nat} {f : Fld} (h : f.key ≠ (PMC_CLUS.PS k).key) :
    (s.takePs k 0).rd f = s.rd f := by
  rw [State.takePs_zero]
  exact s.rd_wr_other 0 h

theorem PMC_CLUS.PS_key_ne {j k : Nat} (h : j ≠ k) : (PMC_CLUS.PS j).key ≠ (PMC_CLUS.PS k).key := by
  simp only [PMC_CLUS.PS]
  omega

/-- The first n clusters at PS 0. -/
def State.slowed (s : State) (n : Nat) : State := (List.range n).foldl (fun s k => s.takePs k 0) s

theorem State.slowed_succ (s : State) (n : Nat) : s.slowed (n + 1) = (s.slowed n).takePs n 0 := by
  simp [State.slowed, List.range_succ]

theorem State.rd_slowed_PS (s : State) {n k : Nat} (h : k < n) : (s.slowed n).rd (PMC_CLUS.PS k) = 0 := by
  induction n with
  | zero => omega
  | succ n ih =>
    rw [State.slowed_succ]
    rcases eq_or_ne k n with rfl | hk
    · exact State.rd_takePs_zero_same _ k
    · rw [State.rd_takePs_zero_other _ (PMC_CLUS.PS_key_ne hk)]
      exact ih (by omega)

theorem State.rd_slowed_other (s : State) {f : Fld} (h : ∀ k, f.key ≠ (PMC_CLUS.PS k).key) (n : Nat) :
    (s.slowed n).rd f = s.rd f := by
  induction n with
  | zero => rfl
  | succ n ih => rw [State.slowed_succ, State.rd_takePs_zero_other _ (h n), ih]

theorem State.slowed_lost (s : State) (n : Nat) : (s.slowed n).pmc.lost = s.pmc.lost := by
  induction n with
  | zero => rfl
  | succ n ih => rw [State.slowed_succ, State.takePs_zero, ← ih]

/-! ### The HEAT frame (R476, R532) -/

/-- A frame of the port's own leaves the PMC alone, and every register below the port's. -/
theorem State.rlySend_frame (s : State) (cls code dst tag : Nat) (ans : Bool) (sts : Nat) (pay : List (BitVec 8)) :
    (s.rlySend cls code dst tag ans sts pay).pmc = s.pmc ∧
    ∀ f : Fld, f.addr < 0x1000000 → (s.rlySend cls code dst tag ans sts pay).rd f = s.rd f := by
  unfold State.rlySend
  split
  · exact ⟨rfl, fun _ _ => rfl⟩
  · refine ⟨?_, fun f hf => ?_⟩
    · rw [State.rlySeq, State.regsOnly_advance]
      simp only [State.rlyOut]
      split <;> rfl
    · have hk : f.key / 64 < 0x1000000 := hf
      rw [State.rlySeq, State.rd_advance_other]
      · simp only [State.rlyOut]
        split <;> rfl
      all_goals simp only [RLY_SEQ.SEQ, RLY_SEQ.LAP, RLY_SEQ.LAP_SAT, RLY_STS.fSEQ_BELL, RLY_STS.SEQ_BELL,
        RLY_STS_SEQ_BELL_CNT.COUNT]; omega

theorem State.heatSend_frame (s : State) :
    s.heatSend.pmc = s.pmc ∧ ∀ f : Fld, f.addr < 0x1000000 → s.heatSend.rd f = s.rd f := s.rlySend_frame ..

/-! ### The package mode (R471) -/

theorem State.pkgMode_setMode (s : State) (m : Nat) (h : m < 8) : (s.setMode m).pkgMode = m := State.rd_wr_of_lt _ h

theorem State.rd_setMode_PREV (s : State) (m : Nat) : (s.setMode m).rd HUB_PKG_MODE.PREV_MODE = s.pkgMode % 8 := by
  rw [State.setMode, State.rd_wr_other _ _ (by decide), State.rd_wr_same]
  rfl

theorem State.rd_setMode_other (s : State) (m : Nat) {f : Fld} (h : f.addr ≠ HUB_PKG_MODE.PKG_MODE.addr) :
    (s.setMode m).rd f = s.rd f := by
  rw [State.setMode, State.rd_wr_otherAddr _ _ h]
  exact State.rd_wr_otherAddr _ _ h

/-- A boot from STANDBY writes the mode, MEM_KEPT and the boot's own state (R471, R480). -/
theorem State.bootReq_boots {s : State} (hp : s.pkgMode = 1) (hx : s.sys.extest = false) :
    s.bootReq.1.pkgMode = 2 ∧ s.bootReq.1.rd HUB_PKG_MODE.PREV_MODE = 1 := by
  have hgo : ¬ (s.pkgMode ≠ 1 ∨ s.sys.extest = true) := by simp [hp, hx]
  have hregs : s.bootReq.1.regs = ((s.setMode 2).wr HUB_BOOT.MEMKEPT (s.rd PMC_STS.MEM_KEPT)).regs := by
    rw [State.bootReq, if_neg hgo]
    dsimp only
    split <;> rfl
  have hrd (f : Fld) (hf : f.key ≠ HUB_BOOT.MEMKEPT.key) : s.bootReq.1.rd f = (s.setMode 2).rd f := by
    rw [State.rd, hregs]
    exact State.rd_wr_other _ _ hf
  refine ⟨(hrd _ (by decide)).trans (s.pkgMode_setMode 2 (by decide)), (hrd _ (by decide)).trans ?_⟩
  rw [s.rd_setMode_PREV, hp]

theorem State.bootReq_refused {s : State} (hp : s.pkgMode ≠ 1) : s.bootReq.1 = s := by
  rw [State.bootReq, if_pos (.inl hp)]

/-- The hand-off's mode: RUN from BOOT, no other from elsewhere (R572). -/
theorem State.pkgMode_handoff (s : State) : s.handoff.pkgMode = if s.pkgMode = 2 then 3 else s.pkgMode := by
  unfold State.handoff
  by_cases h : s.pkgMode = 2
  · rw [if_neg (not_not_intro h), if_pos h]
    exact s.pkgMode_setMode 3 (by decide)
  · rw [if_pos h, if_neg h]
    rfl

/-- A sender of the Secure world without an enclave reaches a PRS register (R322). -/
theorem State.prsWrite_passes (s : State) {d : Dev} (he : d.attr.enc = 0) (hw : d.attr.world = true) (off n : Nat)
    (secure : Bool) (k : State → State) : s.prsWrite d off n secure k = k (s.reply 0 0) := by
  rw [State.prsWrite, if_neg (by simp [he, hw])]

/-! ### Loss and return of mains (R477, R479) -/

/-- The package that has been told of the loss. -/
def State.lossNoted (s : State) (ring : Bool) : State :=
  let s : State := if ring then s else { s with sys := { s.sys with pwrfailN := false } }
  { s with pmc := { s.pmc with lost := true, backAt := none } }

/-- An ordered set of the package's own leaves, to be repeated (R531). -/
def State.setSent (s : State) (freeze : Bool) : State :=
  let s := s.rlyOut (.set freeze (s.rd RLY_POS.POS))
  { s with rly := { s.rly with reps := s.rly.reps ++ [(freeze, 8)] } }

/-- A notice as it is taken, with the set that it may originate (R531). -/
def State.noticed (s : State) (ring : Bool) : State :=
  if ring = false ∧ (s.lossNoted ring).on RLY_CTL.ML_OUT ∧ !s.pmc.lost then (s.lossNoted ring).setSent false
  else s.lossNoted ring

/-- What a first notice does to a package on battery: PS 0, RIDE and a HEAT frame in RUN, nothing elsewhere. -/
def State.onBattery (s : State) : State :=
  if s.pkgMode = 3 then ((s.slowed 72).setMode 4).heatSend else s

theorem State.lossNoted_frame (s : State) (ring : Bool) :
    (s.lossNoted ring).pmc.lost = true ∧ (s.lossNoted ring).regs = s.regs := by
  cases ring <;> exact ⟨rfl, rfl⟩

theorem State.setSent_frame (s : State) (freeze : Bool) :
    (s.setSent freeze).pmc = s.pmc ∧ (s.setSent freeze).regs = s.regs := by
  simp only [State.setSent, State.rlyOut]
  split <;> exact ⟨rfl, rfl⟩

theorem State.noticed_frame (s : State) (ring : Bool) :
    (s.noticed ring).pmc.lost = true ∧ (s.noticed ring).regs = s.regs := by
  obtain ⟨hl, hr⟩ := s.lossNoted_frame ring
  unfold State.noticed
  split
  · obtain ⟨hpmc, hregs⟩ := (s.lossNoted ring).setSent_frame false
    exact ⟨hpmc ▸ hl, hregs.trans hr⟩
  · exact ⟨hl, hr⟩

theorem State.pkgMode_noticed (s : State) (ring : Bool) : (s.noticed ring).pkgMode = s.pkgMode := by
  obtain ⟨-, hregs⟩ := s.noticed_frame ring
  rw [State.pkgMode, State.rd, hregs, State.pkgMode, State.rd]

theorem State.mainsLoss_eq (s : State) (ring : Bool) :
    s.mainsLoss ring =
      if (!s.pmc.lost) = false ∨ (s.noticed ring).pkgMode = 0 ∨ (s.noticed ring).pkgMode = 1 then s.noticed ring
      else (((s.noticed ring).raise PMC_STS.fONBATT).onBattery).srcSync 52 := by
  cases ring <;> rfl

/-- A second notice of a loss is taken and no more. -/
theorem State.mainsLoss_again {s : State} (h : s.pmc.lost = true) (ring : Bool) : s.mainsLoss ring = s.noticed ring := by
  rw [State.mainsLoss_eq, if_pos (.inl (by simp [h]))]

theorem State.mainsLoss_first {s : State} (h : s.pmc.lost = false) (hp : 2 ≤ s.pkgMode) (ring : Bool) :
    s.mainsLoss ring = (((s.noticed ring).raise PMC_STS.fONBATT).onBattery).srcSync 52 := by
  have hmode := s.pkgMode_noticed ring
  have hgo : ¬ ((!s.pmc.lost) = false ∨ (s.noticed ring).pkgMode = 0 ∨ (s.noticed ring).pkgMode = 1) := by
    rintro (hf | h0 | h1)
    · exact absurd hf (by simp [h])
    · omega
    · omega
  rw [State.mainsLoss_eq, if_neg hgo]

theorem PMC_CLUS.PS_key (k : Nat) : (PMC_CLUS.PS k).key = 0xC00400 * 64 + 8 + k * 512 := by
  simp only [PMC_CLUS.PS]
  omega

theorem PMC_CLUS.PS_key_ne_PKG_MODE (k : Nat) : HUB_PKG_MODE.PKG_MODE.key ≠ (PMC_CLUS.PS k).key := by
  simp only [PMC_CLUS.PS, HUB_PKG_MODE.PKG_MODE]
  omega

theorem PMC_CLUS.PS_addr (k : Nat) : (PMC_CLUS.PS k).addr = 0xC00400 + k * 8 := by
  rw [Fld.addr, PMC_CLUS.PS_key]
  omega

theorem State.onBattery_lost (s : State) : s.onBattery.pmc.lost = s.pmc.lost := by
  unfold State.onBattery
  split
  · obtain ⟨hpmc, -⟩ := ((s.slowed 72).setMode 4).heatSend_frame
    rw [hpmc]
    exact s.slowed_lost 72
  · rfl

theorem State.onBattery_rides {s : State} (h : s.pkgMode = 3) :
    s.onBattery.pkgMode = 4 ∧ s.onBattery.rd HUB_PKG_MODE.PREV_MODE = 3 ∧
      ∀ k < 72, s.onBattery.rd (PMC_CLUS.PS k) = 0 := by
  have heq : s.onBattery = ((s.slowed 72).setMode 4).heatSend := if_pos h
  obtain ⟨-, hrd⟩ := ((s.slowed 72).setMode 4).heatSend_frame
  have hslow : (s.slowed 72).pkgMode = 3 :=
    (s.rd_slowed_other PMC_CLUS.PS_key_ne_PKG_MODE 72).trans h
  rw [heq]
  refine ⟨?mode, ?prev, fun k hk => ?ps⟩
  case mode => exact (hrd _ (by decide)).trans (State.pkgMode_setMode _ 4 (by decide))
  case prev => rw [hrd _ (by decide), State.rd_setMode_PREV, hslow]
  case ps =>
    have haddr := PMC_CLUS.PS_addr k
    have hmode : HUB_PKG_MODE.PKG_MODE.addr = 0x100010 := by decide
    rw [hrd _ (by omega), State.rd_setMode_other _ _ (by omega), State.rd_slowed_PS s hk]

/-- Outside RUN the notice changes no mode. -/
theorem State.onBattery_stays {s : State} (h : s.pkgMode ≠ 3) : s.onBattery = s := if_neg h

theorem State.pkgMode_raise_fONBATT (s : State) : (s.raise PMC_STS.fONBATT).pkgMode = s.pkgMode :=
  s.rd_raise_other (by decide) (by decide)

theorem State.pkgMode_coldOff (s : State) : s.coldOff.pkgMode = 0 :=
  (State.rd_wr_other _ _ (by decide)).trans (State.pkgMode_setMode _ 0 (by decide))

theorem State.pkgMode_aonLoss (s : State) : s.aonLoss.pkgMode = 0 :=
  (State.rd_wr_other _ _ (by decide)).trans (State.pkgMode_coldOff _)

theorem State.rd_aonLoss_STATE (s : State) : s.aonLoss.rd RLY_POS.STATE = 0 := State.rd_wr_same _ _ _

/-- Settles O37, one event after the other. -/
theorem modesChangeOnTheirEvents : Obligations.ModesChangeOnTheirEvents := by
  unfold Obligations.ModesChangeOnTheirEvents
  intro s
  have handoffRun (d : Dev) (hrun : s.stopped = false) : exec (.handoffRun d) s =
      .next { s.prsWrite d HUB_BOOT.RUN.addr 4 true State.handoff with pending := s.pending } :=
    State.ifRuns_run hrun (fun s => s.prsWrite d HUB_BOOT.RUN.addr 4 true State.handoff)
  refine ⟨⟨_, s.done_eq _, fun hp hx => State.bootReq_boots hp hx, fun hp => ?bootRefused⟩,
    fun d he hw hrun => ⟨_, handoffRun d hrun, ?handoff⟩,
    fun ring => ⟨fun hlost => ⟨_, s.done_eq _, ?again⟩, fun hlost hp => ?first⟩,
    fun hp hlost hpin => ⟨_, s.done_eq _, ?back⟩, ⟨_, s.done_eq _, ?loss⟩⟩
  case bootRefused => rw [State.bootReq_refused hp]
  case handoff =>
    rw [s.prsWrite_passes he hw]
    have hmode : (s.reply 0 0).handoff.pkgMode = if s.pkgMode = 2 then 3 else s.pkgMode :=
      (s.reply 0 0).pkgMode_handoff
    exact ⟨fun h => hmode.trans (if_pos h), fun h => hmode.trans (if_neg h)⟩
  case again =>
    obtain ⟨hl, hr⟩ := s.noticed_frame ring
    rw [State.mainsLoss_again hlost ring]
    exact ⟨hl, hr⟩
  case first =>
    obtain ⟨hl, -⟩ := s.noticed_frame ring
    generalize hu : (s.noticed ring).raise PMC_STS.fONBATT = u
    have hul : u.pmc.lost = true := by rw [← hu]; exact hl
    have hmode : u.pkgMode = s.pkgMode := by
      rw [← hu, State.pkgMode_raise_fONBATT, s.pkgMode_noticed ring]
    refine ⟨u.onBattery, ?_, u.onBattery_lost.trans hul, fun h3 => State.onBattery_rides (hmode.trans h3), fun h3 => ?_⟩
    · rw [← hu, ← State.mainsLoss_first hlost hp]; rfl
    · rw [State.onBattery_stays (hmode ▸ h3), hmode]
  case back =>
    have hgo : ¬ (s.pmc.lost = false ∨ s.sys.pwrfailN = false) := by simp [hlost, hpin]
    rw [State.mainsReturn, if_neg hgo]
    have h4 : State.pkgMode { s with pmc := { s.pmc with lost := false, backAt := none } } = 4 := hp
    simp only [h4, if_true]
    exact ⟨State.pkgMode_setMode _ 3 (by decide), rfl⟩
  case loss =>
    exact ⟨s.pkgMode_aonLoss, s.rd_aonLoss_STATE, rfl⟩

end Sys2Proof.Machine
end

section
/-!
PROOFS of the statements on interrupts and mailboxes (15_interrupts_and_mailboxes.md): a mailbox packs words into entries (R445),
and every event and access has its effect.
-/
namespace Sys2Proof.Machine

/-! ### A mailbox's FIFO -/

@[simp] theorem State.mb_setMb_same (s : State) (m : Nat) (x : Mbx) : (s.setMb m x).mb m = x := by
  have hmbx : (s.setMb m x).mbx = Tbl.put s.mbx m Mbx.init x := by
    obtain ⟨ents, opn, last, lastWorld, lastEnc⟩ := x
    cases ents <;> rfl
  rw [State.mb, hmbx, Tbl.getD_put_same]

/-- A doorbell moves no FIFO. -/
theorem State.doorbell_mbx (s : State) (m b : Nat) : (s.doorbell m b).mbx = s.mbx := by
  simp only [State.doorbell]
  split
  · split
    · rfl
    · split <;> rfl
  · rfl

/-! ### Words of a message (R445) -/

/-- The message that a word begins or goes on with, from the words of its entry. -/
def openMsg (ws : List Nat) (src : Nat) (world : Bool) (enc : Nat) : MbxOpen := ⟨ws, src, world, enc, false, false⟩

/-- The mailbox has room, and holds the words ws of the entry that the sender's next word joins. -/
structure State.Takes (s : State) (m : Nat) (ws : List Nat) (src : Nat) (world : Bool) (enc : Nat) : Prop where
  opn : (s.mb m).opn.getD (openMsg [] src world enc) = openMsg ws src world enc
  room : (s.mb m).ents.length < 32

section
variable {s : State} {m src enc : Nat} {world : Bool} {ws : List Nat} (h : s.Takes m ws src world enc) (w : Nat)
include h

/-- What a mailbox with room does with a word. -/
theorem State.mbWord_of_takes (nb : Option Nat) :
    s.mbWord m w nb src world enc = match nb with
      | none =>
        if (ws ++ [w]).length < 4 then s.setMb m { s.mb m with opn := some (openMsg (ws ++ [w]) src world enc) }
        else s.setMb m { s.mb m with
          ents := (s.mb m).ents ++ [closeEnt (openMsg ws src world enc) (ws ++ [w]) 16 false]
          opn := some (openMsg [] src world enc) }
      | some n =>
        let s := s.setMb m { s.mb m with
          ents := (s.mb m).ents ++ [closeEnt (openMsg ws src world enc) (ws ++ [w]) (4 * ws.length + n) true]
          opn := none }
        let s : State := if m = 8 ∨ m = 10 then { s with pmc := { s.pmc with order := s.pmc.order ++ [m] } } else s
        (s.doorbell m 0).mbSync m := by
  have hopn : (s.mb m).opn.getD ⟨[], src, world, enc, false, false⟩ = openMsg ws src world enc := h.opn
  have hroom : ¬ ((openMsg ws src world enc).words.isEmpty = true ∧ 32 ≤ (s.mb m).ents.length) := by
    rintro ⟨-, hfull⟩
    exact absurd h.room (Nat.not_lt.2 hfull)
  unfold State.mbWord
  simp only [hopn]
  rw [if_neg (by simp [openMsg]), if_neg hroom]
  cases nb <;> rfl

/-- A word that does not fill the entry joins it. -/
theorem State.Takes.put (hlen : ws.length < 3) : (s.mbWord m w none src world enc).Takes m (ws ++ [w]) src world enc ∧
    ((s.mbWord m w none src world enc).mb m).ents = (s.mb m).ents := by
  have hmore : (ws ++ [w]).length < 4 := by rw [List.length_append, List.length_singleton]; omega
  rw [State.mbWord_of_takes h w none]
  simp only [hmore, if_true]
  exact ⟨⟨by simp, by simpa using h.room⟩, by simp⟩

/-- The fourth word closes it. -/
theorem State.Takes.close (hlen : ws.length = 3) : ((s.mbWord m w none src world enc).mb m).ents =
    (s.mb m).ents ++ [⟨packWords (ws ++ [w]) % 2 ^ 128, 16, false, false, world, enc⟩] := by
  have hfull : ¬ (ws ++ [w]).length < 4 := by rw [List.length_append, List.length_singleton]; omega
  rw [State.mbWord_of_takes h w none]
  simp only [hfull, if_false, State.mb_setMb_same]
  rfl

/-- A message's last word closes the entry that it joins, and the message. -/
theorem State.Takes.last (n : Nat) : ∃ t : State, s.mbWord m w (some n) src world enc = t.mbSync m ∧
    (t.mb m).ents = (s.mb m).ents ++ [⟨packWords (ws ++ [w]) % 2 ^ (8 * (4 * ws.length + n)), 4 * ws.length + n, true, false,
      world, enc⟩] ∧ (t.mb m).opn = none := by
  refine ⟨_, State.mbWord_of_takes h w (some n), ?_⟩
  simp only [State.mb, State.doorbell_mbx]
  have hset := s.mb_setMb_same m { s.mb m with
    ents := (s.mb m).ents ++ [closeEnt (openMsg ws src world enc) (ws ++ [w]) (4 * ws.length + n) true], opn := none }
  split <;> exact ⟨congrArg Mbx.ents hset, congrArg Mbx.opn hset⟩

end

/-- Settles O30, word by word from a mailbox with no open message. -/
theorem mailboxPacksWords : Obligations.MailboxPacksWords := by
  unfold Obligations.MailboxPacksWords
  intro s m src world enc _ hopn hroom put
  have h0 : s.Takes m [] src world enc := ⟨by simp [hopn], hroom⟩
  refine ⟨fun a b c d ha hb hc hd => ?four, fun a n h1 h4 => ?one, fun a b n ha h1 h4 => ?two⟩
  case four =>
    obtain ⟨h1, e1⟩ := h0.put a (by simp)
    obtain ⟨h2, e2⟩ := h1.put b (by simp)
    obtain ⟨h3, e3⟩ := h2.put c (by simp)
    have hdata : packWords [a, b, c, d] % 2 ^ 128 = a + 2 ^ 32 * b + 2 ^ 64 * c + 2 ^ 96 * d := by
      simp only [packWords, List.foldr_cons, List.foldr_nil]
      omega
    rw [h3.close d (by simp), e3, e2, e1]
    exact congrArg (fun v => (s.mb m).ents ++ [⟨v, 16, false, false, world, enc⟩]) hdata
  case one =>
    obtain ⟨t, ht, he, ho⟩ := h0.last a n
    exact ⟨t, ht, by simpa [packWords] using he, ho⟩
  case two =>
    obtain ⟨h1, e1⟩ := h0.put a (by simp)
    obtain ⟨t, ht, he, ho⟩ := h1.last b n
    refine ⟨t, ht, ho, ?_⟩
    rw [he, e1]
    simp [packWords, Nat.mul_add]

/-! ### The rows of the sources, messages, deliveries and mailboxes -/

/-- Settles O56: each row is one of the islands' (`State.ifRuns`), and they run. -/
theorem interruptAndMailboxCommandsComplete : Obligations.InterruptAndMailboxCommandsComplete := by
  unfold Obligations.InterruptAndMailboxCommandsComplete
  intro s h
  have runs := State.ifRuns_run h
  refine ⟨fun n level => ?level, fun n => ?edge, fun n v d => ?srcDone, fun n v d => ?srcWrite, fun m => ?msi,
    fun v d => ?mttInvalidate, ?posted, fun c vec world => ?arrive, fun c => ?take, fun m v d => ?mbxIn,
    fun m v d => ?mbxEnd, fun m v d => ?doorbellSet, fun m lg half d => ?mbxOut, fun m v d => ?doorbellClear,
    fun m => ?ptrMismatch, fun m => ?ageDrop⟩
  all_goals apply runs

end Sys2Proof.Machine
end

section
/-!
PROOFS of the statements on faults (18_faults_and_availability.md): the pop of the error FIFO (R513), and that every event of the
supplies, of cooling, the counters and ERR has its effect.
-/
namespace Sys2Proof.Machine

/-! ### The error FIFO (R513) -/

/-- The registers besides COUNT that show the FIFO, with what they show (R516). -/
def State.fifoFields (s : State) : List (Fld × Nat) :=
  let q := s.err.fifo
  let has (v : Sev) : Nat := (q.any (fun r => r.sev == v)).toNat
  let ws := match q with
    | r :: _ => r.words
    | [] => s.err.last
  [(ERR_FIFO_STS.EMPTY, q.isEmpty.toNat), (ERR_FIFO_STS.PEND_FATAL, has .fatal),
    (ERR_FIFO_STS.PEND_ERR, has .error), (ERR_FIFO_STS.PEND_CORR, has .corr)] ++
    (List.range 8).map (fun i => (ERR_FIFO_OUT.WORD i, ws.getD i 0))

/-- The state with the FIFO's registers as it shows them. -/
def State.fifoShown (s : State) : State := (s.wr ERR_FIFO_STS.COUNT s.err.fifo.length).wrAll s.fifoFields

theorem State.errSync_eq (s : State) : s.errSync = ((s.fifoShown.srcSync 49).srcSync 50).srcSync 51 := rfl

theorem State.rd_fifoShown_COUNT (s : State) :
    s.fifoShown.rd ERR_FIFO_STS.COUNT = s.err.fifo.length % 2 ^ ERR_FIFO_STS.COUNT.w := by
  have hother : ∀ e ∈ s.fifoFields, ERR_FIFO_STS.COUNT.key ≠ e.1.key := by
    simp [State.fifoFields, List.range_succ, ERR_FIFO_STS.COUNT, ERR_FIFO_STS.EMPTY, ERR_FIFO_STS.PEND_FATAL,
      ERR_FIFO_STS.PEND_ERR, ERR_FIFO_STS.PEND_CORR, ERR_FIFO_OUT.WORD]
  rw [State.fifoShown, State.rd_wrAll_other hother, State.rd_wr_same]

@[simp] theorem State.fifoShown_err (s : State) : s.fifoShown.err = s.err := by
  rw [State.fifoShown, State.regsOnly_wrAll]
  rfl

/-- A pop takes the head out where no loss waits for room. -/
theorem State.fifoPop_cons {s : State} {r : ErrRec} {rs : List ErrRec} (h : s.err.fifo = r :: rs)
    (hl : s.err.fifoLoss = none) : s.fifoPop = (s.setErr { s.err with fifo := rs, last := r.words }).errSync := by
  have hflush (t : State) (ht : t.err.fifoLoss = none) : t.fifoFlush = t := by rw [State.fifoFlush, ht]
  rw [State.fifoPop, h]
  exact congrArg State.errSync (hflush _ hl)

theorem State.fifoPop_nil {s : State} (h : s.err.fifo = []) : s.fifoPop = s.raise ERR_STS.fUNDERRUN := by
  rw [State.fifoPop, h]

/-! What a read of the last word does, by its half and size. -/

theorem exec_errFifoPop {s : State} (h : s.stopped = false) (lg half : BitVec 2) :
    exec (.errFifoPop lg half) s = .next { s.errOut lg.toNat half.toNat with pending := s.pending } :=
  State.ifRuns_run h (fun s => s.errOut lg.toNat half.toNat)

theorem State.errOut_low (s : State) : s.errOut 2 0 = s.reply 0 (s.rd (ERR_FIFO_OUT.WORD 7) % 2 ^ 32) := by
  simp [State.errOut]

theorem State.errOut_pops (s : State) {lg half : BitVec 2} (h : (lg = 3 ∧ half = 0) ∨ (lg = 2 ∧ half = 1)) :
    s.errOut lg.toNat half.toNat = s.fifoPop.reply 0 (if lg = 3 then s.rd (ERR_FIFO_OUT.WORD 7)
      else s.rd (ERR_FIFO_OUT.WORD 7) / 2 ^ 32 % 2 ^ 32) := by
  rcases h with ⟨rfl, rfl⟩ | ⟨rfl, rfl⟩
  · simp [State.errOut]
  · simp [State.errOut]

/-- Settles O33, by the read's half and size and whether the FIFO holds a record. -/
theorem errorFifoPops : Obligations.ErrorFifoPops := by
  unfold Obligations.ErrorFifoPops
  intro s h
  refine ⟨?low, fun lg half hread => ?high⟩
  case low =>
    rw [exec_errFifoPop h]
    exact congrArg (fun t : State => Host.Outcome.next { t with pending := s.pending }) s.errOut_low
  case high =>
    intro v
    have hpop : ∀ w : State, s.fifoPop = w →
        exec (.errFifoPop lg half) s = .next { w with ans := (0, v), pending := s.pending } := by
      intro w hw
      rw [exec_errFifoPop h, s.errOut_pops hread, hw]
      rfl
    refine ⟨fun r rs hcons hl => ?pops, fun hnil => hpop _ (State.fifoPop_nil hnil)⟩
    case pops =>
      refine ⟨State.fifoShown _, hpop _ ((State.fifoPop_cons hcons hl).trans (State.errSync_eq _)), ?_, ?_, ?_⟩
      · rw [State.fifoShown_err]; rfl
      · rw [State.fifoShown_err]; rfl
      · rw [State.rd_fifoShown_COUNT]; rfl

/-- While the islands run, a row leads to whatever its effect is. -/
theorem State.ifRuns_eq {s t : State} {k : State → State} (h : s.stopped = false) (hk : k s = t) :
    s.ifRuns k = .next { t with pending := s.pending } := hk ▸ State.ifRuns_run h k

/-! ### The rows of the supplies, of cooling, counters and metering, and of ERR -/

/-- Settles O57: a row of AON has its effect in every state (`State.done`), one of the islands while they run. The clauses
stand in the order of the statement. -/
theorem powerAndErrorEventsComplete : Obligations.PowerAndErrorEventsComplete := by
  unfold Obligations.PowerAndErrorEventsComplete
  intro s
  refine ⟨?aonGood, ?aonLoss, ?boot, fun d h => ?handoff, fun ring => ?mainsLoss, ?mainsReturn, ?pwrfailRise, ?reserve,
    fun flow tin tout => ?cdu, ?cduStale, fun k tj => ?hot, fun k => ?fatal, ?forecast, fun mw => ?rails, fun r => ?trip,
    fun r ma => ?sample, fun x h => ?wrap, fun u h => ?interval, fun v d h => ?splCi, fun g d h => ?splOpen,
    fun g d h => ?splClose, fun g d h => ?splQuery, ?errTake, fun id => ?coalesce, fun lg half h => ?fifoPop,
    fun v h => ?errCi, ?refill, fun h => ?internal, fun h => ?tree⟩
  case errCi => exact State.ifRuns_eq h (k := fun s => s.errCi v.toNat) rfl
  case handoff | wrap | interval | splCi | splOpen | splClose | splQuery | fifoPop | internal | tree =>
    apply State.ifRuns_run h
  all_goals exact s.done_eq _

end Sys2Proof.Machine
end

section
/-!
PROOFS of the statements on the relay ring (19_relay_ring.md): what a node does with a frame (R523), that DISCOVER numbers a ring
(R524), what becomes of an ordered set (R520, R531), and that TIME carries the delay (R533, R534).
-/
namespace Sys2Proof.Machine

/-! ### A frame that a port passes on (R523) -/

/-- The package after something has left on RLY_OUT. -/
def State.rlySent (s : State) (x : RingOut) : State := { s with rly := { s.rly with out := s.rly.out ++ [x] } }

/-- The frame as the next node sees it. -/
def Frame.hop (f : Frame) : Frame := { f with hops := f.hops + 1 }

theorem Frame.hops_hop {f : Frame} (h : f.hops.toNat < 255) : f.hop.hops.toNat = f.hops.toNat + 1 := by
  have hadd : f.hop.hops.toNat = (f.hops.toNat + 1) % 256 := BitVec.toNat_add f.hops 1
  omega

/-- A frame with a good CRC leaves with one hop more, or is removed. -/
theorem State.framePass_of_crc (s : State) {f : Frame} (hc : f.badCrc = false) :
    s.framePass f = if 72 ≤ f.hop.hops.toNat then s.rlyRaise RLY_STS.fHOPDROP else s.rlyOut (.frame f.hop) := by
  have hif : (if f.badCrc = true then s.rlyRaise RLY_STS.fCRC else s) = s := if_neg (by simp [hc])
  simp only [State.framePass, hif]
  rfl

theorem State.framePass_sends {s : State} {f : Frame} (hs : s.rd RLY_POS.STATE = 2) (hc : f.badCrc = false)
    (hh : f.hops.toNat < 71) : s.framePass f = s.rlySent (.frame f.hop) := by
  have hhop : f.hop.hops.toNat = f.hops.toNat + 1 := Frame.hops_hop (by omega)
  rw [s.framePass_of_crc hc, if_neg (by omega)]
  exact if_pos hs

theorem State.framePass_drops (s : State) {f : Frame} (hc : f.badCrc = false) (hh : 71 ≤ f.hops.toNat)
    (hh' : f.hops.toNat < 255) : s.framePass f = s.rlyRaise RLY_STS.fHOPDROP := by
  have hhop : f.hop.hops.toNat = f.hops.toNat + 1 := Frame.hops_hop hh'
  rw [s.framePass_of_crc hc, if_pos (by omega)]

/-! ### A frame at a node (R523) -/

section
variable {s : State} {f : Frame} (hs : s.rd RLY_POS.STATE = 2) (hc : f.badCrc = false)
include hs hc

theorem State.frameIn_of_other_epoch (he : f.epoch.toNat ≠ s.rd RLY_POS.EPOCH) (k : State → State) :
    s.frameIn f k = (s.rlyRaise RLY_STS.fEPOCHDROP).framePass f := by
  simp [State.frameIn, hs, hc, he]

theorem State.frameIn_of_epoch (he : f.epoch.toNat = s.rd RLY_POS.EPOCH) (k : State → State) :
    s.frameIn f k = if s.frameOwn f then s else if s.frameMine f = false then s.framePass f
      else k (if f.dst = 0xFF then s.framePass f else s) := by
  simp only [State.frameIn, hs, hc, he, ne_eq, not_true_eq_false, if_false, Bool.false_eq_true]

end

/-- A broadcast frame is for every node. -/
theorem State.frameMine_broadcast (s : State) {f : Frame} (h : f.dst = 0xFF) : s.frameMine f = true := by
  simp [State.frameMine, h]

/-- Settles O39: the branches of a node in the order in which it asks. -/
theorem framesAtANode : Obligations.FramesAtANode := by
  unfold Obligations.FramesAtANode
  intro s f k hs hc
  refine ⟨fun he => State.frameIn_of_other_epoch hs hc he k, fun he => ?_, State.framePass_sends hs hc,
    s.framePass_drops hc⟩
  rw [State.frameIn_of_epoch hs hc he k]
  refine ⟨fun hown => ?own, fun hown hdst => ?broadcast, fun hown hdst hmine => ?mine, fun hmine hown => ?other⟩
  case own => rw [if_pos hown]
  case broadcast => simp [hown, hdst, s.frameMine_broadcast hdst]
  case mine => rw [if_neg (by simp [hown]), if_neg (by simp [hmine]), if_neg hdst]
  case other => rw [if_neg (by simp [hown]), if_pos hmine]

/-! ### Discovery (R524) -/

/-- A payload's number, read byte by byte. -/
theorem payNat_byte {l : List (BitVec 8)} {i : Nat} {b : BitVec 8} (h : l[i]? = some b) :
    payNat l / 2 ^ (8 * i) % 256 = b.toNat := by
  induction l generalizing i with
  | nil => simp at h
  | cons a l ih =>
    have hcons : payNat (a :: l) = a.toNat + 256 * payNat l := rfl
    have ha : a.toNat < 256 := a.isLt
    cases i with
    | zero =>
      obtain rfl : a = b := by simpa using h
      rw [hcons]
      omega
    | succ i =>
      have hdiv : payNat (a :: l) / 2 ^ 8 = payNat l := by rw [hcons]; omega
      rw [show 8 * (i + 1) = 8 + 8 * i by omega, Nat.pow_add, ← Nat.div_div_eq_div_mul, hdiv]
      exact ih (by simpa using h)

/-- The package as it takes a DISCOVER with COUNT k without authentication. -/
def State.discovered (s : State) (f : Frame) (k : Nat) : State :=
  let s : State := { s with rly := { s.rly with hist := Tbl.set [] 0 f.seq.toNat } }
  (((s.wr RLY_POS.COUNT k).wr RLY_LINKDLY.SET 0).wr RLY_POS.POS (k + 1)).wr RLY_POS.EPOCH f.epoch.toNat

/-- A DISCOVER with COUNT k + 1. -/
def Frame.counted (f : Frame) (k : Nat) : Frame := { f with payload := f.payload.set 4 (BitVec.ofNat 8 (k + 1)) }

theorem Frame.hops_counted (f : Frame) (k : Nat) : (f.counted k).hops = f.hops := rfl

theorem State.rd_discovered_other (s : State) (f : Frame) (k : Nat) {g : Fld} (h : g.key ∉ [RLY_POS.COUNT.key,
    RLY_LINKDLY.SET.key, RLY_POS.POS.key, RLY_POS.EPOCH.key]) : (s.discovered f k).rd g = s.rd g := by
  simp only [List.mem_cons, List.not_mem_nil, or_false, not_or] at h
  obtain ⟨hcount, hset, hpos, hepoch⟩ := h
  simp only [State.discovered]
  rw [State.rd_wr_other _ _ hepoch, State.rd_wr_other _ _ hpos, State.rd_wr_other _ _ hset,
    State.rd_wr_other _ _ hcount]
  rfl

/-- What a package that has taken a DISCOVER knows. -/
def State.knowsPlace (t : State) (epoch k : Nat) : Prop :=
  t.rd RLY_POS.POS = k + 1 ∧ t.rd RLY_POS.COUNT = k ∧ t.rd RLY_POS.EPOCH = epoch ∧ t.rd RLY_LINKDLY.SET = 0

theorem State.discovered_knowsPlace (s : State) (f : Frame) {k : Nat} (hk : k < 64) :
    (s.discovered f k).knowsPlace f.epoch.toNat k := by
  simp only [State.discovered, State.knowsPlace]
  refine ⟨?pos, ?count, ?epoch, ?set⟩
  case pos =>
    rw [State.rd_wr_other _ _ (by decide), State.rd_wr_of_lt]
    exact (show k + 1 < 2 ^ 8 by omega)
  case count =>
    rw [State.rd_wr_other _ _ (by decide), State.rd_wr_other _ _ (by decide), State.rd_wr_other _ _ (by decide),
      State.rd_wr_of_lt]
    exact (show k < 2 ^ 8 by omega)
  case epoch =>
    exact State.rd_wr_of_lt _ f.epoch.isLt
  case set =>
    rw [State.rd_wr_other _ _ (by decide), State.rd_wr_other _ _ (by decide), State.rd_wr_same]
    rfl

/-- A DISCOVER of the RMC that has come by k packages. -/
structure Frame.DiscoverAt (f : Frame) (k : Nat) : Prop where
  crc : f.badCrc = false
  src : f.src = 0
  dst : f.dst = 0xFF
  hops : f.hops.toNat = k
  len : 5 ≤ f.payload.length
  count : f.payload[4]? = some (BitVec.ofNat 8 k)

theorem Frame.DiscoverAt.next {f : Frame} {k : Nat} (h : f.DiscoverAt k) (hk : k < 64) :
    (f.counted k).hop.DiscoverAt (k + 1) where
  crc := h.crc
  src := h.src
  dst := h.dst
  hops := by rw [Frame.hops_hop (by rw [f.hops_counted, h.hops]; omega), f.hops_counted, h.hops]
  len := by simpa [Frame.counted, Frame.hop] using h.len
  count := List.getElem?_set_self h.len

/-- An ACTIVE port without authentication takes the frame and sends it on. -/
theorem State.discover_takes {s : State} {f : Frame} {k : Nat} (hs : s.rd RLY_POS.STATE = 2)
    (ha : s.rd RLY_CTL.AUTH = 0) (h : f.DiscoverAt k) (hk : k < 64) :
    s.discover f = (s.discovered f k).rlySent (.frame (f.counted k).hop) := by
  have hcount : payNat f.payload / 2 ^ 32 % 256 = k := by
    rw [payNat_byte (i := 4) h.count, BitVec.toNat_ofNat]
    exact Nat.mod_eq_of_lt (by omega)
  have hauth : s.on RLY_CTL.AUTH = false := State.on_eq_false ha
  have htake : s.discTake f k (payNat f.payload % 2 ^ 32) = (s.discovered f k, f.counted k) := by
    simp only [State.discTake, hauth, hk, if_true, if_false, Bool.false_eq_true, false_and]
    rfl
  have hgo : ¬ (f.badCrc = true ∨ f.src ≠ 0 ∨ f.dst ≠ 0xFF ∨ f.payload.length < 5) := by
    simp [h.crc, h.src, h.dst, h.len]
  have hlive : (s.discovered f k).rd RLY_POS.STATE = 2 := (s.rd_discovered_other f k (by decide)).trans hs
  calc s.discover f
      = (s.discTake f k (payNat f.payload % 2 ^ 32)).1.framePass (s.discTake f k (payNat f.payload % 2 ^ 32)).2 := by
        simp only [State.discover, hs, hauth, hcount, ne_eq, not_true_eq_false, if_false, Bool.false_eq_true, false_and]
        exact if_neg hgo
    _ = (s.discovered f k).framePass (f.counted k) := by rw [htake]
    _ = (s.discovered f k).rlySent (.frame (f.counted k).hop) :=
        State.framePass_sends hlive h.crc (by rw [f.hops_counted, h.hops]; omega)

/-- The frame that a package has put behind what it had sent. -/
theorem State.sentOn_rlySent {s t : State} (h : t.rly.out = s.rly.out) (g : Frame) :
    s.sentOn (t.rlySent (.frame g)) = some g := by
  simp [State.sentOn, State.rlySent, h]

/-- The rest of a ring, after k packages. -/
theorem discoverRing_numbers {ring : List State} (hring : ∀ s ∈ ring, s.rd RLY_POS.STATE = 2 ∧ s.rd RLY_CTL.AUTH = 0)
    {f : Frame} {k : Nat} (h : f.DiscoverAt k) (hk : k + ring.length ≤ 64) :
    (discoverRing ring f).1.length = ring.length ∧
    (∀ (i : Nat) (t : State), (discoverRing ring f).1[i]? = some t → t.knowsPlace f.epoch.toNat (k + i)) ∧
    ∃ g, (discoverRing ring f).2 = some g ∧ g.DiscoverAt (k + ring.length) ∧ g.epoch = f.epoch := by
  induction ring generalizing f k with
  | nil =>
    exact ⟨rfl, fun i t ht => by simp [discoverRing] at ht, f, rfl, h, rfl⟩
  | cons s ring ih =>
    obtain ⟨⟨hs, ha⟩, hrest⟩ := List.forall_mem_cons.1 hring
    rw [List.length_cons] at hk
    have hlt : k < 64 := by omega
    have hsent : s.sentOn (s.discover f) = some (f.counted k).hop := by
      rw [State.discover_takes hs ha h hlt]
      exact State.sentOn_rlySent rfl _
    have hcons : discoverRing (s :: ring) f =
        (s.discover f :: (discoverRing ring (f.counted k).hop).1, (discoverRing ring (f.counted k).hop).2) := by
      simp only [discoverRing, hsent]
    obtain ⟨hlen, hplace, g, hg, hgat, hgep⟩ := ih hrest (h.next hlt) (by omega)
    rw [hcons]
    refine ⟨congrArg (· + 1) hlen, fun i t ht => ?_, g, hg, ?_, hgep⟩
    · cases i with
      | zero =>
        obtain rfl : s.discover f = t := by simpa using ht
        rw [State.discover_takes hs ha h hlt]
        exact s.discovered_knowsPlace f hlt
      | succ i =>
        have hi := hplace i t (by simpa using ht)
        rwa [Nat.add_right_comm, Nat.add_assoc] at hi
    · rwa [Nat.add_right_comm, Nat.add_assoc] at hgat

/-- Settles O38: the frame starts as a DISCOVER at package 0. -/
theorem discoveryNumbersTheRing : Obligations.DiscoveryNumbersTheRing := by
  unfold Obligations.DiscoveryNumbersTheRing
  intro ring f hlen hring hcrc hsrc hdst hhops hpay hcount r
  have h0 : f.DiscoverAt 0 := ⟨hcrc, hsrc, hdst, by rw [hhops]; rfl, hpay, hcount⟩
  obtain ⟨hl, hplace, g, hg, hgat, hep⟩ := discoverRing_numbers hring h0 (by omega)
  simp only [Nat.zero_add] at hplace hgat
  exact ⟨hl, hplace, g, hg, hgat.count, hgat.hops, hep⟩

/-! ### Ordered sets at a port (R520, R531) -/

section
variable {s : State} (hs : s.rd RLY_POS.STATE = 2) (freeze : Bool) {a b : BitVec 8} {viol : Bool} (k : State → State)
include hs

theorem State.setIn_lost (h : viol = true ∨ a ≠ b) : s.setIn freeze a b viol k = s.rlyRaise RLY_STS.fSYMERR := by
  simp only [State.setIn, hs, ne_eq, not_true_eq_false, if_false]
  exact if_pos h

theorem State.setIn_own (hv : viol = false) (hab : a = b) (ho : s.setOwn freeze a.toNat = true) :
    s.setIn freeze a b viol k = s.setBack freeze := by
  simp [State.setIn, hs, hv, hab, hab ▸ ho]

theorem State.setIn_forwards (hv : viol = false) (hab : a = b) (ho : s.setOwn freeze a.toNat = false) :
    s.setIn freeze a b viol k = k (s.rlySent (.set freeze a.toNat)) := by
  have hout : s.rlyOut (.set freeze b.toNat) = s.rlySent (.set freeze b.toNat) := if_pos hs
  simp [State.setIn, hs, hv, hab, hab ▸ ho, hout]

end

/-- What ends with a set that has returned: only sets of the other kind are still repeated. -/
theorem State.setBack_reps (s : State) (freeze : Bool) : ∀ e ∈ (s.setBack freeze).rly.reps, e.1 = !freeze := by
  intro e he
  exact Bool.eq_not_iff.2 (by simpa using (List.mem_filter.1 he).2)

/-- Settles O41, by what becomes of the set: lost, removed or forwarded. -/
theorem orderedSetsAreForwarded : Obligations.OrderedSetsAreForwarded := by
  unfold Obligations.OrderedSetsAreForwarded
  intro s a b viol hs sent
  have freeze : exec (.ringFreeze a b viol) s = .next { s.setIn true a b viol (fun s =>
      if s.on RLY_CTL.FRZ_IN then (s.photo 1).rlySync
      else if s.pkgMode = 5 then s.rlyRaise RLY_STS.fFRZDUP else s) with pending := s.pending } := s.done_eq _
  have mains : exec (.ringMainsLost a b viol) s =
      .next { s.setIn false a b viol (fun s => s.mainsLoss true) with pending := s.pending } := s.done_eq _
  rw [freeze, mains]
  have hon (x : RingOut) : (s.rlySent x).on RLY_CTL.FRZ_IN = s.on RLY_CTL.FRZ_IN := rfl
  have hmode (x : RingOut) : (s.rlySent x).pkgMode = s.pkgMode := rfl
  refine ⟨fun h => ?lost, fun hv hab => ⟨fun ho => ?freezeOwn, fun ho => ?freezeOther, fun ho => ?mainsOwn,
    fun ho => ?mainsOther⟩⟩
  case lost => rw [State.setIn_lost hs _ _ h, State.setIn_lost hs _ _ h]; exact ⟨rfl, rfl⟩
  case freezeOwn =>
    rw [State.setIn_own hs _ _ hv hab ho]
    exact ⟨_, rfl, rfl, rfl, s.setBack_reps true⟩
  case freezeOther =>
    rw [State.setIn_forwards hs _ _ hv hab ho, hon, hmode]
    refine ⟨fun h => ?_, fun h hp => ?_, fun h hp => ?_⟩
    · rw [if_pos (by simpa [State.on] using h)]; rfl
    · rw [if_neg (by simp [State.on, h]), if_neg hp]; rfl
    · rw [if_neg (by simp [State.on, h]), if_pos hp]; rfl
  case mainsOwn =>
    rw [State.setIn_own hs _ _ hv hab ho]
    exact ⟨_, rfl, rfl, rfl, s.setBack_reps false⟩
  case mainsOther => rw [State.setIn_forwards hs _ _ hv hab ho]; rfl

/-! ### The bytes of a number -/

theorem payNat_append (l m : List (BitVec 8)) : payNat (l ++ m) = payNat l + 256 ^ l.length * payNat m := by
  induction l with
  | nil => simp [payNat]
  | cons b l ih =>
    have hcons (l : List (BitVec 8)) : payNat (b :: l) = b.toNat + 256 * payNat l := rfl
    rw [List.cons_append, hcons, hcons, ih, List.length_cons, Nat.pow_succ]
    ring

@[simp] theorem length_bytesOf (v n : Nat) : (bytesOf v n).length = n := by simp [bytesOf]

/-- A number's lowest n bytes, read again. -/
theorem payNat_bytesOf (v n : Nat) : payNat (bytesOf v n) = v % 256 ^ n := by
  induction n with
  | zero => exact (Nat.mod_one v).symm
  | succ n ih =>
    have hlast : bytesOf v (n + 1) = bytesOf v n ++ [BitVec.ofNat 8 (v >>> (8 * n))] := by
      simp [bytesOf, List.range_succ]
    have hbyte : payNat [BitVec.ofNat 8 (v >>> (8 * n))] = v / 256 ^ n % 256 := by
      simp [payNat, Nat.shiftRight_eq_div_pow, Nat.pow_mul]
    rw [hlast, payNat_append, ih, length_bytesOf, hbyte, Nat.mod_pow_succ]

/-! ### Time (R533, R534) -/

/-- The payload of a TIME frame. -/
def timePay (time corr loop : Nat) : List (BitVec 8) := bytesOf time 8 ++ bytesOf corr 4 ++ bytesOf loop 4

theorem payNat_timePay {time corr loop : Nat} (ht : time < 2 ^ 64) (hc : corr < 2 ^ 32) (hl : loop < 2 ^ 32) :
    payNat (timePay time corr loop) = time + 2 ^ 64 * corr + 2 ^ 96 * loop := by
  have h8 : payNat (bytesOf time 8) = time := (payNat_bytesOf time 8).trans (Nat.mod_eq_of_lt ht)
  have h4 : payNat (bytesOf corr 4) = corr := (payNat_bytesOf corr 4).trans (Nat.mod_eq_of_lt hc)
  have h4' : payNat (bytesOf loop 4) = loop := (payNat_bytesOf loop 4).trans (Nat.mod_eq_of_lt hl)
  rw [timePay, payNat_append, payNat_append, h8, h4, h4', List.length_append, length_bytesOf, length_bytesOf]
  norm_num

theorem take_timePay (time corr loop : Nat) : (timePay time corr loop).take 8 = bytesOf time 8 := by
  rw [timePay, List.append_assoc]
  exact List.take_left' (length_bytesOf time 8)

theorem drop_timePay (time corr loop : Nat) : (timePay time corr loop).drop 12 = bytesOf loop 4 :=
  List.drop_left' (by simp)

/-- The offset of a TIME frame: ring time less the package's own. -/
def State.timeOff (s : State) (time corr : Nat) : Int :=
  (time + (corr + s.rd RLY_LINKDLY.DLY) / 64 : Nat) - (s.now.toNat : Int)

/-- The frame's SEQ and offset are noted, and the state of time sync with them. -/
def State.timeNoted (s : State) (f : Frame) (off : Int) (loop : Nat) : State :=
  (((s.seqTake f).wr RLY_TSYNC.OFFSET (satSigned 32 off)).wr RLY_TSYNC.LOOP_ERR (satSigned 16 (signed32 loop))).timeLock off

/-- The frame as it goes on: CORR has grown by LINKDLY and the latency. -/
def Frame.delayed (f : Frame) (time corr loop : Nat) : Frame := { f with payload := timePay time corr loop }

/-- A package takes a good frame of the RMC whose SEQ is new, and passes it on. -/
theorem State.timeFrame_takes {s : State} {f : Frame} {lat time corr loop : Nat} (hs : s.rd RLY_POS.STATE = 2)
    (hc : f.badCrc = false) (hsrc : f.src = 0) (hdst : f.dst = 0xFF) (he : f.epoch.toNat = s.rd RLY_POS.EPOCH)
    (hnew : s.seqNew f = true) (hp : f.payload = timePay time corr loop) (htime : time < 2 ^ 64) (hcorr : corr < 2 ^ 32)
    (hloop : loop < 2 ^ 32) :
    s.timeFrame f lat = ((s.timeNoted f (s.timeOff time corr) loop).timeAdjust (s.timeOff time corr)).framePass
      (f.delayed time ((corr + s.rd RLY_LINKDLY.DLY + lat) % 2 ^ 32) loop) := by
  have hval : payNat f.payload = time + 2 ^ 64 * corr + 2 ^ 96 * loop := by rw [hp, payNat_timePay htime hcorr hloop]
  have h0 : payNat f.payload % 2 ^ 64 = time := by omega
  have h1 : payNat f.payload / 2 ^ 64 % 2 ^ 32 = corr := by omega
  have h2 : payNat f.payload / 2 ^ 96 % 2 ^ 32 = loop := by omega
  have hlen : ¬ f.payload.length < 16 := by simp [hp, timePay]
  have hgo : ¬ (f.badCrc = true ∨ f.payload.length < 16 ∨ f.src ≠ 0 ∨ f.dst ≠ 0xFF) := by
    simp [hc, hlen, hsrc, hdst]
  unfold State.timeFrame
  rw [if_neg (not_not_intro hs), if_neg hgo, if_neg (not_not_intro he), if_neg (by simp [hnew])]
  simp only [h0, h1, h2]
  rw [hp, take_timePay, drop_timePay]
  rfl

theorem satSigned_lt (w : Nat) (x : Int) : satSigned w x < 2 ^ w := by
  have hpos : (0 : Int) < 2 ^ w := by positivity
  have hlt := Int.emod_lt_of_pos (max (-(2 ^ (w - 1) - 1 : Int) - 1) (min (2 ^ (w - 1) - 1) x)) hpos
  have hnn := Int.emod_nonneg (max (-(2 ^ (w - 1) - 1 : Int) - 1) (min (2 ^ (w - 1) - 1) x)) hpos.ne'
  simp only [satSigned]
  zify
  omega

/-- What a package that has noted an offset holds, and what it has kept. -/
structure State.TimeKept (s u : State) (f : Frame) (off : Int) : Prop where
  offset : u.rd RLY_TSYNC.OFFSET = satSigned 32 off
  now : u.now = s.now
  out : u.rly.out = s.rly.out
  hist : Tbl.get? u.rly.hist f.src.toNat = some f.seq.toNat
  live : u.rd RLY_POS.STATE = s.rd RLY_POS.STATE

theorem State.rd_timeNoted_other (s : State) (f : Frame) (off : Int) (loop : Nat) {g : Fld}
    (h : g.addr ≠ RLY_TSYNC.STATE.addr) : (s.timeNoted f off loop).rd g = s.rd g := by
  refine (State.rd_wr_otherAddr _ _ h).trans ?_
  refine (State.rd_wr_otherAddr (f := RLY_TSYNC.LOOP_ERR) _ _ h).trans ?_
  exact State.rd_wr_otherAddr (f := RLY_TSYNC.OFFSET) _ _ h

theorem State.timeNoted_timeKept (s : State) (f : Frame) (off : Int) (loop : Nat) :
    s.TimeKept (s.timeNoted f off loop) f off where
  offset := by
    refine (State.rd_wr_other _ _ (by decide)).trans ?_
    refine (State.rd_wr_other (f := RLY_TSYNC.LOOP_ERR) _ _ (by decide)).trans ?_
    exact State.rd_wr_of_lt _ (satSigned_lt 32 off)
  now := rfl
  out := rfl
  hist := Tbl.get?_set_same _ _ _
  live := s.rd_timeNoted_other f off loop (by decide)

/-- The package with a correction still to be slewed. -/
def State.slewing (s : State) (x : Int) : State := { s with rly := { s.rly with slew := x } }

/-! What the adjustment does, by TSYNC and by how far the package is behind (R534). -/

theorem State.timeAdjust_off {s : State} (h : s.on RLY_CTL.TSYNC = false) (off : Int) : s.timeAdjust off = s := if_pos h

theorem State.timeAdjust_slews {s : State} (h : s.on RLY_CTL.TSYNC = true) {off : Int} (ho : off ≤ 10000) :
    s.timeAdjust off = s.slewing (15000 * off) := by
  unfold State.timeAdjust
  rw [if_neg (by simp [h]), if_neg (by omega)]
  rfl

theorem State.timeAdjust_steps {s : State} (h : s.on RLY_CTL.TSYNC = true) {off : Int} (ho : 10000 < off) :
    s.timeAdjust off = ((s.tbSet (s.now.toNat + off.toNat)).rlyRaise RLY_STS.fTSTEP).slewing 0 := by
  unfold State.timeAdjust
  rw [if_neg (by simp [h]), if_pos ho]
  rfl

/-- Settles O40, by TSYNC and by whether the package is behind by more than 10 us. -/
theorem timeFramesCarryTheDelay : Obligations.TimeFramesCarryTheDelay := by
  unfold Obligations.TimeFramesCarryTheDelay
  intro s f lat time corr loop hs hc hsrc hdst he hnew hh hp off g
  obtain ⟨v, hv⟩ : ∃ v, v = s.timeNoted f off loop.toNat := ⟨_, rfl⟩
  have hkept : s.TimeKept v f off := hv ▸ s.timeNoted_timeKept f off loop.toNat
  have hon : v.on RLY_CTL.TSYNC = s.on RLY_CTL.TSYNC := by
    rw [hv, State.on, s.rd_timeNoted_other f off loop.toNat (by decide), State.on]
  have hexec : exec (.time f lat) s = .next { (v.timeAdjust off).framePass g with pending := s.pending } := by
    rw [hv]
    exact congrArg (fun t : State => Host.Outcome.next { t with pending := s.pending })
      (State.timeFrame_takes hs hc hsrc hdst he hnew hp time.isLt corr.isLt loop.isLt)
  have hpend : v.pending = s.pending := by rw [hv]; rfl
  have hsend : ∀ u : State, s.TimeKept u f off → u.pending = s.pending → v.timeAdjust off = u → exec (.time f lat) s =
      .next { u with rly := { u.rly with out := s.rly.out ++ [.frame { g with hops := f.hops + 1 }] } } := by
    intro u hu hup hadj
    rw [hexec, hadj, State.framePass_sends (f := g) (hu.live.trans hs) hc hh, ← hu.out, ← hup]
    rfl
  by_cases hT : s.rd RLY_CTL.TSYNC = 0
  · have hoff : v.timeAdjust off = v := State.timeAdjust_off (hon.trans (State.on_eq_false hT)) off
    exact ⟨v, hkept.offset, hkept.now, hkept.out, hkept.hist, hkept.live.trans hs,
      fun _ => hsend v hkept hpend hoff, fun h => absurd hT h, fun h => absurd hT h⟩
  have hT' : v.on RLY_CTL.TSYNC = true := hon.trans (by simpa [State.on] using hT)
  by_cases ho : off ≤ 10000
  · have hkept' : s.TimeKept (v.slewing (15000 * off)) f off :=
      ⟨hkept.offset, hkept.now, hkept.out, hkept.hist, hkept.live⟩
    exact ⟨v.slewing (15000 * off), hkept'.offset, hkept'.now, hkept'.out, hkept'.hist, hkept'.live.trans hs,
      fun _ => hsend _ hkept' hpend (State.timeAdjust_slews hT' ho), fun _ _ => rfl, fun _ h => absurd h (by omega)⟩
  · refine ⟨v, hkept.offset, hkept.now, hkept.out, hkept.hist, hkept.live.trans hs, fun h => absurd h (by simp [hT, ho]),
      fun _ h => absurd h ho, fun _ h => ?_⟩
    rw [hexec, State.timeAdjust_steps hT' h, hkept.now]
    rfl

/-! ### The rows of the relay port -/

/-- Settles O58: each row has its effect in every state (`State.done`). The clauses stand in the order of the statement: the
port, ordered sets, discovery, time, other frames, then the commands of a ring. -/
theorem relayCommandsComplete : Obligations.RelayCommandsComplete := by
  unfold Obligations.RelayCommandsComplete
  intro s
  refine ⟨?bypassTimeout, fun ok => ?testDone, ?portFault, fun a b viol => ?freeze, fun a b viol => ?mainsLost,
    fun freeze => ?setRepeat, fun f => ?discover, fun f => ?announce, fun f lat => ?time, ?holdover, fun f => ?framePass,
    fun n => ?lineBreak, fun f => ?ident, fun f => ?status, fun f => ?boot, fun f => ?powerDown, fun f => ?reset,
    fun f => ?setLimit, fun f => ?linkdly, fun f => ?leave, fun f => ?monitor⟩
  all_goals exact s.done_eq _

end Sys2Proof.Machine
end

section
/-!
PROOFS of the statements on the service monitor (20_service_monitor.md): its authority, answers and session (R540 to R543), and a
photo-finish (R546, R547).
-/
namespace Sys2Proof.Machine

/-! ### Lines of the UART (R537, R543) -/

/-- With no line and no answer in its way the monitor has nothing to go on with. -/
theorem State.monNext_idle {s : State} (hl : s.mon.lines = []) (hb : s.mon.mbOut = []) : s.monNext = s := by
  rw [State.monNext, hb]
  show State.monGo s.mon.lines.length s = s
  rw [hl]
  rfl

/-- A ready monitor with a line of the UART that waits. -/
def State.lineHeld (s : State) (c : MonCmd) : State := s.setMon { s.mon with lines := [(.uart, c)] }

theorem State.monNext_lineHeld {s : State} (h : s.monReady) (c : MonCmd) :
    (s.lineHeld c).monNext = (s.monRun .uart c).getD (s.lineHeld c) := by
  obtain ⟨-, hcap, hlines, hout⟩ := h
  have hback : (s.lineHeld c).setMon { (s.lineHeld c).mon with lines := [] } = s := by
    rw [← hlines]; rfl
  have hfree : ¬ ((s.lineHeld c).mon.cap.isSome = true ∨ (s.lineHeld c).mon.mbOut.isEmpty = false) := by
    simp [State.lineHeld, State.setMon, hcap, hout]
  calc (s.lineHeld c).monNext = State.monGo 1 (s.lineHeld c) := by
        rw [State.monNext, show (s.lineHeld c).mon.mbOut = [] from hout]; rfl
    _ = match ((s.lineHeld c).setMon { (s.lineHeld c).mon with lines := [] }).monRun .uart c with
        | some t => State.monGo 0 t
        | none => s.lineHeld c := by rw [State.monGo, if_neg hfree]; rfl
    _ = (s.monRun .uart c).getD (s.lineHeld c) := by
        rw [hback]
        cases s.monRun .uart c <;> rfl

/-- A monitor that is ready runs a line at once; one whose access cannot be made yet waits. -/
theorem State.monLine_ready {s : State} (h : s.monReady) {c : MonCmd} (hr : ∀ k, c ≠ .reset k) :
    s.monLine .uart c = (s.monRun .uart c).getD (s.lineHeld c) := by
  have hnext := State.monNext_lineHeld h c
  obtain ⟨hp, -, hlines, -⟩ := h
  unfold State.monLine
  rw [if_neg hp, hlines]
  cases c
  case reset k => exact absurd rfl (hr k)
  all_goals exact hnext

/-- Each row of the UART is its line. -/
theorem exec_monCmdOf {i : Instr} {c : MonCmd} (h : monCmdOf i = some c) (s : State) :
    exec i s = .next { s.monLine .uart c with pending := s.pending } := by
  cases i
  all_goals simp only [monCmdOf, Option.some.injEq, reduceCtorEq] at h
  all_goals
    subst h
    exact s.done_eq _

/-! ### A line's checks and its answer (R541, R543) -/

/-- A line that fails a check is answered with its status. -/
theorem State.monRun_refused {s : State} {c : MonCmd} (h : s.monCheck .uart c ≠ OK) :
    s.monRun .uart c = some (s.monRefuse .uart c (s.monCheck .uart c)) := if_pos h

/-- A level above the session's is EPERM, whatever else is wrong (R19, R541). -/
theorem State.monCheck_of_level {s : State} {c : MonCmd} (h : s.monLevel < s.monNeed c) : s.monCheck .uart c = EPERM := by
  have hmay : s.monMay .uart c = false := by simp [State.monMay, State.monLevelOk, h]
  simp [State.monCheck, firstBad, hmay]

/-- Settles O42: the check for EPERM comes first, and its answer is all that the line leaves. -/
theorem monitorAuthorityComesFirst : Obligations.MonitorAuthorityComesFirst := by
  unfold Obligations.MonitorAuthorityComesFirst
  intro s i c hi hready hr hlevel
  have hsts : s.monCheck .uart c = EPERM := State.monCheck_of_level hlevel
  have hrun : s.monRun .uart c = some (s.monAnswer .uart c.num EPERM []) := by
    rw [State.monRun_refused (by rw [hsts]; decide), hsts]
    rfl
  rw [exec_monCmdOf hi, State.monLine_ready hready hr, hrun]
  rfl

/-- A line that passes its checks is answered with what its command has come to; a CAP is not yet. -/
theorem State.monRun_done {s u : State} {c : MonCmd} {sts : Nat} {vals : List Nat} (hcap : ∀ l o, c ≠ .cap l o)
    (hok : s.monCheck .uart c = OK) (hdo : s.monDo .uart c = some (u, sts, vals)) :
    s.monRun .uart c = some (u.monAnswer .uart c.num sts vals) := by
  unfold State.monRun
  rw [if_neg (not_not_intro hok), hdo]
  cases c
  case cap l o => exact absurd rfl (hcap l o)
  all_goals rfl

/-- Settles O43: the answer stands behind what has left on the UART. -/
theorem monitorLinesAreAnswered : Obligations.MonitorLinesAreAnswered := by
  unfold Obligations.MonitorLinesAreAnswered
  intro s u i c sts vals hi hready hr hcap hok hdo
  rw [exec_monCmdOf hi, State.monLine_ready hready hr, State.monRun_done hcap hok hdo]
  rfl

/-! ### The session (R540, R542) -/

/-- A good response takes the level, and uses the nonce up. -/
theorem State.authTry_good {s : State} {n level : Nat} (hn : s.mon.nonce = some n) (hl : level ≤ s.rd DBG_MON.UART_MAX) :
    s.authTry level (authResponse n level) = (s.setMon { s.mon with nonce := none, level := some level }, OK, []) :=
  if_pos ⟨hl, by simp [hn]⟩

/-- The times of failed responses in the 60 s before now, with now. -/
def State.failsNow (s : State) : List Nat :=
  s.mon.fails.filter (fun t => decide (s.now.toNat < t + 60000000000)) ++ [s.now.toNat]

/-- A response that fails uses the nonce up and is counted. -/
theorem State.authTry_bad {s : State} {n level resp : Nat} (hn : s.mon.nonce = some n)
    (hbad : resp ≠ authResponse n level ∨ s.rd DBG_MON.UART_MAX < level) :
    s.authTry level resp = (s.setMon { s.mon with
      nonce := none, lockout := decide (3 ≤ s.failsNow.length)
      fails := if 3 ≤ s.failsNow.length then [] else s.failsNow }, EPERM, []) := by
  refine if_neg ?_
  rintro ⟨hl, hresp⟩
  have heq : authResponse n level = resp := by simpa [hn] using hresp
  rcases hbad with h | h
  · exact h heq.symm
  · omega

/-- Two failures within the 60 s and now's are three. -/
theorem State.failsNow_length {s : State} {a b : Nat} (h : s.mon.fails = [a, b]) (ha : s.now.toNat < a + 60000000000)
    (hb : s.now.toNat < b + 60000000000) : s.failsNow.length = 3 := by
  simp [State.failsNow, h, ha, hb]

/-- LOGOUT needs no level and passes every check. -/
theorem State.monCheck_logout (s : State) : s.monCheck .uart .logout = OK := by
  simp [State.monCheck, State.monMay, State.monLevelOk, State.monNeed, State.monTarget, State.monBad, State.monNoDev,
    State.monState, firstBad]

/-- Without a running CAP a break returns the session and the rate. -/
theorem State.uartBreak_ready {s : State} (h : s.monReady) :
    s.uartBreak = s.setMon { s.mon with level := none, baud := 115200 } := by
  obtain ⟨-, hcap, hlines, hout⟩ := h
  have hend : s.capEnd = s := by rw [State.capEnd, hcap]
  rw [State.uartBreak, hend]
  exact State.monNext_idle hlines hout

/-- Settles O44: AUTH with a good and with a failed response, then what returns the session to UART_BASE. -/
theorem monitorSession : Obligations.MonitorSession := by
  unfold Obligations.MonitorSession
  refine ⟨fun s n level hn => ⟨fun hl => ?good, fun resp hbad => ?bad⟩, fun s => s.done_eq _,
    fun s h => ⟨?uartBreak, ?logout⟩⟩
  case good =>
    rw [State.authTry_good hn hl]
    exact ⟨rfl, rfl, rfl⟩
  case bad =>
    rw [State.authTry_bad hn hbad]
    refine ⟨rfl, rfl, rfl, fun a b hfails ha hb => ?_⟩
    exact decide_eq_true (State.failsNow_length hfails ha hb).ge
  case uartBreak =>
    refine (s.done_eq _).trans ?_
    rw [if_neg h.1, State.uartBreak_ready h]
    rfl
  case logout =>
    have hreset (k : Nat) : MonCmd.logout ≠ .reset k := nofun
    have hcap (l : List Nat) (o : Nat) : MonCmd.logout ≠ .cap l o := nofun
    rw [exec_monCmdOf (i := .logout) rfl, State.monLine_ready h hreset, State.monRun_done hcap s.monCheck_logout rfl]
    rfl

/-! ### The photo-finish (R546, R547) -/

/-- The triggers of one SVP cycle with the photo-finish that runs. -/
def State.together (s : State) : Prop :=
  s.pf.any (fun p => !p.stopped) = true ∧ s.rd DBG_PF_TIME.TIME = s.now.toNat

/-- The trigger is recorded with its time. -/
def State.photoRecorded (s : State) (bit : Nat) : State :=
  (s.wr DBG_PF_TIME.TIME s.now.toNat).wr DBG_PF_STS.SRC (2 ^ bit)

/-- The pin tells the board, where the package drives it. -/
def State.pinPulsed (s : State) : State :=
  if s.on DBG_PF_CTL.DRIVE then { s with sys := { s.sys with photoPulses := s.sys.photoPulses + 1 } } else s

/-- The start of a photo-finish: FREEZE goes round the ring unless it came from there, and the channels are to report. -/
def State.photoStart (s : State) (bit : Nat) : State :=
  let s := s.photoRecorded bit
  let s := (if bit ≠ 1 ∧ s.on RLY_CTL.FRZ_OUT then s.setSent true else s).pinPulsed
  { s with pf := some ⟨(List.range 80).filter (fun c => s.chActive c), false⟩ }

/-! What a trigger does: with another, while one runs, where none can start, and where one starts. -/

theorem State.photo_together {s : State} (h : s.together) (bit : Nat) :
    s.photo bit = s.wr DBG_PF_STS.SRC (s.rd DBG_PF_STS.SRC ||| 2 ^ bit) :=
  if_pos (by simp [h.1, h.2])

theorem State.photo_apart {s : State} (h : ¬ s.together) (bit : Nat) :
    s.photo bit = if s.pkgMode = 5 ∨ s.pf.isSome then s.raise (if bit = 1 then RLY_STS.fFRZDUP else DBG_PF_STS.fDUP)
      else if s.pkgMode ≠ 2 ∧ s.pkgMode ≠ 3 ∧ s.pkgMode ≠ 4 ∧ s.pkgMode ≠ 6 then s.raise DBG_PF_STS.fIGN
      else s.photoStart bit := by
  have hcond : ¬ (s.pf.any (fun p => !p.stopped) && s.rd DBG_PF_TIME.TIME == s.now.toNat) = true := by
    simpa [State.together] using h
  unfold State.photo
  rw [if_neg hcond]
  rfl

theorem State.not_together {s : State} (h : s.pf = none) : ¬ s.together := by simp [State.together, h]

theorem State.none_runs {s : State} (h : s.pf = none) (hp : s.pkgMode ≠ 5) : ¬ (s.pkgMode = 5 ∨ s.pf.isSome = true) := by
  simp [h, hp]

theorem State.pinPulsed_frame (s : State) : s.pinPulsed.regs = s.regs ∧ s.pinPulsed.rly = s.rly := by
  unfold State.pinPulsed
  split <;> exact ⟨rfl, rfl⟩

theorem State.photoStart_regs (s : State) (bit : Nat) : (s.photoStart bit).regs = (s.photoRecorded bit).regs := by
  refine (State.pinPulsed_frame _).1.trans ?_
  split
  · exact (State.setSent_frame _ true).2
  · rfl

/-- What the start records, and what it leaves alone. -/
theorem State.photoStart_records (s : State) {bit : Nat} (h : bit < 5) :
    (s.photoStart bit).rd DBG_PF_STS.SRC = 2 ^ bit ∧ (s.photoStart bit).rd DBG_PF_TIME.TIME = s.now.toNat ∧
      (s.photoStart bit).pkgMode = s.pkgMode := by
  have hrd (f : Fld) : (s.photoStart bit).rd f = (s.photoRecorded bit).rd f := by
    rw [State.rd, s.photoStart_regs, State.rd]
  refine ⟨(hrd _).trans (State.rd_wr_of_lt _ ?_), (hrd _).trans ?_, (hrd _).trans ?_⟩
  · exact Nat.pow_lt_pow_right (by decide) h
  · rw [State.photoRecorded, State.rd_wr_other _ _ (by decide)]
    exact State.rd_wr_of_lt _ s.now.isLt
  · rw [State.photoRecorded, State.rd_wr_other _ _ (by decide), State.rd_wr_other _ _ (by decide)]
    rfl

theorem State.photoStart_rly {s : State} (h : s.rd RLY_CTL.FRZ_OUT = 0) (bit : Nat) : (s.photoStart bit).rly = s.rly := by
  have hquiet : (s.photoRecorded bit).on RLY_CTL.FRZ_OUT = false := by
    rw [State.on, State.photoRecorded, State.rd_wr_other _ _ (by decide), State.rd_wr_other _ _ (by decide), h]
    rfl
  refine (State.pinPulsed_frame _).2.trans ?_
  rw [if_neg (by simp [hquiet])]
  rfl

/-- Settles O34, by whether a photo-finish runs and by the mode. -/
theorem photoFinishTriggers : Obligations.PhotoFinishTriggers := by
  unfold Obligations.PhotoFinishTriggers
  intro s bit hbit t together
  refine ⟨fun hp hpf => ?starts, fun h => State.photo_together h bit, fun h hdup => ?dup, fun hp hpf => ?ignored⟩
  case starts =>
    simp only [List.mem_cons, List.not_mem_nil, or_false] at hp
    have hstart : t = s.photoStart bit := by
      rw [show t = s.photo bit from rfl, State.photo_apart (State.not_together hpf),
        if_neg (State.none_runs hpf (by omega)), if_neg (by omega)]
    obtain ⟨hsrc, htime, hmode⟩ := s.photoStart_records hbit
    rw [hstart]
    exact ⟨rfl, hsrc, htime, hmode, fun h => State.photoStart_rly h bit⟩
  case dup => exact (State.photo_apart h bit).trans (if_pos hdup)
  case ignored =>
    simp only [List.mem_cons, List.not_mem_nil, or_false] at hp
    exact (State.photo_apart (State.not_together hpf) bit).trans ((if_neg (State.none_runs hpf (by omega))).trans
      (if_pos (by omega)))

/-! ### The stop (R547) -/

/-- The ranks of the channels in self-refresh. -/
def State.refreshed (s : State) (cs : List Nat) : State :=
  cs.foldl (fun s c => s.setChan c { s.chan c with sref := true }) s

theorem State.chan_setChan_same (s : State) (c : Nat) (x : ChanSt) : (s.setChan c x).chan c = x :=
  Tbl.getD_put_same s.chans c ChanSt.init x

theorem State.chan_setChan_other (s : State) {c d : Nat} (x : ChanSt) (h : d ≠ c) : (s.setChan c x).chan d = s.chan d :=
  Tbl.getD_put_other s.chans ChanSt.init x ChanSt.init h

/-- A channel in self-refresh stays there. -/
theorem State.sref_setChan {s : State} {c d : Nat} (h : c = d ∨ (s.chan d).sref = true) :
    ((s.setChan c { s.chan c with sref := true }).chan d).sref = true := by
  by_cases hd : d = c
  · rw [hd, State.chan_setChan_same]
  · rw [State.chan_setChan_other _ _ hd]
    exact h.resolve_left (Ne.symm hd)

theorem State.sref_refreshed {s : State} {cs : List Nat} {c : Nat} (h : c ∈ cs ∨ (s.chan c).sref = true) :
    ((s.refreshed cs).chan c).sref = true := by
  induction cs generalizing s with
  | nil => exact h.resolve_left (List.not_mem_nil)
  | cons d cs ih =>
    refine ih ?_
    rcases h with h | h
    · rcases List.mem_cons.1 h with rfl | h
      · exact .inr (State.sref_setChan (.inl rfl))
      · exact .inl h
    · exact .inr (State.sref_setChan (.inr h))

theorem State.refreshed_regs (s : State) (cs : List Nat) : (s.refreshed cs).regs = s.regs :=
  List.foldlRecOn (motive := fun t => State.regs t = s.regs) cs _ rfl fun _ ht _ _ => ht

section
variable {s : State} {p : PfSt} (hpf : s.pf = some p)
include hpf

/-- With every controller's report the stop order goes out. -/
theorem State.pfStop_reported (h : p.stopped = false) :
    s.pfStop (fun _ => false) = { s.refreshed p.wait with pf := some ⟨[], true⟩ } := by
  simp [State.pfStop, hpf, h, State.refreshed]

theorem State.pfStop_stopped (h : p.stopped = true) (missing : Nat → Bool) : s.pfStop missing = s := by
  simp [State.pfStop, hpf, h]

theorem State.pfDone_early (h : p.stopped = false) : s.pfDone = s := by
  simp [State.pfDone, hpf, h]

/-- With the islands stopped the mode is PHOTO. -/
theorem State.pfDone_stops (h : p.stopped = true) (hp : s.pkgMode ≠ 5) (hl : s.mon.lines = []) (hb : s.mon.mbOut = []) :
    s.pfDone = (s.setMode 5).raise DBG_PF_STS.fDONE := by
  simp only [State.pfDone, hpf, h]
  rw [if_neg (by simp [hp])]
  exact State.monNext_idle hl hb

end

/-- Settles O35, by whether the stop order has gone out. -/
theorem photoFinishStops : Obligations.PhotoFinishStops := by
  unfold Obligations.PhotoFinishStops
  intro s p hmode hpf hl hb
  have reported : exec .pfControllersReported s =
      .next { s.pfStop (fun _ => false) with pending := s.pending } := s.done_eq _
  have stopped : exec .pfIslandsStopped s = .next { s.pfDone with pending := s.pending } := s.done_eq _
  rw [reported, stopped]
  refine ⟨fun h => ⟨?early, _, rfl, ?order⟩, fun h hp => ⟨?again, _, rfl, ?done⟩⟩
  case early => rw [State.pfDone_early hpf h]
  case order =>
    rw [State.pfStop_reported hpf h]
    refine ⟨rfl, ?_, fun c hc => State.sref_refreshed (.inl hc)⟩
    exact congrArg (Tbl.getD · HUB_PKG_MODE.PKG_MODE.key HUB_PKG_MODE.PKG_MODE.rst) (s.refreshed_regs p.wait)
  case again => rw [State.pfStop_stopped hpf h]
  case done =>
    rw [State.pfDone_stops hpf h hp hl hb]
    refine ⟨?_, ?_, ?_, rfl⟩
    · exact (State.rd_raise_other _ (by decide) (by decide)).trans (s.pkgMode_setMode 5 (by decide))
    · refine (State.rd_raise_other _ (by decide) (by decide)).trans ((s.rd_setMode_PREV 5).trans ?_)
      exact Nat.mod_eq_of_lt hmode
    · exact State.rd_raise_bit _ DBG_PF_STS.fDONE rfl (by decide)

/-! ### The rows of the monitor and of a photo-finish -/

/-- Settles O59: a line reaches the monitor in every state (`State.done`), an event of the islands while they run. The clauses
stand in the order of the statement: the lines, breakpoints and the session, then the photo-finish. -/
theorem monitorCommandsComplete : Obligations.MonitorCommandsComplete := by
  unfold Obligations.MonitorCommandsComplete
  intro s
  refine ⟨?mode, ?ident, ?status, fun answer => ?auth, ?logout, fun n => ?baud, fun n => ?log, ?boot,
    fun keep => ?powerdown, fun kind => ?reset, fun watts lock => ?limit, ?dietest, ?photo, fun secs start => ?cap,
    fun off => ?rd, fun off v => ?wr, fun core => ?perf, fun core => ?halt, fun core => ?go, fun core => ?step,
    fun core => ?regs, fun core reg v => ?setreg, fun core slot va => ?brk, fun world enc pa len => ?memrd,
    fun world enc pa v => ?memwr, fun c h => ?breakpoint, ?uartBreak, ?timeout, ?lockoutEnd, ?pin, fun d h => ?trigger,
    ?reported, fun missing => ?stopTimeout, ?stopped⟩
  case breakpoint | trigger => apply State.ifRuns_run h
  all_goals exact s.done_eq _

end Sys2Proof.Machine
end

section
/-!
PROOFS of the statements on bring-up and reset (21_bringup_and_reset.md): what cold reset leaves (R471, R556), the state in which a
core starts (R571), and that every event of a reset or boot has its effect.
-/
namespace Sys2Proof.Machine

/-! ### Cold reset (R471, R556) -/

/-- A key that a table does not list reads as unlisted. -/
theorem Tbl.get?_eq_none {α : Type} {t : Tbl α} {k : Nat} (h : ∀ e ∈ t, e.1 ≠ k) : Tbl.get? t k = none := by
  induction t with
  | nil => rfl
  | cons e t ih =>
    obtain ⟨he, ht⟩ := List.forall_mem_cons.1 h
    rw [Tbl.get?, if_neg (Ne.symm he), ih ht]

/-- A field whose key is not listed reads its reset value. -/
theorem State.rd_of_unlisted {s : State} {f : Fld} (h : ∀ e ∈ s.regs, e.1 ≠ f.key) : s.rd f = f.rst := by
  rw [State.rd, Tbl.getD, Tbl.get?_eq_none h]
  rfl

/-- Besides three stops and the relay port every field of the reset state holds the value that its table gives. -/
theorem State.rd_reset {f : Fld} (h : ∀ e ∈ resetRegs, e.1 ≠ f.key) : State.reset.rd f = f.rst := State.rd_of_unlisted h

theorem resetRegs_stop_or_relay : ∀ e ∈ resetRegs, e.1 / 64 ∈ [(MESH_STOP.STATE 56).addr, (MESH_STOP.STATE 60).addr,
    (MESH_STOP.STATE 63).addr, RLY_POS.STATE.addr] := by decide

theorem State.reset_agentState {a : Nat} (h : a < 13) : State.reset.agentState a = 3 := by
  refine State.rd_reset fun e he hk => ?_
  have haddr : (HUB_AGENT_STATE.SLOT a).key / 64 = 0x100100 := by
    simp only [HUB_AGENT_STATE.SLOT]
    omega
  have hmem := resetRegs_stop_or_relay e he
  rw [hk, haddr] at hmem
  revert hmem
  decide

theorem State.reset_domState {d : Nat} (h : d < 20) : State.reset.rd (PMC_DOM.STATE d) = 0 := by
  refine State.rd_reset (f := PMC_DOM.STATE d) fun e he hk => ?_
  have haddr : (PMC_DOM.STATE d).key / 64 = 0xC00100 + d * 8 := by
    simp only [PMC_DOM.STATE]
    omega
  have hmem := resetRegs_stop_or_relay e he
  rw [hk, haddr] at hmem
  simp only [List.mem_cons, List.not_mem_nil, or_false, Fld.addr, MESH_STOP.STATE, RLY_POS.STATE] at hmem
  omega

/-- The reset state is in STANDBY. -/
theorem State.pkgMode_reset : State.reset.pkgMode = 1 := State.rd_reset (by decide)

/-- Settles O5: the fields hold their reset values, and every table and queue is empty. -/
theorem resetLeavesStandby : Obligations.ResetLeavesStandby := by
  unfold Obligations.ResetLeavesStandby
  have hrunning : State.reset.stopped = false := by rw [State.stopped, State.pkgMode_reset]; rfl
  exact ⟨fun _ hc => absurd hc List.not_mem_nil, rfl, State.pkgMode_reset, fun _ => State.reset_agentState,
    State.rd_reset (f := HMC_STATE.STATE_N) (by decide), State.rd_reset (f := HMC_STATE.STATE_S) (by decide),
    State.rd_reset (f := OWN_CTL.EN) (by decide), fun _ => rfl, fun _ _ _ => rfl, fun _ _ _ => rfl, fun _ _ => rfl,
    fun _ => rfl, rfl, State.rd_reset (f := ERR_FIFO_STS.COUNT) (by decide), fun _ => State.reset_domState, by decide,
    State.rd_reset (f := RLY_POS.POS) (by decide), hrunning⟩

/-! ### The start of a core (R571) -/

/-- The fields in a range of addresses return to their reset values. -/
theorem State.rd_regsReset (s : State) {lo hi : Nat} {f : Fld} (h : 64 * lo ≤ f.key) (h' : f.key < 64 * hi) :
    (s.regsReset lo hi).rd f = f.rst := by
  refine State.rd_of_unlisted fun e he hk => ?_
  have hout := (List.mem_filter.1 he).2
  simp only [Bool.or_eq_true, decide_eq_true_eq] at hout
  omega

theorem State.core_setCore_same (s : State) (c : Nat) (x : CoreSt) : (s.setCore c x).core c = x :=
  Tbl.getD_put_same s.cores c CoreSt.init x

theorem State.core_setCore_other (s : State) {c k : Nat} (x : CoreSt) (h : k ≠ c) : (s.setCore c x).core k = s.core k :=
  Tbl.getD_put_other s.cores CoreSt.init x CoreSt.init h

/-- A core as it starts. -/
def CoreSt.started (pc : Nat) : CoreSt := { CoreSt.init with online := true, pc := pc, idle := 0 }

theorem State.core_coreStart (s : State) (c pc : Nat) : (s.coreStart c pc).core c = .started pc :=
  State.core_setCore_same _ c _

theorem State.core_coreStart_other (s : State) {c k : Nat} (pc : Nat) (h : k ≠ c) :
    (s.coreStart c pc).core k = s.core k := State.core_setCore_other _ _ h

theorem PMC_CLUS.ONLINE_key (k : Nat) : (PMC_CLUS.ONLINE k).key = 0xC00400 * 64 + 20 + k * 512 := by
  simp only [PMC_CLUS.ONLINE]
  omega

theorem WCTL.WORLD_key (c : Nat) : (WCTL.WORLD c).key = 64 * (2 ^ 32 + c * 0x10000) + 0x6000 * 64 := by
  simp only [WCTL.WORLD]
  omega

theorem State.rd_coreStart_WORLD (s : State) (c pc : Nat) : (s.coreStart c pc).rd (WCTL.WORLD c) = 1 := by
  refine (State.rd_wr_other _ _ ?_).trans (State.rd_wr_same _ (WCTL.WORLD c) 1)
  rw [PMC_CLUS.ONLINE_key, WCTL.WORLD_key]
  omega

/-- But for the world every system register of the core is as at reset. -/
theorem State.rd_coreStart_core (s : State) {c : Nat} (pc : Nat) {f : Fld}
    (h : 64 * (2 ^ 32 + c * 0x10000) ≤ f.key) (h' : f.key < 64 * (2 ^ 32 + (c + 1) * 0x10000))
    (hw : f.key ≠ (WCTL.WORLD c).key) : (s.coreStart c pc).rd f = f.rst := by
  refine (State.rd_wr_other _ _ ?_).trans ((State.rd_wr_other _ _ hw).trans (s.rd_regsReset h h'))
  rw [PMC_CLUS.ONLINE_key]
  omega

/-- Settles O23: the core's own state, its registers, and the other cores. -/
theorem coreStartState : Obligations.CoreStartState := by
  unfold Obligations.CoreStartState
  intro s c pc _ t
  have hcore : t.core c = .started pc := s.core_coreStart c pc
  have hregs : ∀ f : Fld, 64 * (2 ^ 32 + c * 0x10000) ≤ f.key → f.key < 64 * (2 ^ 32 + (c + 1) * 0x10000) →
      f.key ≠ (WCTL.WORLD c).key → t.rd f = f.rst := fun f => s.rd_coreStart_core pc
  rw [hcore]
  refine ⟨rfl, rfl, rfl, s.rd_coreStart_WORLD c pc, rfl, rfl, hregs (TT_CTL.EN c) ?_ ?_ ?_, hregs (VM_CTL.S2EN c) ?_ ?_ ?_,
    hregs, fun k hk => s.core_coreStart_other pc hk⟩
  all_goals simp only [TT_CTL.EN, VM_CTL.S2EN, WCTL.WORLD]; omega

/-! ### The rows of resets, power-good inputs, the boot and the test port -/

/-- Settles O60: a row of AON has its effect in every state (`State.done`), one of the islands while they run. The clauses
stand in the order of the statement. -/
theorem resetEventsComplete : Obligations.ResetEventsComplete := by
  unfold Obligations.ResetEventsComplete
  intro s
  refine ⟨?flushDeadline, ?coldPin, ?rstRise, ?pgMainRise, ?pgMainTimeout, fun k => ?pgAuxRise, fun k h => ?pgAuxTimeout,
    fun k => ?pgFall, fun t d h => ?rstDie, fun d h => ?rstTqe, fun h => ?rstDone, fun k v d h => ?cxlWindow,
    fun ir => ?tap, fun pass hbm map x => ?trained, fun fail ver cfg => ?verified⟩
  case pgAuxTimeout | rstDie | rstTqe | rstDone | cxlWindow => apply State.ifRuns_run h
  all_goals exact s.done_eq _

end Sys2Proof.Machine
end
